-- ==== Sys2Proof/Word.lean ====
section
/-! DEFINITION. The word types of the Tigegus device: bytes and the 16, 32, 64, 128 and 256-bit words the
registers, structures and lanes of spec/ are made of. -/

namespace Sys2Proof

/-- One byte of memory (R14). -/
abbrev Byte := BitVec 8
/-- A 16-bit word: context tags, command identifiers. -/
abbrev Half := BitVec 16
/-- A 32-bit word: one register of the register interface, one FP32 lane. -/
abbrev Word := BitVec 32
/-- A 64-bit word: one instruction word, one scalar register, one fence word. -/
abbrev DWord := BitVec 64

end Sys2Proof
end

