-- ==== Sys2Proof/Syntax.lean ====
section
/-! DEFINITION. The commands of the Tigegus device: operand types, and one constructor of Instr per row of
spec/opcode_table.json. -/

namespace Sys2Proof.Machine

/-- A bundle: the four instruction words M, V, X, C (R112). -/
structure Bundle where
  m : DWord := 0
  v : DWord := 0
  x : DWord := 0
  c : DWord := 0
  deriving DecidableEq, Repr

/-- A logical Wick: domain, context tag, logical Lantern, logical Wick (R78). -/
structure WickRef where
  dom : BitVec 8
  ctx : BitVec 16
  llant : BitVec 6
  lwick : BitVec 3
  deriving DecidableEq, Repr

/-- What the memory controller meets when an access reads its first line (R242): no error, a corrected one, a check that
passed on a re-read, or one that still fails. -/
inductive LineEv where
  | clean | corrected | retried | failed
  deriving DecidableEq, Repr

/-- What the memory meets in a Wick's access, a matrix operation or a transfer (R241, R242, R249): what happens at its first DOMAIN line;
the lines, by DPA / 256, whose stored bits noise or tampering has struck by now, and whether the code corrects them; the compute tiles
whose copy of the table line used is uncorrectable; whether the counter store is; and the HMCLK cycles that a read of the Wick's own
tile took. -/
structure MemEv where
  ev : LineEv := .clean
  struck : List (BitVec 34 × Bool) := []
  table : BitVec 4 := 0
  store : Bool := false
  cycles : BitVec 32 := 0
  deriving DecidableEq, Repr

/-- A 64-byte host command as the device fetches it from its ring (R344). -/
structure Cmd where
  opcode : BitVec 8 := 0
  flags : BitVec 8 := 0
  ctx : BitVec 16 := 0
  cmdid : BitVec 32 := 0
  wref : DWord := 0
  wval : DWord := 0
  sref : DWord := 0
  sval : DWord := 0
  args : BitVec 192 := 0
  deriving DecidableEq, Repr

/-- What a host command takes from outside the device when it starts: the bytes it reads in host memory, and for RELIGHT the
candidate images in descriptor order (R529). -/
structure CmdIn where
  data : List Byte := []
  parts : List (List Byte) := []
  deriving DecidableEq, Repr

/-- What phase 1 of a start finds (R539): a step 1 to 9 that fails or exceeds its limit (0 none); the start-up values of the PUF's
SRAM array in its successive reads, and the 15 evaluations of the delay-line bank, each the bits of a number by cell or by challenge
(R375, R377; what is not listed is 0); cells that cannot be programmed or read programmed at normal margin only (R392, R397); whether
the progress mark's CRC is bad (R394); the NVS words, by bank and sector, that the start reads with a corrected error (R448); and
whether every sensor is 10 °C below its throttle limit (R557). -/
structure StartIn where
  fail : BitVec 4 := 0
  sram : List Nat := []
  delay : List Nat := []
  bad : List (BitVec 16) := []
  weak : List (BitVec 16) := []
  badMark : Bool := false
  ecc : List (BitVec 4 × BitVec 7) := []
  cool : Bool := true
  deriving DecidableEq, Repr

/-- A write to a function's BAR0 (R568): function 0 PF0 or n VF n, offset of its first byte, the bytes that its byte enables select,
whether these leave a gap, and whether it carries the T bit on the VF's bound stream (R332). What the register's action then takes from
outside: the commands of a ring (R339), bytes of host memory (R391, R438), and how a start or a programming goes. -/
structure AccIn where
  fn : BitVec 9 := 0
  off : BitVec 25 := 0
  data : List (BitVec 8) := []
  gap : Bool := false
  tee : Bool := false
  ring : List Cmd := []
  host : List (BitVec 8) := []
  io : StartIn := {}
  deriving DecidableEq, Repr

/-- A packet of the fabric (R271): the fields of its header slot and its data. `rsv` says that a reserved field of the
header was nonzero. -/
structure Pkt where
  dst : BitVec 13 := 0
  src : BitVec 13 := 0
  tc : BitVec 2 := 0
  hop : BitVec 3 := 0
  rtype : Bool := false
  phase : Bool := false
  detour : Bool := false
  igroup : BitVec 8 := 0
  ptype : BitVec 8 := 0
  tag : DWord := 0
  sdom : BitVec 8 := 0
  ddom : BitVec 8 := 0
  xtag : BitVec 16 := 0
  bytes : BitVec 32 := 0
  adr : DWord := 0
  aux : DWord := 0
  pspec : BitVec 192 := 0
  data : List Byte := []
  rsv : Bool := false
  /-- The packet belongs to a checkpoint image: ADDR is an offset in the partner's region. How a header marks it is not
  in the spec (DESIGN CHOICE, log 40). -/
  img : Bool := false
  /-- The fault that a NAK reports for a remote access (R92, R243): 5 NOMAP, 6 PERM, 7 POISON; 0 none. How a NAK carries it is
  not in the spec (DESIGN CHOICE, log 42). -/
  fault : BitVec 8 := 0
  /-- The traffic class that a READ_REQ asks for its READ_DATA (R271: as the transfer selects). How a header carries it is not in
  the spec (DESIGN CHOICE, log 57). -/
  rtc : BitVec 2 := 2
  /-- The link it arrived on, 36 or more for a packet of this chip: whose buffer its slots leave (R261). -/
  inp : BitVec 6 := 36
  /-- A piece of a token longer than 4,096 bytes: its number, and the token's bytes; 0 for a whole token. How a header carries them is
  not in the spec (DESIGN CHOICE, log 45). -/
  part : BitVec 2 := 0
  whole : BitVec 15 := 0
  deriving DecidableEq, Repr

/-- What a step boundary finds (R34): the context, and the samples that the Beacon logic takes at it (R489): for a link egress (its
number · 256) or a memory channel ((0x40 + controller) · 256 + channel), ⌊16 × idle fraction⌋ of each of the 64 bins of the step just
ended; 0 where none is listed. -/
structure StepIn where
  ctx : BitVec 16 := 0
  idle : List (BitVec 16 × List (BitVec 5)) := []
  deriving DecidableEq, Repr

/-- How far a re-key goes by one command (R238, log 62): how many lines, and which lines of the page fail their check. -/
structure RekeyIn where
  n : BitVec 11 := 0
  bad : List (BitVec 10) := []
  deriving DecidableEq, Repr

/-- A packet to forward, and how long it waited beyond the forwarding time, in RTCLK cycles (R502, log 73). -/
structure HopIn where
  pkt : Pkt
  wait : BitVec 32 := 0
  deriving DecidableEq, Repr

/-- A QUIET trigger's slot, and whether its link or channel has been idle for 1 µs without a break (R490). -/
structure QuietIn where
  slot : BitVec 8
  idle : Bool := false
  deriving DecidableEq, Repr

/-- A received link frame (R254, R255): FEC failed; symbols corrected; the flit header; the sequence number it was sealed
under; and whether its tag holds under that number. -/
structure FlitIn where
  unc : Bool := false
  syms : BitVec 4 := 0
  hdr : BitVec 32 := 0x3E000#32
  seq : DWord := 0
  intact : Bool := true
  deriving DecidableEq, Repr

/-- How a short retrain ended (R259). -/
inductive ShortEnd where
  /-- UP again: lanes that cannot reach margin, and whether both ends reach the light-FEC margin and ask for it. -/
  | ok (bad : BitVec 8) (light : Bool)
  | noSignal | noLock | error
  deriving DecidableEq, Repr

/-- What training on a link found (R265 to R267): whether the peer is there (in DETECT: both ends have locked and seen the other's
inverted pattern), lanes that cannot reach margin, equalisation, frame lock, the peer's identity, and whether both ends reached the
light-FEC margin and the peer asks for it. -/
structure TrainIn where
  signal : Bool := true
  bad : BitVec 8 := 0
  eq : Bool := true
  lock : Bool := true
  peer : BitVec 13 := 0
  peerLink : BitVec 6 := 0
  light : Bool := false
  deriving DecidableEq, Repr

/-- What the key exchange found (R263): the peer's chain and signatures verify, its life-cycle state, its security
version, its identity. -/
structure KeyxIn where
  chain : Bool := true
  lc : BitVec 4 := 4
  svn : BitVec 8 := 0
  peer : BitVec 13 := 0
  peerLink : BitVec 6 := 0
  deriving DecidableEq, Repr

/-- What IDE_KM and the stream's association blocks give a stream (R329): function, key, address blocks, whether PCRC is on. -/
structure IdeIn where
  fn : BitVec 9 := 0
  key : List (BitVec 8) := []
  blocks : List (BitVec 64 × BitVec 64) := []
  pcrc : Bool := false
  deriving DecidableEq, Repr

end Sys2Proof.Machine

namespace Sys2Proof

open Sys2Proof.Machine

/-- The commands: one constructor per row of spec/opcode_table.json. -/
inductive Instr where
  /-- NOP (R113). -/
  | nop (w : WickRef) (b : Bundle)
  /-- MMA (R150). -/
  | mma (w : WickRef) (b : Bundle)
  /-- TZERO (R153). -/
  | tzero (w : WickRef) (b : Bundle)
  /-- TCOPY (R153). -/
  | tcopy (w : WickRef) (b : Bundle)
  /-- TGET (R153). -/
  | tget (w : WickRef) (b : Bundle)
  /-- TPUT (R153). -/
  | tput (w : WickRef) (b : Bundle)
  /-- ATTN_BLK_FWD (R156). -/
  | attnBlkFwd (w : WickRef) (b : Bundle)
  /-- ATTN_BLK_BWD (R157). -/
  | attnBlkBwd (w : WickRef) (b : Bundle)
  /-- MATRIX_OP_EXECUTE (R148). -/
  | matrixOpExecute (w : WickRef) (ev : LineEv)
  /-- VADD (R158). -/
  | vadd (w : WickRef) (b : Bundle)
  /-- VSUB (R158). -/
  | vsub (w : WickRef) (b : Bundle)
  /-- VMUL (R158). -/
  | vmul (w : WickRef) (b : Bundle)
  /-- VFMA (R158). -/
  | vfma (w : WickRef) (b : Bundle)
  /-- VDIV (R158). -/
  | vdiv (w : WickRef) (b : Bundle)
  /-- VSQRT (R158). -/
  | vsqrt (w : WickRef) (b : Bundle)
  /-- VMAX (R67). -/
  | vmax (w : WickRef) (b : Bundle)
  /-- VMIN (R67). -/
  | vmin (w : WickRef) (b : Bundle)
  /-- VNEG (R158). -/
  | vneg (w : WickRef) (b : Bundle)
  /-- VABS (R158). -/
  | vabs (w : WickRef) (b : Bundle)
  /-- VSIGN (R67). -/
  | vsign (w : WickRef) (b : Bundle)
  /-- VEXP2 (R163). -/
  | vexp2 (w : WickRef) (b : Bundle)
  /-- VLOG2 (R164). -/
  | vlog2 (w : WickRef) (b : Bundle)
  /-- VCMPEQ (R158). -/
  | vcmpeq (w : WickRef) (b : Bundle)
  /-- VCMPNE (R158). -/
  | vcmpne (w : WickRef) (b : Bundle)
  /-- VCMPLT (R158). -/
  | vcmplt (w : WickRef) (b : Bundle)
  /-- VCMPLE (R158). -/
  | vcmple (w : WickRef) (b : Bundle)
  /-- VCLASS (R159). -/
  | vclass (w : WickRef) (b : Bundle)
  /-- VSEL (R158). -/
  | vsel (w : WickRef) (b : Bundle)
  /-- VCVT (R160). -/
  | vcvt (w : WickRef) (b : Bundle)
  /-- VRAND (R161). -/
  | vrand (w : WickRef) (b : Bundle)
  /-- VREDSUM (R64). -/
  | vredsum (w : WickRef) (b : Bundle)
  /-- VREDMAX (R64). -/
  | vredmax (w : WickRef) (b : Bundle)
  /-- VREDMIN (R64). -/
  | vredmin (w : WickRef) (b : Bundle)
  /-- VIADD (R162). -/
  | viadd (w : WickRef) (b : Bundle)
  /-- VISUB (R162). -/
  | visub (w : WickRef) (b : Bundle)
  /-- VIMUL (R162). -/
  | vimul (w : WickRef) (b : Bundle)
  /-- VAND (R162). -/
  | vand (w : WickRef) (b : Bundle)
  /-- VOR (R162). -/
  | vor (w : WickRef) (b : Bundle)
  /-- VXOR (R162). -/
  | vxor (w : WickRef) (b : Bundle)
  /-- VSHL (R162). -/
  | vshl (w : WickRef) (b : Bundle)
  /-- VSHR (R162). -/
  | vshr (w : WickRef) (b : Bundle)
  /-- VSRA (R162). -/
  | vsra (w : WickRef) (b : Bundle)
  /-- VPERM (R162). -/
  | vperm (w : WickRef) (b : Bundle)
  /-- PAND (R162). -/
  | pand (w : WickRef) (b : Bundle)
  /-- POR (R162). -/
  | por (w : WickRef) (b : Bundle)
  /-- PXOR (R162). -/
  | pxor (w : WickRef) (b : Bundle)
  /-- PNOT (R162). -/
  | pnot (w : WickRef) (b : Bundle)
  /-- LD (R165). -/
  | ld (w : WickRef) (b : Bundle) (ev : MemEv)
  /-- ST (R165). -/
  | st (w : WickRef) (b : Bundle) (ev : MemEv)
  /-- VLD (R165). -/
  | vld (w : WickRef) (b : Bundle)
  /-- VST (R165). -/
  | vst (w : WickRef) (b : Bundle)
  /-- TLD (R165). -/
  | tld (w : WickRef) (b : Bundle)
  /-- TST (R165). -/
  | tst (w : WickRef) (b : Bundle)
  /-- DMA (R168). -/
  | dmaIssue (w : WickRef) (b : Bundle)
  /-- DMA_TRANSFER_COMPLETE (R84). -/
  | dmaTransferComplete (w : WickRef) (q : BitVec 4) (ev : MemEv)
  /-- TOKD (R172). -/
  | tokd (w : WickRef) (b : Bundle)
  /-- MOVI (R167). -/
  | movi (w : WickRef) (b : Bundle)
  /-- MOVHI (R167). -/
  | movhi (w : WickRef) (b : Bundle)
  /-- MOVSA (R143). -/
  | movsa (w : WickRef) (b : Bundle)
  /-- MOVAS (R143). -/
  | movas (w : WickRef) (b : Bundle)
  /-- MOVSW (R78). -/
  | movsw (w : WickRef) (b : Bundle)
  /-- VGETL (R143). -/
  | vgetl (w : WickRef) (b : Bundle)
  /-- VSETL (R143). -/
  | vsetl (w : WickRef) (b : Bundle)
  /-- VBCAST (R143). -/
  | vbcast (w : WickRef) (b : Bundle)
  /-- AADD (R167). -/
  | aadd (w : WickRef) (b : Bundle)
  /-- AADDI (R167). -/
  | aaddi (w : WickRef) (b : Bundle)
  /-- ASET (R143). -/
  | aset (w : WickRef) (b : Bundle)
  /-- PFROMV (R143). -/
  | pfromv (w : WickRef) (b : Bundle)
  /-- PTOV (R143). -/
  | ptov (w : WickRef) (b : Bundle)
  /-- ADD (R173). -/
  | add (w : WickRef) (b : Bundle)
  /-- SUB (R173). -/
  | sub (w : WickRef) (b : Bundle)
  /-- MUL (R173). -/
  | mul (w : WickRef) (b : Bundle)
  /-- AND (R144). -/
  | andS (w : WickRef) (b : Bundle)
  /-- OR (R144). -/
  | orS (w : WickRef) (b : Bundle)
  /-- XOR (R144). -/
  | xorS (w : WickRef) (b : Bundle)
  /-- SHL (R173). -/
  | shl (w : WickRef) (b : Bundle)
  /-- SHR (R173). -/
  | shr (w : WickRef) (b : Bundle)
  /-- SRA (R173). -/
  | sra (w : WickRef) (b : Bundle)
  /-- SLT (R144). -/
  | slt (w : WickRef) (b : Bundle)
  /-- SLTU (R144). -/
  | sltu (w : WickRef) (b : Bundle)
  /-- BR (R122). -/
  | br (w : WickRef) (b : Bundle)
  /-- BEQ (R173). -/
  | beq (w : WickRef) (b : Bundle)
  /-- BNE (R173). -/
  | bne (w : WickRef) (b : Bundle)
  /-- BLT (R173). -/
  | blt (w : WickRef) (b : Bundle)
  /-- BGE (R173). -/
  | bge (w : WickRef) (b : Bundle)
  /-- BLTU (R173). -/
  | bltu (w : WickRef) (b : Bundle)
  /-- BGEU (R173). -/
  | bgeu (w : WickRef) (b : Bundle)
  /-- LOOP (R173). -/
  | loop (w : WickRef) (b : Bundle)
  /-- JR (R122). -/
  | jr (w : WickRef) (b : Bundle)
  /-- CALL (R173). -/
  | call (w : WickRef) (b : Bundle)
  /-- FSIG (R174). -/
  | fsig (w : WickRef) (b : Bundle)
  /-- FWAIT (R175). -/
  | fwait (w : WickRef) (b : Bundle)
  /-- FWAIT_SATISFIED (R98). -/
  | fwaitSatisfied (w : WickRef)
  /-- FWAIT_TIMEOUT (R97). -/
  | fwaitTimeout (w : WickRef)
  /-- FWAIT_REREAD (R98). -/
  | fwaitReread
  /-- FOWN (R176). -/
  | fown (w : WickRef) (b : Bundle)
  /-- ALLOC (R177). -/
  | allocMem (w : WickRef) (b : Bundle)
  /-- FREE (R177). -/
  | freeMem (w : WickRef) (b : Bundle)
  /-- STEP (R178). -/
  | stepBarrier (w : WickRef) (b : Bundle)
  /-- STEP_BOUNDARY (R34). -/
  | stepBoundary (d : BitVec 8) (x : StepIn)
  /-- STEP_TIMEOUT (R178). -/
  | stepTimeout (w : WickRef)
  /-- COLL (R179). -/
  | coll (w : WickRef) (b : Bundle)
  /-- UPD (R179). -/
  | upd (w : WickRef) (b : Bundle)
  /-- HALT (R180). -/
  | halt (w : WickRef) (b : Bundle)
  /-- DEADLOCK_SCAN (R100). -/
  | deadlockScan
  /-- QUANTUM (R493). -/
  | quantumEdge (bad : List (BitVec 8 × BitVec 16))
  /-- IDLE_PLACEMENT (R492). -/
  | idlePlacement (bad : List (BitVec 8 × BitVec 16))
  /-- FOLD_SWITCH (R108). -/
  | foldSwitch (lant : BitVec 6) (wick : BitVec 3)
  /-- WICK_UNCORRECTABLE_ECC (R505). -/
  | wickUncorrectableEcc (lant : BitVec 6) (wick : BitVec 3)
  /-- LANTERN_UNCORRECTABLE_ECC (R505). -/
  | lanternUncorrectableEcc (lant : BitVec 6)
  /-- RESIDUE_CHECK_MISMATCH (R110). -/
  | residueCheckMismatch (lant : BitVec 6) (wick : BitVec 3)
  /-- UPDATE_START (R197). -/
  | updateStart (n : BitVec 1) (d : BitVec 8)
  /-- PARKED_UPDATE_RESUME (R186). -/
  | parkedUpdateResume (n : BitVec 1) (d : BitVec 8)
  /-- UPDATE_COMPLETE (R198). -/
  | updateComplete (d : BitVec 8) (ctx : BitVec 16)
  /-- SPILL_DRAIN (R36). -/
  | spillDrain (n : BitVec 1)
  /-- SEAL_CLOSE (R232). -/
  | sealClose (c : BitVec 5) (page : BitVec 20)
  /-- REKEY_PAGE (R238). -/
  | rekeyPage (c : BitVec 5) (x : RekeyIn)
  /-- FLIT_RECEIVE (R257). -/
  | flitReceive (n : BitVec 6) (f : FlitIn)
  /-- REPLAY_TIMEOUT (R258). -/
  | replayTimeout (n : BitVec 6)
  /-- STALL_CODEWORD (R258). -/
  | stallCodeword (n : BitVec 6)
  /-- LINK_RETRAIN (R259). -/
  | linkRetrain (n : BitVec 6) (r : ShortEnd)
  /-- DETECT_TIMEOUT (R265). -/
  | detectTimeout (n : BitVec 6) (signal : Bool)
  /-- TRAIN (R265). -/
  | linkTrain (n : BitVec 6) (o : TrainIn)
  /-- KEYX (R263). -/
  | linkKeyx (n : BitVec 6) (k : KeyxIn)
  /-- LINK_REKEY (R264). -/
  | linkRekey (n : BitVec 6) (rx req : Bool) (k : KeyxIn)
  /-- RETRAIN (R265). -/
  | linkRetrainFull (n : BitVec 6)
  /-- PACKET_FORWARD (R273). -/
  | packetForward (h : HopIn)
  /-- WRITE (R285). -/
  | pktWrite (p : Pkt)
  /-- READ_REQ (R283), with the lines, by DPA / 256, whose stored bits have suffered by now, and whether the code corrects them (R242). -/
  | pktReadReq (p : Pkt) (struck : List (BitVec 34 × Bool))
  /-- READ_DATA (R171). -/
  | pktReadData (p : Pkt)
  /-- ACK (R271). -/
  | pktAck (p : Pkt)
  /-- NAK (R272). -/
  | pktNak (p : Pkt)
  /-- STRAND_RESEND (R616). -/
  | strandResend (x : BitVec 16)
  /-- READ_REQ_RETRY (R272). -/
  | readReqRetry (x : BitVec 16)
  /-- TOKEN (R291). -/
  | pktToken (p : Pkt) (direct : Bool) (replica : BitVec 2) (expert : BitVec 16)
  /-- LINK_STATE_MSG (R278). -/
  | linkStateMsg (chip : BitVec 13) (link : BitVec 6) (up : Bool)
  /-- CONGESTION_REPORT (R277). -/
  | congestionReport (member : BitVec 5) (queued : List (BitVec 32))
  /-- JOINT_PEER (R430). -/
  | jointPeer (p : Pkt)
  /-- CLOSING_BINDING_EXPIRE (R335). -/
  | closingBindingExpire (d : BitVec 8)
  /-- READY (R299). -/
  | commReady (p : Pkt)
  /-- READY_RESEND (R299). -/
  | commReadyResend (d : BitVec 8) (id : BitVec 16)
  /-- GRANT (R314). -/
  | commGrant (p : Pkt)
  /-- BREAK (R322). -/
  | commBreak (p : Pkt)
  /-- CONTRIB (R308). -/
  | collContrib (p : Pkt)
  /-- PARTIAL (R310). -/
  | collPartial (p : Pkt)
  /-- REDUCE_RESULT (R318). -/
  | reduceResult (p : Pkt)
  /-- GATHER (R311). -/
  | collGather (p : Pkt)
  /-- BCAST (R312). -/
  | collBcast (p : Pkt)
  /-- BARRIER_UP (R313). -/
  | barrierUp (p : Pkt)
  /-- BARRIER_DOWN (R313). -/
  | barrierDown (p : Pkt)
  /-- TOKSUM (R318). -/
  | collToksum (p : Pkt)
  /-- COLLECTIVE_COMPLETE (R304). -/
  | collectiveComplete (d : BitVec 8) (id : BitVec 16)
  /-- COLLWAIT (R321). -/
  | collwait (d : BitVec 8) (id : BitVec 16) (seq : BitVec 64)
  /-- COMM_STATUS_WRITE (R300). -/
  | commStatusWrite (d : BitVec 8) (id : BitVec 16)
  /-- SQ_TAIL (R339). -/
  | sqTail (d : BitVec 8) (q : BitVec 6) (val : BitVec 32) (ring : List Cmd)
  /-- CQ_HEAD (R339). -/
  | cqHead (d : BitVec 8) (q : BitVec 6) (val : BitVec 32)
  /-- SQ_ENABLE (R338). -/
  | sqEnable (d : BitVec 8) (q : BitVec 6)
  /-- SQ_DISABLE (R343). -/
  | sqDisable (d : BitVec 8) (q : BitVec 6)
  /-- COMMAND_WAIT_END (R347). -/
  | commandWaitEnd (d : BitVec 8) (q : BitVec 6) (io : CmdIn)
  /-- COMMAND_COMPLETE (R342). -/
  | commandComplete (d : BitVec 8) (q : BitVec 6) (cmdid : BitVec 32)
  /-- CMD_NOP (R362). -/
  | cmdNop (d : BitVec 8) (q : BitVec 6) (io : CmdIn)
  /-- PROG_LOAD (R350). -/
  | progLoad (d : BitVec 8) (q : BitVec 6) (io : CmdIn)
  /-- PROG_UNLOAD (R350). -/
  | progUnload (d : BitVec 8) (q : BitVec 6) (io : CmdIn)
  /-- LAUNCH (R351). -/
  | launch (d : BitVec 8) (q : BitVec 6) (io : CmdIn)
  /-- CTX_DESTROY (R358). -/
  | ctxDestroy (d : BitVec 8) (q : BitVec 6) (io : CmdIn)
  /-- CTX_STEP (R352). -/
  | ctxStep (d : BitVec 8) (q : BitVec 6) (io : CmdIn)
  /-- MAP (R353). -/
  | mapPage (d : BitVec 8) (q : BitVec 6) (io : CmdIn)
  /-- UNMAP (R353). -/
  | unmapPage (d : BitVec 8) (q : BitVec 6) (io : CmdIn)
  /-- COPY (R354). -/
  | copyData (d : BitVec 8) (q : BitVec 6) (io : CmdIn)
  /-- FABRIC_BIND (R355). -/
  | fabricBind (d : BitVec 8) (q : BitVec 6) (io : CmdIn)
  /-- FABRIC_UNBIND (R355). -/
  | fabricUnbind (d : BitVec 8) (q : BitVec 6) (io : CmdIn)
  /-- EHT_LOAD (R289). -/
  | ehtLoad (d : BitVec 8) (q : BitVec 6) (io : CmdIn)
  /-- EHT_COMMIT (R289). -/
  | ehtCommit (d : BitVec 8) (q : BitVec 6) (io : CmdIn)
  /-- EHT_BANK_COPY (R289). -/
  | ehtBankCopy (d : BitVec 8)
  /-- COMM_CREATE (R297). -/
  | commCreate (d : BitVec 8) (q : BitVec 6) (io : CmdIn)
  /-- COMM_DESTROY (R356). -/
  | commDestroy (d : BitVec 8) (q : BitVec 6) (io : CmdIn)
  /-- COMM_ABORT (R356). -/
  | commAbort (d : BitVec 8) (q : BitVec 6) (io : CmdIn)
  /-- CKPT_CONFIG (R515). -/
  | ckptConfig (d : BitVec 8) (q : BitVec 6) (io : CmdIn)
  /-- CKPT_REQUEST (R517). -/
  | ckptRequest (d : BitVec 8) (q : BitVec 6) (io : CmdIn)
  /-- CKPT_EXPORT (R528). -/
  | ckptExport (d : BitVec 8) (q : BitVec 6) (io : CmdIn)
  /-- RELIGHT (R531). -/
  | relight (d : BitVec 8) (q : BitVec 6) (io : CmdIn)
  /-- CKPT_DECONFIG (R517). -/
  | ckptDeconfig (d : BitVec 8) (q : BitVec 6) (io : CmdIn)
  /-- CUT_REQ (R518). -/
  | cutReq (p : Pkt)
  /-- CUT_STAT (R519). -/
  | cutStat (p : Pkt)
  /-- CUT_SET (R519). -/
  | cutSet (p : Pkt)
  /-- CUT_COPY_DONE (R521). -/
  | cutCopyDone (d : BitVec 8)
  /-- CUT_DONE (R522). -/
  | cutDone (p : Pkt)
  /-- CUT_COMMIT (R522). -/
  | cutCommit (p : Pkt)
  /-- CUT_ABORT (R522). -/
  | cutAbort (p : Pkt)
  /-- SIZE (R515). -/
  | ckptSize (p : Pkt)
  /-- CUT_REPORT_TIMEOUT (R522). -/
  | cutReportTimeout (d : BitVec 8)
  /-- COPY_LIMIT_TIMEOUT (R522). -/
  | copyLimitTimeout (d : BitVec 8)
  /-- CUT_HOLD_TIMEOUT (R522). -/
  | cutHoldTimeout (d : BitVec 8)
  /-- HELLO (R444). -/
  | mbxHello (fn : BitVec 9)
  /-- MBX_GO (R443). -/
  | mbxGo (fn : BitVec 9)
  /-- MBX_READY (R442). -/
  | mbxReady (fn : BitVec 9)
  /-- PIN_ADD (R368). -/
  | pinAdd (d : BitVec 8)
  /-- PIN_REMOVE (R368). -/
  | pinRemove (d : BitVec 8)
  /-- SET_TIMEOUT (R368). -/
  | setTimeout (d : BitVec 8)
  /-- SET_PAGEMODE (R363). -/
  | setPagemode (d : BitVec 8)
  /-- SET_JOBSEED (R368). -/
  | setJobseed (d : BitVec 8)
  /-- POLICY_LOAD (R418). -/
  | policyLoad (d : BitVec 8)
  /-- TRIGGER_ARM (R487). -/
  | triggerArm (d : BitVec 8)
  /-- TRIGGER_CANCEL (R487). -/
  | triggerCancel (d : BitVec 8)
  /-- FW_INFO (R445). -/
  | fwInfo
  /-- BCR_READ (R445). -/
  | bcrRead
  /-- BCR_WRITE (R549). -/
  | bcrWrite
  /-- NVS_USER_WRITE (R457). -/
  | nvsUserWrite
  /-- NVS_USER_READ (R445). -/
  | nvsUserRead
  /-- NVS_USER_ERASE (R445). -/
  | nvsUserErase
  /-- NVS_CTR_READ (R456). -/
  | nvsCtrRead
  /-- NVS_CTR_INC (R456). -/
  | nvsCtrInc
  /-- NVS_OP_COMPLETE (R449). -/
  | nvsOpComplete (st : BitVec 8)
  /-- FENCE_MIRROR_WRITE (R361). -/
  | fenceMirrorWrite (d : BitVec 8) (n : BitVec 9) (high : Bool) (val : BitVec 32)
  /-- VF_ENABLE_SET (R333). -/
  | vfEnableSet (num : BitVec 9)
  /-- VF_ENABLE_CLEAR (R334). -/
  | vfEnableClear (keep : Option (BitVec 9))
  /-- FLR_VF (R334). -/
  | flrVf (d : BitVec 8)
  /-- FLR_PF0 (R578). -/
  | flrPf0
  /-- HOST_LINK_RESET (R327). -/
  | hostLinkReset
  /-- VF_CONFIG_WRITE (R332). -/
  | vfConfigWrite (d : BitVec 8) (mse bme : Bool) (bar : BitVec 64)
  /-- IDE_KM (R329). -/
  | ideKm (ses : BitVec 32) (n : BitVec 4) (k : IdeIn)
  /-- IDE_STREAM_STATE_CHANGE (R330). -/
  | ideStreamStateChange (n : BitVec 4) (secure : Bool)
  /-- GET_TDISP_VERSION (R331). -/
  | getTdispVersion (ses : BitVec 32) (d : BitVec 8)
  /-- GET_TDISP_CAPABILITIES (R331). -/
  | getTdispCapabilities (ses : BitVec 32) (d : BitVec 8)
  /-- LOCK_INTERFACE_REQUEST (R332). -/
  | lockInterfaceRequest (ses : BitVec 32) (d : BitVec 8) (stream : BitVec 4)
  /-- GET_DEVICE_INTERFACE_REPORT (R331). -/
  | getDeviceInterfaceReport (ses : BitVec 32) (d : BitVec 8)
  /-- GET_DEVICE_INTERFACE_STATE (R331). -/
  | getDeviceInterfaceState (ses : BitVec 32) (d : BitVec 8)
  /-- START_INTERFACE_REQUEST (R332). -/
  | startInterfaceRequest (ses : BitVec 32) (d : BitVec 8) (nonce : List (BitVec 8))
  /-- STOP_INTERFACE_REQUEST (R332). -/
  | stopInterfaceRequest (ses : BitVec 32) (d : BitVec 8)
  /-- TDISP_UNSUPPORTED (R331). -/
  | tdispUnsupported (ses : BitVec 32) (d : BitVec 8)
  /-- GET_VERSION (R409). -/
  | getVersion
  /-- GET_CAPABILITIES (R409). -/
  | getCapabilities (mutAuth : Bool)
  /-- NEGOTIATE_ALGORITHMS (R410). -/
  | negotiateAlgorithms (offers : BitVec 8)
  /-- GET_DIGESTS (R409). -/
  | getDigests
  /-- GET_CERTIFICATE (R407). -/
  | getCertificate (slot : BitVec 8) (off len : BitVec 16)
  /-- CHALLENGE (R411). -/
  | spdmChallenge (slot : BitVec 8)
  /-- GET_MEASUREMENTS (R412). -/
  | getMeasurements (index : BitVec 8) (signed : Bool)
  /-- KEY_EXCHANGE (R411). -/
  | keyExchange (slot : BitVec 8) (elems : List (BitVec 8))
  /-- FINISH (R409). -/
  | spdmFinish (ses : BitVec 32) (ok : Bool)
  /-- HEARTBEAT (R409). -/
  | spdmHeartbeat (ses : BitVec 32)
  /-- HEARTBEAT_TIMEOUT (R414). -/
  | heartbeatTimeout (ses : BitVec 32)
  /-- KEY_UPDATE (R409). -/
  | keyUpdate (ses : BitVec 32)
  /-- END_SESSION (R414). -/
  | endSession (ses : BitVec 32)
  /-- GET_ENCAPSULATED_REQUEST (R413). -/
  | getEncapsulatedRequest (ses : BitVec 32)
  /-- DELIVER_ENCAPSULATED_RESPONSE (R413). -/
  | deliverEncapsulatedResponse (ses : BitVec 32) (chain : List (BitVec 8))
  /-- CHUNK_SEND (R409). -/
  | chunkSend (data : List (BitVec 8)) (last : Bool)
  /-- CHUNK_GET (R409). -/
  | chunkGet
  /-- RESPOND_IF_READY (R415). -/
  | respondIfReady (fl : BitVec 9)
  /-- GET_CSR (R408). -/
  | getCsr (slot : BitVec 8)
  /-- SET_CERTIFICATE (R408). -/
  | setCertificate (slot : BitVec 8) (chain : List (BitVec 8))
  /-- SPDM_UNSUPPORTED (R409). -/
  | spdmUnsupported
  /-- BIND_DOMAIN (R414). -/
  | bindDomain (ses : BitVec 32) (d rsv : BitVec 8) (key sig : List (BitVec 8))
  /-- DOMAIN_REPORT (R431). -/
  | domainReport (ses : BitVec 32) (nonce : List (BitVec 8))
  /-- KEY_RELEASE (R422). -/
  | keyRelease (ses : BitVec 32) (slot kind : BitVec 8) (rsv : BitVec 16) (digest wrapped : List (BitVec 8))
  /-- KEY_ERASE (R423). -/
  | keyErase (ses : BitVec 32) (slot kind : BitVec 8) (rsv : BitVec 16)
  /-- JOINT_FINISH (R425). -/
  | jointFinish (ses : BitVec 32) (digest : List (BitVec 8))
  /-- MODEL_KEY_FETCH (R427). -/
  | modelKeyFetch (ses : BitVec 32)
  /-- REMASK (R383). -/
  | remask
  /-- MASKFAIL (R383). -/
  | maskfail
  /-- RNGFAIL (R374). -/
  | rngfail
  /-- VGLITCH (R399). -/
  | vglitch
  /-- CLOCK (R399). -/
  | clockAlarm
  /-- TEMP (R399). -/
  | tempAlarm
  /-- FAULTDET (R399). -/
  | faultdet
  /-- MESH (R399). -/
  | meshAlarm
  /-- LIGHT (R399). -/
  | lightAlarm
  /-- ENCL (R399). -/
  | enclAlarm
  /-- INTEG_D2D (R399). -/
  | integD2d
  /-- SEC_LC_REQ (R392). -/
  | secLcReq (compl : BitVec 32) (blob : List (BitVec 8)) (bad weak : List (BitVec 16))
  /-- DOMKEYS (R405). -/
  | domkeys (compl : BitVec 32)
  /-- NVSUSER (R457). -/
  | nvsuser (compl : BitVec 32)
  /-- OWNSEEDS (R405). -/
  | ownseeds (compl : BitVec 32)
  /-- TAMPERCLR (R403). -/
  | tamperclr (compl : BitVec 32)
  /-- SNUFF (R405). -/
  | snuffNow (compl : BitVec 32)
  /-- SVN_RAISE (R396). -/
  | svnRaise (compl : BitVec 32) (bad weak : List (BitVec 16))
  /-- PROGRAM_WORD (R405). -/
  | programWord (compl : BitVec 32) (bad weak : List (BitVec 16))
  /-- SEC_SNUF_ARM (R404). -/
  | secSnufArm (compl : BitVec 32)
  /-- PWR_VOVR (R567). -/
  | pwrVovr (compl : BitVec 32)
  /-- GUARD_WINDOW_EXPIRE (R583). -/
  | guardWindowExpire
  /-- REGISTER_WRITE (R577). -/
  | registerWrite (a : AccIn)
  /-- IND_DATA_READ (R586). -/
  | indDataRead
  /-- IND_DATA_WRITE (R586). -/
  | indDataWrite (val : BitVec 32)
  /-- SNAP (R590). -/
  | snapBlock (blk : BitVec 4)
  /-- SNAP_ALL (R590). -/
  | snapAll
  /-- MEM_DOM_BW_WRITE (R246). -/
  | memDomBwWrite (d : BitVec 8) (val : BitVec 32)
  /-- MEM_DOM_CC_WRITE (R248). -/
  | memDomCcWrite (d : BitVec 8) (val : BitVec 32)
  /-- FAB_WSEL_WRITE (R282). -/
  | fabWselWrite (val : BitVec 32)
  /-- FAB_WSET_WRITE (R282). -/
  | fabWsetWrite (set : BitVec 2) (val : BitVec 32)
  /-- FAB_EHT_SEG_WRITE (R286). -/
  | fabEhtSegWrite (d : BitVec 8) (val : BitVec 32)
  /-- FAB_ROUTE_WRITE (R295). -/
  | fabRouteWrite (off : BitVec 16) (val : BitVec 32)
  /-- BCN_CTRL_WRITE (R475). -/
  | bcnCtrlWrite (val : BitVec 32)
  /-- TS_QUANTUM_WRITE (R492). -/
  | tsQuantumWrite (val : BitVec 32)
  /-- ARB_DOM_WRITE (R498). -/
  | arbDomWrite (d : BitVec 8) (val : BitVec 32)
  /-- TRIG_ARM (R484). -/
  | trigArm (n : BitVec 8) (val : BitVec 32)
  /-- PWR_CAP_WRITE (R553). -/
  | pwrCapWrite (val : BitVec 32)
  /-- PWR_CAL_CTRL_WRITE (R564). -/
  | pwrCalCtrlWrite (val : BitVec 32)
  /-- REPLAN (R559). -/
  | replan (val : BitVec 32) (ms : List (List (BitVec 8)))
  /-- GUTTER_FORCE (R511). -/
  | gutterForce (val : BitVec 32)
  /-- SOOT_ENABLE (R458). -/
  | sootEnable (val : BitVec 32)
  /-- SOOT_INTERRUPT (R458). -/
  | sootInterrupt
  /-- USB_DISABLE (R461). -/
  | usbDisable
  /-- WSET (R483). -/
  | wsetTrigger (n : BitVec 8)
  /-- SNAP_TRIGGER (R483). -/
  | snapTrigger (n : BitVec 8)
  /-- QUIET (R39). -/
  | quietOpen (q : QuietIn)
  /-- QUIET_WINDOW_CLOSE (R39). -/
  | quietWindowClose (unit : BitVec 8) (ch : BitVec 8) (delayed : BitVec 32)
  /-- TRIGGER_CUT (R483). -/
  | triggerCut (n : BitVec 8)
  /-- TRIGGER_FENCE (R483). -/
  | triggerFence (n : BitVec 8)
  /-- SYNC_REQ (R477). -/
  | syncReq (n : BitVec 6) (p : Pkt)
  /-- SYNC_RSP (R477). -/
  | syncRsp (n : BitVec 6) (p : Pkt)
  /-- ANNOUNCE (R478). -/
  | announce (n : BitVec 6) (p : Pkt)
  /-- BEACON_EXCHANGE (R477). -/
  | beaconExchange
  /-- UPSTREAM_SWITCH (R478). -/
  | upstreamSwitch
  /-- SYNC_IN_EDGE (R476). -/
  | syncInEdge
  /-- BEACON_COPY_CORRECTION (R473). -/
  | beaconCopyCorrection
  /-- GUTTER_SCORE (R510). -/
  | gutterScore
  /-- MARGIN_SAMPLE (R560). -/
  | marginSample (ms : List (List (BitVec 8)))
  /-- AGEING_PLAN (R559). -/
  | ageingPlan (ms : List (List (BitVec 8)))
  /-- POWER_REGULATE (R555). -/
  | powerRegulate (watts : BitVec 16) (steps : BitVec 8)
  /-- BRAKE (R554). -/
  | powerBrake
  /-- PWRBRK_N (R554). -/
  | pwrbrkN (low : Bool)
  /-- THROTTLE (R556). -/
  | throttle (group : BitVec 5) (on : Bool) (arg : BitVec 8)
  /-- THERMAL_TRIP (R557). -/
  | thermalTrip
  /-- LINK_MARGIN_LOW (R563). -/
  | linkMarginLow (n : BitVec 6) (eye : BitVec 8)
  /-- HBM_DRIFT (R564). -/
  | hbmDrift (c : BitVec 4) (ch : BitVec 5) (drift : BitVec 8)
  /-- LPDDR_PERIODIC_CAL (R564). -/
  | lpddrPeriodicCal (c : BitVec 4) (ch : BitVec 2)
  /-- TRAINING_RECORD_REFRESH (R565). -/
  | trainingRecordRefresh
  /-- STANDBY_GOOD (R600). -/
  | standbyGood (straps : BitVec 4)
  /-- STANDBY_LOSS (R551). -/
  | standbyLoss
  /-- MAIN_POWER_GOOD (R537). -/
  | mainPowerGood (io : StartIn)
  /-- MAIN_POWER_LOSS (R551). -/
  | mainPowerLoss
  /-- OVERVOLTAGE (R551). -/
  | overvoltage
  /-- PERST_N_ASSERT (R608). -/
  | perstNAssert
  /-- PERST_N_DEASSERT (R608). -/
  | perstNDeassert (io : StartIn)
  /-- GLOBAL_START_REQ (R566). -/
  | globalStartReq (val : BitVec 32) (io : StartIn)
  /-- START_RETRY (R543). -/
  | startRetry (io : StartIn)
  /-- BUNDLE_LOAD (R438). -/
  | bundleLoad (data : Option (List (BitVec 8)))
  /-- CORE_READY (R438). -/
  | coreReady (core : BitVec 16)
  /-- CORE_READY_TIMEOUT (R438). -/
  | coreReadyTimeout
  /-- WATCHDOG_EXPIRE (R434). -/
  | watchdogExpire (core : BitVec 16)
  /-- FATAL_ERROR (R508). -/
  | fatalError
  /-- STAGE (R465). -/
  | usbStage (blk : Option (List (BitVec 8)))
  /-- USB_RESULT (R462). -/
  | usbResult (seq : BitVec 32) (len : BitVec 16)
  /-- OPEN (R462). -/
  | usbOpen
  /-- QUERY (R462). -/
  | usbQuery
  /-- CLOSE (R462). -/
  | usbClose (ses : BitVec 32)
  /-- USB_SESSION_TIMEOUT (R463). -/
  | usbSessionTimeout
  /-- USB_BUS_RESET (R465). -/
  | usbBusReset
  /-- USB_BULK_TIMEOUT (R465). -/
  | usbBulkTimeout
  /-- USB_VBUS_CHANGE (R607). -/
  | usbVbusChange (present : Bool)
  /-- USB_INFO (R466). -/
  | usbInfo
  /-- USB_LOG_READ (R466). -/
  | usbLogRead
  /-- USB_BCR_READ (R466). -/
  | usbBcrRead
  /-- USB_BCR_WRITE (R466). -/
  | usbBcrWrite
  /-- USB_BUNDLE_LOAD (R466). -/
  | usbBundleLoad (data : List (BitVec 8))
  /-- MONITOR_UPDATE (R452). -/
  | monitorUpdate (data : List (BitVec 8)) (st : BitVec 8)
  /-- USB_START (R466). -/
  | usbStart (io : StartIn)
  /-- IDCODE (R467). -/
  | jtagIdcode
  /-- BYPASS (R467). -/
  | jtagBypass
  /-- SAMPLE_PRELOAD (R467). -/
  | jtagSamplePreload
  /-- EXTEST (R467). -/
  | jtagExtest
  /-- DTMCS (R467). -/
  | jtagDtmcs
  /-- DMI (R467). -/
  | jtagDmi
  /-- TESTMODE (R467). -/
  | jtagTestmode
  /-- BLOCK_READ (R470). -/
  | blockRead (code : BitVec 8)
  /-- ALERT_MASK (R471). -/
  | alertMask (val : BitVec 8)
  /-- ALERT_STATUS (R471). -/
  | alertStatus (val : BitVec 8)
  /-- ALERT_RESPONSE (R471). -/
  | alertResponse
  /-- I3C_ADDRESS_ASSIGN (R469). -/
  | i3cAddressAssign (addr : BitVec 7)
  /-- TELEMETRY_REFRESH (R470). -/
  | telemetryRefresh
  /-- REGISTER_READ (R575). -/
  | registerRead (fn : BitVec 9) (off : BitVec 25) (len : BitVec 16) (gap tee : Bool)
  /-- CONTROL_REQUEST (R465). -/
  | controlRequest (setup : BitVec 64)
  /-- REF_100M_CHANGE (R481). -/
  | ref100mChange (present : Bool)
  /-- SYNC_IN_LOSS (R481). -/
  | syncInLoss
  /-- BRAKE_RELEASE (R554). -/
  | brakeRelease
  deriving DecidableEq, Repr

end Sys2Proof
end

