-- ==== Sys2Proof/Config.lean ====
section
/-! DEFINITION. What the spec leaves open: opaque functions, of which nothing can be proved but that they have a value.
Each names the log entry that says where the spec is silent. -/

namespace Sys2Proof.Config

/-- The hash that picks the candidate intermediate group of a BULK packet from (SRC, DST, XTAG) (R277, log 30). -/
opaque bulkHash : Nat → Nat → Nat → Nat

/-- The set of a counter cache that a line falls in, by controller and line; how many sets there are is not said (R248, log 60). -/
opaque ccSet : Nat → Nat → Nat

/-- A 64-bit value the device draws or generates, by the number of values drawn before it (log 31): nonces, random
bytes, identifiers. -/
opaque freeValue : Nat → BitVec 64

/-- A measured quantity read when the hardware samples it (temperature, voltage, power, margin, link speed), by the number
of values drawn before it (log 32). -/
opaque measured : Nat → BitVec 32

/-- Published ciphers of which the manual gives only the name, as functions of their inputs (log 33): XTS-AES-256 of one
4,096-byte data unit, its inverse, the AES-256-GCM tag, the AES-256-GCM ciphertext and its inverse. -/
opaque xtsEnc : List (BitVec 8) → Nat → List (BitVec 8) → List (BitVec 8)
opaque xtsDec : List (BitVec 8) → Nat → List (BitVec 8) → List (BitVec 8)
opaque gcmTag : List (BitVec 8) → List (BitVec 8) → List (BitVec 8) → List (BitVec 8)
opaque gcmEnc : List (BitVec 8) → List (BitVec 8) → List (BitVec 8) → List (BitVec 8)
opaque gcmDec : List (BitVec 8) → List (BitVec 8) → List (BitVec 8) → List (BitVec 8)

/-- AES-256 of one block, AES-256-CMAC, and XTS-AES-256 of one 64-byte data unit under a 128-bit tweak, as functions of key and input
(log 33). -/
opaque aesBlock : List (BitVec 8) → List (BitVec 8) → List (BitVec 8)
opaque aesCmac : List (BitVec 8) → List (BitVec 8) → List (BitVec 8)
opaque xtsChunk : List (BitVec 8) → Nat → List (BitVec 8) → List (BitVec 8)

/-- What a data chunk held before its line was ever written, and where the tables of the table region lie: the manual says neither
(R224, R227; log 62). -/
opaque oldCipher : Nat → List (BitVec 8)
opaque tableAddr : Nat → Nat → Nat → Nat → Nat

/-- Published signature checks as functions of public key, message and signature (log 33): ECDSA P-384 with SHA-384, and pure
ML-DSA-87 with an empty context. -/
opaque ecdsaOk : List (BitVec 8) → List (BitVec 8) → List (BitVec 8) → Bool
opaque mldsaOk : List (BitVec 8) → List (BitVec 8) → List (BitVec 8) → Bool

/-- The AES key wrap of RFC 3394 and its inverse, as functions of the wrapping key (log 33); `none` when the integrity check fails. -/
opaque keyWrap : List (BitVec 8) → List (BitVec 8) → List (BitVec 8)
opaque keyUnwrap : List (BitVec 8) → List (BitVec 8) → Option (List (BitVec 8))

/-- Constants of the mask ROM (log 35): the digest of the authorisation keys by target state, the digest of the boot ROM (index 0x100),
of the bundle signing keys (0x200 + KEYCLASS). -/
opaque romDigest : Nat → List (BitVec 8)

/-- The 48 bytes of the TEST root in ROM (R380, log 35). -/
opaque testRoot : List (BitVec 8)

/-- X.509 and key generation, of which the manual gives the standard's name (log 33): the leaf public key of a chain that verifies;
by SPDM slot (0 ECDSA P-384, 1 ML-DSA-87) and the secret of the identity key pair (R406), the public key, and the self-signed chain
with a state's name. -/
opaque certLeaf : List (BitVec 8) → Option (List (BitVec 8))
opaque idKey : Nat → List (BitVec 8) → List (BitVec 8)
opaque selfCert : Nat → List (BitVec 8) → List (BitVec 8) → List (BitVec 8)

/-- The device's signature of a message under its identity key, by SPDM slot and the key pair's secret (log 33). -/
opaque idSign : Nat → List (BitVec 8) → List (BitVec 8) → List (BitVec 8)

/-- The trim values of the OTP, whose coding the manual does not give (log 36): the voltage in mV of a Lantern at a frequency in MHz,
and its greatest frequency. -/
opaque trimMv : Nat → Nat → Nat
opaque trimMax : Nat → Nat

/-- What a read of the NVS finds, by the number of values drawn before it (R448, log 39): the sectors, by bank and sector, in which a
stored bit has gone wrong by then; and whether a raw word read holds one. -/
opaque nvsNoise : Nat → List (BitVec 4 × BitVec 7)
opaque nvsWordBad : Nat → Bool

/-- Assigned numbers of which the manual gives the owner only (log 37): 0 the USB vendor ID, 1 the JEP106 code. -/
opaque assigned : Nat → BitVec 32

end Sys2Proof.Config
end

