-- ==== Sys2Proof/Machine/Map.lean ====
section
/-! DEFINITION. The one shape in which State holds anything indexed: a list of (key, value) pairs with strictly
rising keys in which no listed value equals the value an unlisted key reads as. Byte strings and the numbers they spell. -/

namespace Sys2Proof.Machine

/-- A finite map from Nat keys, held as plain data. -/
abbrev FMap (V : Type) := List (Nat × V)

/-- The value listed under a key, if any. -/
def FMap.find? {V : Type} : FMap V → Nat → Option V
  | [], _ => none
  | p :: m, k => if p.1 = k then some p.2 else FMap.find? m k

/-- The value of a key; `d` is what an unlisted key reads as. -/
def FMap.get {V : Type} (d : V) (m : FMap V) (k : Nat) : V := (FMap.find? m k).getD d

/-- List `v` under `k`, keeping the keys rising. -/
def FMap.insert {V : Type} : FMap V → Nat → V → FMap V
  | [], k, v => [(k, v)]
  | p :: m, k, v =>
    if k < p.1 then (k, v) :: p :: m
    else if p.1 = k then (k, v) :: m
    else p :: FMap.insert m k v

/-- Unlist a key. -/
def FMap.erase {V : Type} : FMap V → Nat → FMap V
  | [], _ => []
  | p :: m, k => if p.1 = k then m else p :: FMap.erase m k

/-- Give `k` the value `v`; the value an unlisted key reads as is never listed. -/
def FMap.set {V : Type} [DecidableEq V] (d : V) (m : FMap V) (k : Nat) (v : V) : FMap V :=
  if v = d then FMap.erase m k else FMap.insert m k v

/-- Change the value of one key. -/
def FMap.modify {V : Type} [DecidableEq V] (d : V) (m : FMap V) (k : Nat) (f : V → V) : FMap V :=
  FMap.set d m k (f (FMap.get d m k))

/-- The canonical form: keys strictly rising, no listed value equal to the default. -/
def FMap.wf {V : Type} [DecidableEq V] (d : V) (m : FMap V) : Bool :=
  decide (m.Pairwise (fun a b => a.1 < b.1)) && m.all (fun p => decide (p.2 ≠ d))

/-- Keep only the keys (and values) that satisfy a test. -/
def FMap.keep {V : Type} (m : FMap V) (f : Nat → V → Bool) : FMap V := m.filter (fun p => f p.1 p.2)

/-! ### Bytes -/

/-- The `n` low bytes of a number, least significant first (R14). -/
def leBytes : Nat → Nat → List Byte
  | 0, _ => []
  | n + 1, v => BitVec.ofNat 8 v :: leBytes n (v / 256)

/-- The number that bytes spell, least significant first. -/
def leNat : List Byte → Nat
  | [] => 0
  | b :: l => b.toNat + 256 * leNat l

/-- A little-endian field of a byte list. -/
def fieldAt (bs : List Byte) (o n : Nat) : Nat := leNat ((bs.drop o).take n)

/-- ASCII bytes. -/
def ascii (t : String) : List Byte := t.toList.map fun c => BitVec.ofNat 8 c.toNat

end Sys2Proof.Machine
end

