-- ==== Sys2Proof/Machine/Float.lean ====
section
/-! DEFINITION. The element formats and their arithmetic (spec/02_numerics.md): exact values as sign, magnitude and
binary exponent; rounding to nearest even, toward zero and stochastic; conversions; the counter-based generator. -/

namespace Sys2Proof.Machine

/-- An exact value: not a number, an infinity, or (-1)^neg · m · 2^e. -/
inductive FVal where
  | nan
  | inf (neg : Bool)
  | fin (neg : Bool) (m : Nat) (e : Int)
  deriving DecidableEq, Repr

/-- What the largest exponent of a format holds (R41). -/
inductive FKind where
  /-- Infinities and NaNs as in IEEE 754 (FP32, BF16, FP16, E5M2). -/
  | ieee
  /-- Only the all-ones magnitude is NaN (E4M3). -/
  | nanOnly
  /-- Every code is finite (FP6, FP4). -/
  | finite
  deriving DecidableEq, Repr

/-- A binary format: exponent bits, mantissa bits, bias, kind (R41). -/
structure FFmt where
  eb : Nat
  mb : Nat
  bias : Nat
  kind : FKind
  deriving DecidableEq, Repr

def FFmt.fp32 : FFmt := ⟨8, 23, 127, .ieee⟩
def FFmt.bf16 : FFmt := ⟨8, 7, 127, .ieee⟩
def FFmt.fp16 : FFmt := ⟨5, 10, 15, .ieee⟩
def FFmt.e4m3 : FFmt := ⟨4, 3, 7, .nanOnly⟩
def FFmt.e5m2 : FFmt := ⟨5, 2, 15, .ieee⟩
def FFmt.e3m2 : FFmt := ⟨3, 2, 3, .finite⟩
def FFmt.e2m3 : FFmt := ⟨2, 3, 1, .finite⟩
def FFmt.e2m1 : FFmt := ⟨2, 1, 1, .finite⟩

/-- Bits of an element. -/
def FFmt.width (f : FFmt) : Nat := 1 + f.eb + f.mb

/-- The magnitude code of the largest finite value (R41). -/
def FFmt.maxCode (f : FFmt) : Nat :=
  match f.kind with
  | .ieee => (2 ^ f.eb - 1) * 2 ^ f.mb - 1
  | .nanOnly => 2 ^ (f.eb + f.mb) - 2
  | .finite => 2 ^ (f.eb + f.mb) - 1

/-- The canonical NaN of a format that has one (R71); for a format without NaN the code 0. -/
def FFmt.nanCode (f : FFmt) : Nat :=
  match f.kind with
  | .ieee => (2 ^ f.eb - 1) * 2 ^ f.mb + 2 ^ (f.mb - 1)
  | .nanOnly => 2 ^ (f.eb + f.mb) - 1
  | .finite => 0

/-- The exponent of the least subnormal. -/
def FFmt.qmin (f : FFmt) : Int := 1 - (f.bias : Int) - (f.mb : Int)

/-- The value of a code (R41, R47: subnormals at their exact value). -/
def FFmt.decode (f : FFmt) (code : Nat) : FVal :=
  let neg := (code / 2 ^ (f.eb + f.mb)) % 2 == 1
  let mag := code % 2 ^ (f.eb + f.mb)
  let ex := mag / 2 ^ f.mb
  let man := mag % 2 ^ f.mb
  if f.kind = .ieee ∧ ex = 2 ^ f.eb - 1 then (if man = 0 then .inf neg else .nan)
  else if f.kind = .nanOnly ∧ mag = 2 ^ (f.eb + f.mb) - 1 then .nan
  else if ex = 0 then .fin neg man f.qmin
  else .fin neg (2 ^ f.mb + man) (f.qmin + (ex : Int) - 1)

/-- A rounding: to nearest even, toward zero, or stochastic with a 16-bit draw (R49, R51). -/
inductive Rnd where
  | rne
  | rtz
  | sr (draw : Nat)
  deriving DecidableEq, Repr

/-- Round m · 2^sh (sh may be negative) to an integer. -/
def roundInt (r : Rnd) (m : Nat) (sh : Int) : Nat :=
  if 0 ≤ sh then m * 2 ^ sh.toNat
  else
    let k := (-sh).toNat
    let q := m / 2 ^ k
    let rem := m % 2 ^ k
    if rem = 0 then q
    else match r with
      | .rtz => q
      | .rne =>
        let half := 2 ^ (k - 1)
        if rem < half then q else if half < rem then q + 1 else q + q % 2
      | .sr draw =>
        -- D: the first 16 bits of the fraction (R51)
        let d := rem * 2 ^ 16 / 2 ^ k
        if 2 ^ 16 ≤ d + draw then q + 1 else q

/-- The magnitude code, unbounded above, of m · 2^e rounded to the format's precision (R50, R51). -/
def FFmt.roundMag (f : FFmt) (r : Rnd) (m : Nat) (e : Int) : Nat :=
  if m = 0 then 0
  else
    let lg : Int := (Nat.log2 m : Int) + e
    let q : Int := max f.qmin (lg - (f.mb : Int))
    (q - f.qmin).toNat * 2 ^ f.mb + roundInt r m (e - q)

/-- Attach a sign to a magnitude code. -/
def FFmt.withSign (f : FFmt) (neg : Bool) (mag : Nat) : Nat :=
  (if neg then 2 ^ (f.eb + f.mb) else 0) + mag

/-- Encode an exact value (R50 to R52): a format with infinities (BF16, FP16, FP32) overflows to infinity under RNE and
SR and to the largest finite value under RTZ; the saturating formats (E4M3, E5M2, FP6, FP4) never become infinite from
a finite value. `sat` says that the target saturates. -/
def FFmt.encode (f : FFmt) (sat : Bool) (r : Rnd) : FVal → Nat
  | .nan => f.nanCode
  | .inf neg =>
    match f.kind with
    | .ieee => f.withSign neg (f.maxCode + 1)
    | .nanOnly => f.nanCode
    | .finite => f.withSign neg f.maxCode
  | .fin neg m e =>
    let c := f.roundMag r m e
    if c ≤ f.maxCode then f.withSign neg c
    else if sat then f.withSign neg f.maxCode
    else match r with
      | .rtz => f.withSign neg f.maxCode
      | _ => f.withSign neg (f.maxCode + 1)

/-! ### Exact arithmetic -/

/-- (-1)^neg · m · 2^e as an integer multiple of 2^q, for q ≤ e. -/
def scaled (neg : Bool) (m : Nat) (e q : Int) : Int :=
  let v : Int := (m * 2 ^ (e - q).toNat : Nat)
  if neg then -v else v

/-- Exact addition; an exact zero of opposite-signed operands is +0 (R48). -/
def FVal.add : FVal → FVal → FVal
  | .nan, _ => .nan
  | _, .nan => .nan
  | .inf a, .inf b => if a = b then .inf a else .nan
  | .inf a, .fin .. => .inf a
  | .fin .., .inf b => .inf b
  | .fin na ma ea, .fin nb mb eb =>
    let q := min ea eb
    let v := scaled na ma ea q + scaled nb mb eb q
    if v = 0 then .fin (na && nb) 0 q else .fin (decide (v < 0)) v.natAbs q

/-- Exact multiplication. -/
def FVal.mul : FVal → FVal → FVal
  | .nan, _ => .nan
  | _, .nan => .nan
  | .inf a, .inf b => .inf (xor a b)
  | .inf a, .fin b m _ => if m = 0 then .nan else .inf (xor a b)
  | .fin a m _, .inf b => if m = 0 then .nan else .inf (xor a b)
  | .fin a m e, .fin b m' e' => .fin (xor a b) (m * m') (e + e')

/-- The opposite sign (a NaN stays a NaN). -/
def FVal.neg : FVal → FVal
  | .nan => .nan
  | .inf a => .inf (!a)
  | .fin a m e => .fin (!a) m e

/-- The quotient with 66 fraction bits beyond the operands' precision and a sticky bit below them, which rounds to any
format of at most 64 bits of precision as the exact quotient does. -/
def FVal.div : FVal → FVal → FVal
  | .nan, _ => .nan
  | _, .nan => .nan
  | .inf _, .inf _ => .nan
  | .inf a, .fin b _ _ => .inf (xor a b)
  | .fin a _ _, .inf b => .fin (xor a b) 0 0
  | .fin a m e, .fin b m' e' =>
    if m' = 0 then (if m = 0 then .nan else .inf (xor a b))
    else if m = 0 then .fin (xor a b) 0 0
    else
      let k := 66 + Nat.log2 m'
      let n := m * 2 ^ k
      let q := n / m'
      let s := if n % m' = 0 then 0 else 1
      .fin (xor a b) (2 * q + s) (e - e' - (k : Int) - 1)

/-- The integer square root, built bit by bit from bit `k - 1` down. -/
def isqrtBits (n : Nat) : Nat → Nat → Nat
  | 0, r => r
  | k + 1, r => isqrtBits n k (if (r + 2 ^ k) * (r + 2 ^ k) ≤ n then r + 2 ^ k else r)

/-- The square root with at least 64 bits and a sticky bit. -/
def FVal.sqrt : FVal → FVal
  | .nan => .nan
  | .inf neg => if neg then .nan else .inf false
  | .fin neg m e =>
    if m = 0 then .fin neg 0 e
    else if neg then .nan
    else
      let sh : Nat := 128 + (if e % 2 = 0 then 0 else 1)
      let n := m * 2 ^ sh
      let r := isqrtBits n (Nat.log2 n / 2 + 1) 0
      let s := if r * r = n then 0 else 1
      .fin false (2 * r + s) ((e - (sh : Int)) / 2 - 1)

/-- Less than, on values that are not NaN. -/
def FVal.lt : FVal → FVal → Bool
  | .nan, _ => false
  | _, .nan => false
  | .inf a, .inf b => a && !b
  | .inf a, .fin .. => a
  | .fin .., .inf b => !b
  | .fin na ma ea, .fin nb mb eb =>
    let q := min ea eb
    decide (scaled na ma ea q < scaled nb mb eb q)

/-- Equality as a comparison has it (R67): +0 equals −0, NaN equals nothing. -/
def FVal.feq : FVal → FVal → Bool
  | .nan, _ => false
  | _, .nan => false
  | a, b => !(a.lt b) && !(b.lt a)

def FVal.isNaN : FVal → Bool
  | .nan => true
  | _ => false

def FVal.isZero : FVal → Bool
  | .fin _ m _ => m == 0
  | _ => false

/-! ### FP32 -/

def f32 (x : Word) : FVal := FFmt.fp32.decode x.toNat
def toF32 (r : Rnd) (v : FVal) : Word := BitVec.ofNat 32 (FFmt.fp32.encode false r v)

/-- The canonical FP32 NaN (R71). -/
def qnan32 : Word := 0x7FC00000#32
def one32 : Word := 0x3F800000#32
def pinf32 : Word := 0x7F800000#32
def ninf32 : Word := 0xFF800000#32
def nzero32 : Word := 0x80000000#32

/-- Correctly rounded binary32 arithmetic (R66). -/
def fadd (r : Rnd) (a b : Word) : Word := toF32 r ((f32 a).add (f32 b))
def fsub (r : Rnd) (a b : Word) : Word := toF32 r ((f32 a).add (f32 b).neg)
def fmul (r : Rnd) (a b : Word) : Word := toF32 r ((f32 a).mul (f32 b))
def ffma (r : Rnd) (a b c : Word) : Word := toF32 r (((f32 a).mul (f32 b)).add (f32 c))
def fdiv (r : Rnd) (a b : Word) : Word := toF32 r ((f32 a).div (f32 b))
def fsqrt (r : Rnd) (a : Word) : Word := toF32 r (f32 a).sqrt

/-- Is the word a NaN? -/
def isNaN32 (a : Word) : Bool := (f32 a).isNaN
/-- Is the word NaN or infinite (R74)? -/
def nonFinite32 (a : Word) : Bool := (a >>> 23) &&& 0xFF#32 == 0xFF#32

/-- The device-wide maximum (R67): NaN if either is NaN, +0 over −0. -/
def fmax (a b : Word) : Word :=
  if isNaN32 a || isNaN32 b then qnan32
  else if (f32 a).lt (f32 b) then b
  else if (f32 b).lt (f32 a) then a
  else a &&& b

/-- The device-wide minimum (R67): NaN if either is NaN, −0 under +0. -/
def fmin (a b : Word) : Word :=
  if isNaN32 a || isNaN32 b then qnan32
  else if (f32 a).lt (f32 b) then a
  else if (f32 b).lt (f32 a) then b
  else a ||| b

/-- The sign operation (R67). -/
def fsign (a : Word) : Word :=
  if isNaN32 a then qnan32
  else if (f32 a).isZero then a
  else if a.msb then 0xBF800000#32 else one32

def fneg (a : Word) : Word := if isNaN32 a then qnan32 else a ^^^ nzero32
def fabs (a : Word) : Word := if isNaN32 a then qnan32 else a &&& 0x7FFFFFFF#32

def fcmpEq (a b : Word) : Bool := (f32 a).feq (f32 b)
def fcmpNe (a b : Word) : Bool := !(fcmpEq a b)
def fcmpLt (a b : Word) : Bool := (f32 a).lt (f32 b)
def fcmpLe (a b : Word) : Bool := (f32 a).lt (f32 b) || (f32 a).feq (f32 b)

/-- Fold adjacent pairs once. -/
def pairUp (f : Word → Word → Word) : List Word → List Word
  | a :: b :: t => f a b :: pairUp f t
  | l => l

/-- The adjacent-pair tree (R61, R64), `k` levels. -/
def pairTree (f : Word → Word → Word) : Nat → List Word → Word
  | 0, l => l.headD 0
  | k + 1, l => pairTree f k (pairUp f l)

/-! ### Format codes (R45) -/

inductive Fmt where
  | fp32 | bf16 | fp16 | e4m3 | e5m2 | mx6e3m2 | mx6e2m3 | mx4 | int8 | e8m0
  deriving DecidableEq, Repr

def Fmt.ofCode : Nat → Option Fmt
  | 0 => some .fp32 | 1 => some .bf16 | 2 => some .fp16 | 3 => some .e4m3 | 4 => some .e5m2
  | 5 => some .mx6e3m2 | 6 => some .mx6e2m3 | 7 => some .mx4 | 8 => some .int8 | 9 => some .e8m0
  | _ => none

/-- The element layout of a format code (INT8 and E8M0 have none of this shape: FP32 stands in and is never used). -/
def Fmt.elem : Fmt → FFmt
  | .fp32 => .fp32 | .bf16 => .bf16 | .fp16 => .fp16 | .e4m3 => .e4m3 | .e5m2 => .e5m2
  | .mx6e3m2 => .e3m2 | .mx6e2m3 => .e2m3 | .mx4 => .e2m1 | .int8 => .fp32 | .e8m0 => .fp32

def Fmt.isMX : Fmt → Bool
  | .mx6e3m2 | .mx6e2m3 | .mx4 => true
  | _ => false

/-- Bits of one element in memory. -/
def Fmt.bits : Fmt → Nat
  | .fp32 => 32 | .bf16 | .fp16 => 16 | .e4m3 | .e5m2 | .int8 | .e8m0 => 8
  | .mx6e3m2 | .mx6e2m3 => 6 | .mx4 => 4

/-- A target that saturates rather than overflow (R52). -/
def Fmt.saturates : Fmt → Bool
  | .fp32 | .bf16 | .fp16 => false
  | _ => true

/-- The exact integer of a two's complement byte. -/
def int8Val (c : Nat) : Int := if c % 256 < 128 then (c % 256 : Nat) else (c % 256 : Nat) - 256

/-- Widen an unscaled element to an exact value (R54). -/
def Fmt.value (f : Fmt) (c : Nat) : FVal :=
  match f with
  | .int8 => let v := int8Val c; .fin (decide (v < 0)) v.natAbs 0
  | .e8m0 => if c % 256 = 255 then .nan else .fin false 1 ((c % 256 : Nat) - 127)
  | _ => f.elem.decode c

/-- Widen to FP32 (R54; NaN becomes the canonical NaN; exact for every unscaled format). -/
def Fmt.widen (f : Fmt) (c : Nat) : Word :=
  match f with
  | .fp32 => BitVec.ofNat 32 c
  | _ => toF32 .rne (f.value c)

/-- An MX element with block scale code E (R43, R54): 2^(E − 127) · element rounded RNE; scale 0xFF gives NaN. -/
def mxWiden (f : Fmt) (scale c : Nat) : Word :=
  if scale = 255 then qnan32
  else match f.elem.decode c with
    | .fin neg m e => toF32 .rne (.fin neg m (e + (scale : Int) - 127))
    | v => toF32 .rne v

/-- Narrow an FP32 word to INT8 (R52). -/
def narrowInt8 (r : Rnd) (w : Word) : Nat :=
  match f32 w with
  | .nan => 0
  | .inf neg => if neg then 0x80 else 0x7F
  | .fin neg m e =>
    let n := roundInt r m e
    if neg then (if 128 ≤ n then 0x80 else (256 - n) % 256)
    else (if 127 ≤ n then 0x7F else n)

/-- Narrow an FP32 word to an unscaled format (R52). -/
def Fmt.narrow (f : Fmt) (r : Rnd) (w : Word) : Nat :=
  match f with
  | .int8 => narrowInt8 r w
  | .fp32 => w.toNat
  | _ => f.elem.encode f.saturates r (f32 w)

/-- emax of an MX element format (R53). -/
def Fmt.emax : Fmt → Int
  | .mx6e3m2 => 4
  | _ => 2

/-- ⌊log2 |v|⌋ of a nonzero finite value. -/
def FVal.ilog2 : FVal → Int
  | .fin _ m e => (Nat.log2 m : Int) + e
  | _ => 0

/-- The block scale of 32 FP32 values (R53 steps 1 and 2). -/
def mxScale (f : Fmt) (vs : List Word) : Nat :=
  if vs.any nonFinite32 then 255
  else
    let amax := vs.foldl (fun a v => fmax a (fabs v)) 0
    if amax = 0 then 0
    else (max 0 (min 254 ((f32 amax).ilog2 - f.emax + 127))).toNat

/-- One MX element under a block scale (R53 step 3). -/
def mxNarrow (f : Fmt) (r : Rnd) (scale : Nat) (w : Word) : Nat :=
  if scale = 255 then 0
  else match f32 w with
    | .fin neg m e => f.elem.encode true r (.fin neg m (e - (scale : Int) + 127))
    | _ => 0

/-! ### The counter-based generator (R55, R56) -/

/-- Philox-4x32, one round. -/
def philoxRound (c : Word × Word × Word × Word) (k : Word × Word) : Word × Word × Word × Word :=
  let p0 : BitVec 64 := 0xD2511F53#64 * c.1.zeroExtend 64
  let p1 : BitVec 64 := 0xCD9E8D57#64 * c.2.2.1.zeroExtend 64
  (p1.extractLsb' 32 32 ^^^ c.2.1 ^^^ k.1, p1.extractLsb' 0 32,
   p0.extractLsb' 32 32 ^^^ c.2.2.2 ^^^ k.2, p0.extractLsb' 0 32)

def philoxGo : Nat → Word × Word × Word × Word → Word × Word → Word × Word × Word × Word
  | 0, c, _ => c
  | n + 1, c, k => philoxGo n (philoxRound c k) (k.1 + 0x9E3779B9#32, k.2 + 0xBB67AE85#32)

/-- Philox-4x32 with 10 rounds (R55). -/
def philox (c : Word × Word × Word × Word) (k : Word × Word) : Word × Word × Word × Word := philoxGo 10 c k

/-- The 16-bit draw for seed S, step n, tensor t, stream s, element e (R56). -/
def draw (seed step : DWord) (t : BitVec 24) (s : BitVec 8) (e : DWord) : BitVec 16 :=
  let blk := e >>> 3
  let x := philox (blk.extractLsb' 0 32, (blk >>> 32).extractLsb' 0 32 &&& 0x1FFFFFFF#32,
    s ++ t, step.extractLsb' 0 32) (seed.extractLsb' 0 32, seed.extractLsb' 32 32)
  let lane := (e &&& 7#64).toNat
  let w := match lane / 2 with
    | 0 => x.1
    | 1 => x.2.1
    | 2 => x.2.2.1
    | _ => x.2.2.2
  if lane % 2 = 0 then w.extractLsb' 0 16 else w.extractLsb' 16 16

end Sys2Proof.Machine
end

