-- ==== Sys2Proof/Machine/StateCompute.lean ====
section
/-! DEFINITION. The state of the compute array (spec/03_wick_execution.md, 04, 05): Wicks, Lanterns, contexts, and the
records of operations in progress. Every field's default is its value at reset or at placement (R77). -/

namespace Sys2Proof.Machine

/-- Byte memory: listed addresses strictly rising, no listed byte zero; an unlisted byte reads as zero. -/
abbrev Memory := List Host.Cell

/-- A key slot of the device: the key as two shares, K XOR M and M (R383). -/
structure Masked where
  a : List Byte
  m : List Byte
  deriving DecidableEq, Repr

/-- The key that a cipher datapath forms from the two shares. -/
def Masked.key (k : Masked) : List Byte := List.zipWith (· ^^^ ·) k.a k.m

/-- A key written into a slot under mask `m`. -/
def Masked.of (key m : List Byte) : Masked := { a := List.zipWith (· ^^^ ·) key m, m := m }

/-- Bytes `8 i` on of the generator's values (R374): the `n` bytes that a draw takes when `i` values have been drawn. -/
def drawAt (i n : Nat) : List Byte :=
  ((List.range ((n + 7) / 8)).map fun j => leBytes 8 (Config.freeValue (i + j)).toNat).flatten.take n

/-- The fault codes of R81. -/
inductive FCode where
  | illegal | misalign | badspace | bounds | nomap | perm | poison | badfmt | badrm | badstream | badfence
  | ftimeout | deadlock | badrule | aborted | wickfail
  deriving DecidableEq, Repr

/-- The number of a fault code (R81). -/
def FCode.num : FCode → Nat
  | .illegal => 1 | .misalign => 2 | .badspace => 3 | .bounds => 4 | .nomap => 5 | .perm => 6 | .poison => 7
  | .badfmt => 8 | .badrm => 9 | .badstream => 10 | .badfence => 11 | .ftimeout => 12 | .deadlock => 13
  | .badrule => 14 | .aborted => 15 | .wickfail => 16

/-- The address spaces of R86. -/
inductive Space where
  | loc | lant | dom | fab | fence
  deriving DecidableEq, Repr

/-- A completion fence (R615): the logical Wick (llant · 8 + lwick) that named it, in whose LOCAL or LANTERN space the
word may lie, the address register's 64 bits, and the value. -/
structure FenceRef where
  wk : Nat
  adr : DWord
  val : DWord
  deriving DecidableEq, Repr

/-- A queued matrix operation (R148, R152): the instruction word, the PC of its bundle, and the address and scalar
registers taken at issue. -/
structure MatOp where
  word : DWord
  pc : DWord
  adr : List DWord
  sc : List DWord
  deriving DecidableEq, Repr

/-- An FSIG that waits for `after` earlier matrix operations to read their operands (R174), and the PC of its bundle. -/
structure PendSig where
  adr : DWord
  val : DWord
  after : Nat
  pc : DWord
  deriving DecidableEq, Repr

/-- A Lantern DMA descriptor (R135, R168). `sent`: a FABRIC transfer's packets are all in the fabric; `left`: packets not
yet acknowledged; `pos`: bytes moved, or handed to the fabric, when a swap paused the queue (R103). -/
structure DmaDesc where
  pc : DWord
  src : DWord
  dst : DWord
  len : DWord
  fence : Option FenceRef
  tc : Nat
  chip : DWord
  sent : Bool := false
  pos : Nat := 0
  left : Nat := 0
  failed : Option FCode := none
  deriving DecidableEq, Repr

/-- A token dispatch outstanding (R136, R172). -/
structure TokRec where
  pc : DWord
  src : DWord
  se : DWord
  key : BitVec 32
  len : DWord
  fence : Option FenceRef
  direct : Bool
  ring : Nat
  xtag : Nat := 0
  deriving DecidableEq, Repr

/-- A FWAIT in progress (R175, R98): the bundle held, the word, the value, the Beacon time it began, its timeout in
microseconds (already resolved against the domain's default). -/
structure WaitRec where
  b : Bundle
  adr : DWord
  val : DWord
  since : Nat
  timeoutUs : Nat
  flt : Bool
  sd : Nat
  deriving DecidableEq, Repr

/-- What a logical Wick is doing. -/
inductive WickRun where
  /-- Never placed: an unlisted Wick. -/
  | idle
  | running
  | waiting (r : WaitRec)
  /-- Arrived at STEP with destination register `sd` since Beacon time `since` (R178), under the default timeout then in force
  (R368: a new one applies only to STEPs that begin later). -/
  | atStep (sd : Nat) (since : Nat) (timeoutUs : Nat)
  /-- HALT issued, waiting for its transfers (R180). -/
  | halting
  | halted
  deriving DecidableEq, Repr

/-- One logical Wick (R75): scalar, address, vector, tile and predicate registers (unlisted registers read as zero), the
program counter; its LOCAL memory (R82); its operation queues (R148, R168, R172, R174). -/
structure Wick where
  s : FMap DWord := []
  a : FMap DWord := []
  v : FMap (List Word) := []
  t : FMap (List Word) := []
  p : FMap (BitVec 256) := []
  pc : DWord := 0
  run : WickRun := .idle
  lmem : Memory := []
  mq : List MatOp := []
  sigs : List PendSig := []
  dma : FMap (List DmaDesc) := []
  tokd : List TokRec := []
  deriving DecidableEq, Repr

/-- The state of a context tag that is live (R357). -/
inductive CtxStatus where
  | live | aborted
  deriving DecidableEq, Repr

/-- Where the program of a context stands (R351): no program; a program placed. -/
structure Prog where
  /-- Handle of the program (R350). -/
  handle : DWord
  prio : Nat
  /-- Physical Lantern of each logical Lantern, in logical order (R78). -/
  lants : List Nat
  /-- The context is resident on its Lanterns; otherwise its state is in its save slots (R102). -/
  resident : Bool
  /-- Beacon time at which it last began running, or was placed (R493). -/
  since : Nat
  /-- Consecutive edges at which it was passed over (R493). -/
  passed : Nat := 0
  /-- Its save images have been written (false: never placed). -/
  saved : Bool
  /-- By logical Lantern, the HBM frames of its place: six of save slot, then those of its switch areas (R102, R108). -/
  slots : List (List Nat)
  /-- It lost its Lanterns at an edge and leaves them when its SR16 updates have completed (R186, R494). -/
  leaving : Bool := false
  /-- It received Lanterns at an edge that such a context still holds (R494). -/
  due : Bool := false
  deriving DecidableEq, Repr

/-- A live context (R357): status, step number (R352), LANTERN memories by logical Lantern, Wicks by
llant · 8 + lwick, the program, the fault that ended it. -/
structure Ctx where
  status : CtxStatus := .live
  step : DWord := 0
  prog : Option Prog := none
  wicks : FMap Wick := []
  lmem : FMap Memory := []
  /-- Held at its step boundary for a checkpoint cut (R519). -/
  held : Bool := false
  /-- The step boundary's actions were performed; the Wicks retire when the context is resident (R178). -/
  retire : Bool := false
  /-- The code that ended the program (R351). -/
  ended : Option FCode := none
  deriving DecidableEq, Repr

/-- A physical Lantern (R106, R111). -/
structure Lantern where
  /-- Wicks fenced at shipping test. -/
  ship : BitVec 8 := 0
  /-- Wicks fenced now. -/
  fenced : BitVec 8 := 0
  /-- Fenced whole. -/
  whole : Bool := false
  /-- Fenced whole by a watchdog until the next start (R434). -/
  dog : Bool := false
  /-- Bit j: logical Wick j of a folded pair is the one whose turn it is not (R108). -/
  off : BitVec 8 := 0
  /-- Beacon time at which the turn now running on a host Wick began, by physical Wick (R108). -/
  turnAt : FMap Nat := []
  /-- The fold map in effect, physical Wick of each logical Wick (R106); changed only after a teardown (R110). -/
  map : List Nat := [0, 1, 2, 3, 4, 5, 6, 7]
  /-- Domain and context resident on it. -/
  owner : Option (Nat × Nat) := none
  /-- Frequency in effect, MHz (R111). -/
  mhz : Nat := 1900
  /-- Beacon times of uncorrectable events within 24 h, by physical Wick; 8 for the Lantern itself (R505). -/
  errs : FMap (List Nat) := []
  deriving DecidableEq, Repr

end Sys2Proof.Machine
end

