-- ==== Sys2Proof/Machine/StateMem.lean ====
section
/-! DEFINITION. The state of the memory tiers (spec/07_memory_tiers.md): the plaintext of every allocated line, poison,
frames, page counters, seal buffers, generations, the controllers' counters and the per-domain registers. -/

namespace Sys2Proof.Machine

/-- A leaf of a domain's page table (R228): the frame's DPA and the four permissions. -/
structure Pte where
  frame : Nat
  r : Bool
  w : Bool
  x : Bool
  k : Bool
  deriving DecidableEq, Repr

/-- The states of a frame (R222). FREE and DEVICE frames are unlisted: which it is follows from the address (R221). -/
inductive FrameSt where
  | free
  | domain (d : Nat)
  | retire (d : Nat)
  | fenced
  deriving DecidableEq, Repr

/-- What made an allocation record (R364). -/
inductive RecKind where
  | alloc | prog | map
  deriving DecidableEq, Repr

/-- An allocation record: a run of `pages` virtual pages from DOMAIN offset `base` (R364); for a program the entry
address (R350). -/
structure AllocRec where
  kind : RecKind
  base : Nat
  pages : Nat
  entry : Nat := 0
  deriving DecidableEq, Repr

/-- An open epoch page in a seal buffer (R232): its number on the controller, its owner, when it was opened and last
written (device clock, ns). -/
structure Seal where
  page : Nat
  dom : Nat
  opened : Nat
  last : Nat
  /-- Lines of the page that the batch has written. -/
  lines : BitVec 1024 := 0
  deriving DecidableEq, Repr

/-- Key generations of one domain on one controller (R237): G_d, the high-water marks of G_d and G_d − 1, and their key slots, each a
memory key set of 96 bytes (R380). -/
structure GenSt where
  g : Nat := 0
  h : Nat := 0
  hOld : Nat := 0
  key : Option Masked := none
  keyOld : Option Masked := none
  deriving DecidableEq, Repr

/-- A page that a controller is re-keying (R238): the next line to rewrite, the page's new C, and whether it is a page of a
generation sweep (R239). -/
structure Rekeying where
  page : Nat
  dom : Nat
  next : Nat
  cNew : Nat
  sweep : Bool
  deriving DecidableEq, Repr

/-- One memory controller (R235, R250): page counters C and generation parity by page, line epochs, seal buffer, generations by
domain, the re-key queue and its progress, the counter cache, and the counters of the MEMORY block. -/
structure MemCtl where
  c : FMap Nat := []
  parity : FMap Bool := []
  /-- The epoch E of each data line, by page · 1024 + line; unlisted: the ZERO marker (R231). A line listed in `MemSt.bad` holds
  the POISON marker instead. -/
  e : FMap Nat := []
  seals : List Seal := []
  gens : FMap GenSt := []
  rkq : List Nat := []
  rk : Option Rekeying := none
  /-- The counter cache (R236), most recently used first: its lines by number (`ctrLine`, `tagLine`) with the domain that owns them. -/
  cc : List (Nat × Nat) := []
  /-- The device memory key set (R221, R380). -/
  devKey : Option Masked := none
  corr : Nat := 0
  retry : Nat := 0
  poison : Nat := 0
  rekeys : Nat := 0
  qwd : Nat := 0
  tagb : Nat := 0
  fencedFrames : Nat := 0
  deriving DecidableEq, Repr

/-- The per-domain registers of the MEMORY block (R251). -/
structure MemDom where
  bw : Word := 0
  cc : Word := 0
  qh : Word := 0
  qr : Word := 0
  usedH : Nat := 0
  usedR : Nat := 0
  latOver : Nat := 0
  latMax : Nat := 0
  deriving DecidableEq, Repr

/-- The memory tiers. -/
structure MemSt where
  /-- Plaintext by DPA (R219); an unlisted byte is a zero-marked one (R224, R230). -/
  data : Memory := []
  /-- Poisoned lines, by DPA / 256 (R243). -/
  bad : FMap Bool := []
  /-- Frame states by frame DPA (R222). -/
  frames : FMap FrameSt := []
  /-- Corrected events by frame DPA: Beacon times within the last 24 h (R244). -/
  corrs : FMap (List Nat) := []
  ctls : FMap MemCtl := []
  doms : FMap MemDom := []
  /-- MEM_GSTAT: FLOOR_REFUSED and LAST_DOM (R250). -/
  refused : Bool := false
  lastDom : Nat := 0
  /-- The package, 0 to 7, that each I/O tile's next frame is first sought in (R366). -/
  lastPkg : FMap Nat := []
  /-- Pages whose re-key a Wick's or a DMA queue's write waits for under R240 (controller · 2^32 + page). -/
  waiting : List Nat := []
  /-- Writes of other agents that wait for a re-key (R238, R240), oldest first: domain, DPA and bytes. -/
  heldW : List (Nat × Nat × List Byte) := []
  /-- Lines whose stored bits have suffered (R241, R242), by DPA / 256: 1 what the code corrects, 2 what it does not. -/
  noise : FMap Nat := []
  /-- The controllers have trained (R539 step C8, R250). -/
  up : Bool := true
  deriving DecidableEq, Repr

end Sys2Proof.Machine
end

