-- ==== Sys2Proof/Machine/StateHost.lean ====
section
/-! DEFINITION. The state of the host interface (spec/10_host_objects.md): domains, queues, commands, fence words,
error logs, bindings, the collective engine's communicators (09) and the update engine's updates (06). -/

namespace Sys2Proof.Machine

/-- A started command (R341): its status and RESULT once decided, and the host's bytes of a COPY that runs. -/
structure RunCmd where
  cmd : Cmd
  data : List Byte := []
  st : Option Nat := none
  result : DWord := 0
  /-- Its completion fence is already raised by a teardown (R359 step 3). -/
  raised : Bool := false
  deriving DecidableEq, Repr

/-- A completion entry that waits for a Secure stream (R330, R342). -/
structure CplEntry where
  cmd : Cmd
  st : Nat
  result : DWord
  time : Nat
  deriving DecidableEq, Repr

/-- A submission queue with its completion queue (R338 to R343). -/
structure SQueue where
  sqBase : DWord := 0
  cqBase : DWord := 0
  log2 : Nat := 0
  weight : Nat := 1
  en : Bool := false
  head : Nat := 0
  tail : Nat := 0
  cqHead : Nat := 0
  cqTail : Nat := 0
  phase : Bool := true
  /-- Completion entries written and not consumed (R340). -/
  unread : Nat := 0
  /-- What the host's ring holds from HEAD on, as given with its last doorbell (R339). -/
  ring : List Cmd := []
  fetched : List Cmd := []
  started : List RunCmd := []
  /-- Entries of completed commands held back while no stream is Secure. -/
  late : List CplEntry := []
  deriving DecidableEq, Repr

/-- One error-log record (R369). -/
structure ERec where
  time : Nat := 0
  kind : Nat := 0
  code : Nat := 0
  ctx : Nat := 0
  llant : Nat := 0
  lwick : Nat := 0
  loc : DWord := 0
  adr : DWord := 0
  detail : List Byte := []
  deriving DecidableEq, Repr

/-- The error log ring (R369). -/
structure ELog where
  prod : BitVec 32 := 0
  cons : BitVec 32 := 0
  lost : Nat := 0
  recs : FMap ERec := []
  deriving DecidableEq, Repr

/-- TDISP interface states (R331). -/
inductive Tdi where
  | unlocked | locked | run | error
  deriving DecidableEq, Repr

/-- The fabric binding of a domain (R284): job tag, chips with the domain on each, ring table, bounce log. -/
structure Binding where
  tag : DWord
  /-- (chip, domain there), ascending. -/
  chips : List (Nat × Nat)
  rings : DWord
  blog : DWord
  /-- The binding digest of R419. -/
  digest : List Byte := []
  deriving DecidableEq, Repr

/-- Micro-batch timing (R215): the registers, and the running statistics. -/
structure MbSt where
  word : Nat := 0
  en : Bool := false
  ctx : Nat := 0
  start : Nat := 0
  n : Nat := 0
  max : Nat := 0
  argmax : Nat := 0
  min : Nat := 0
  sum : Nat := 0
  lastN : Nat := 0
  lastArg : Nat := 0
  lastMax : Nat := 0
  lastMin : Nat := 0
  lastSum : Nat := 0
  deriving DecidableEq, Repr

/-- A pinned tensor (R184, R368). -/
structure Pin where
  tensor : Nat
  nelem : Nat
  deriving DecidableEq, Repr

/-- A tenant domain (R333, R337). -/
structure Dom where
  /-- The domain exists (VF Enable, NumVFs). -/
  there : Bool := false
  fenced : Bool := false
  fcause : Nat := 0
  tdi : Tdi := .unlocked
  driver : Bool := false
  timeoutUs : Nat := 60000000
  jobSeed : DWord := 0
  stepNum : DWord := 0
  stepTime : DWord := 0
  stepCtx : BitVec 16 := 0
  stepCut : Bool := false
  /-- FENCE-space words and owner entries (R99). -/
  fences : FMap DWord := []
  owners : FMap Word := []
  /-- Page tables by virtual page number, HBM and Reservoir tier (R227). -/
  ptH : FMap Pte := []
  ptR : FMap Pte := []
  recs : List AllocRec := []
  pins : List Pin := []
  ctxs : FMap Ctx := []
  qs : FMap SQueue := []
  elog : ELog := {}
  binding : Option Binding := none
  /-- A closing binding and the Beacon time of its removal (R335). -/
  closing : Option (Binding × Nat) := none
  mb : MbSt := {}
  /-- HOST_DOMd.UR (R332). -/
  ur : Nat := 0
  /-- VF Memory Space Enable and Bus Master Enable, VF BAR0 (R332). -/
  mse : Bool := false
  bme : Bool := false
  bar : DWord := 0
  /-- What LOCK_INTERFACE_REQUEST latched: the report's resources, the TDI's own session, the nonce it answered (R332). -/
  lockRep : List Byte := []
  tdiSes : Option Nat := none
  tdiNonce : List Byte := []
  /-- The VF's write latch of R361 and R576: register offset and low half. -/
  wlatch : Option (Nat × Word) := none
  /-- The VF's read latches (R575): register offset and high half. -/
  rlatch : Option (Nat × Word) := none
  /-- MSI-X table words of the VF by dword index (R328). -/
  msix : FMap Word := []
  deriving DecidableEq, Repr

/-- An outstanding collective (R301 to R318) on this member. -/
structure CollOp where
  seq : Nat
  op : Nat
  fmt : Nat
  count : Nat
  root : Nat
  src : DWord
  dst : DWord
  sig : BitVec 32
  ctx : Nat
  /-- The Wick that launched it, llant · 8 + lwick. -/
  wk : Nat
  pc : DWord
  fence : Option FenceRef
  issued : Nat
  /-- Fused reduction: the update it feeds (its number), TOKMODE and TOK address (R318). -/
  upd : Option Nat := none
  tokmode : Bool := false
  tok : DWord := 0
  /-- Watchdog reports so far (R321). -/
  dog : Nat := 0
  /-- Chunks of the own shard opened so far (R307). -/
  opened : Nat := 0
  /-- Open chunks of the own shard: chunk to (open place, (next rank to add, running sums)) (R307, R308). -/
  sums : FMap (Nat × Nat × List Word) := []
  /-- Contributions stored in RBUF, by chunk · 8192 + rank (R308). -/
  stored : FMap Bool := []
  /-- Tree: second children that wait in combine slots, by (shard · 2^26 + chunk) · 16 + level (R310). -/
  slots : FMap (List Word) := []
  /-- Tree: the sum that this chip has formed of a chunk and how many of its children are in it, by shard · 2^26 + chunk; unlisted:
  its own leaf, not read yet (R310). -/
  accs : FMap (Nat × List Word) := []
  /-- Chunks of the own shard whose result is written (R306). -/
  own : FMap Bool := []
  /-- Chunks that arrived in DST, by shard or block · 2^26 + chunk (R306, R311, R312). -/
  got : FMap Bool := []
  /-- Items sent to each rank for this collective (R314). -/
  sentN : FMap Nat := []
  /-- Packets sent and not acknowledged (R304). -/
  unacked : Nat := 0
  /-- Barrier: own arrival sent up; release arrived and own releases sent (R313). -/
  up : Bool := false
  released : Bool := false
  /-- Token words received, by rank (R318). -/
  toks : FMap (Option DWord) := []
  /-- Fused: RESULT chunks delivered to the update engine, in ascending element order (R318). -/
  fed : Nat := 0
  deriving DecidableEq, Repr

inductive CommSt where
  | creating | ready | broken
  deriving DecidableEq, Repr

/-- A communicator (R296 to R300). -/
structure Comm where
  algo : Bool
  nranks : Nat
  myrank : Nat
  depth : Nat
  ranks : List Nat
  rbuf : DWord
  status : DWord
  wdog : Nat
  st : CommSt := .creating
  cause : Nat := 0
  breakRank : Nat := 0xFFFFFFFF
  /-- Ranks whose matching READY arrived (R299). -/
  ready : FMap Bool := []
  issued : Nat := 0
  done : Nat := 0
  waits : Nat := 0
  ops : List CollOp := []
  /-- Cumulative grant limits given to each rank, and received from each rank (R314). -/
  granted : FMap Nat := []
  limit : FMap Nat := []
  /-- Items sent to each rank; items from each rank that completed collectives took (R314). -/
  sent : FMap Nat := []
  base : FMap Nat := []
  /-- Barrier signals, some counted early, with their SIG: BARRIER_UP by seq · 8192 + rank, BARRIER_DOWN by seq (R313). -/
  ups : FMap (Option (BitVec 32)) := []
  downs : FMap (Option (BitVec 32)) := []
  /-- One more than the highest sequence number a peer's packet has named; 0 none (R356). -/
  peerSeq : Nat := 0
  /-- Beacon time of the last READY round, and of the last periodic status write (R299, R300). -/
  readyAt : Nat := 0
  statAt : Nat := 0
  deriving DecidableEq, Repr

/-- Where an update stands (R197, R198, R186). -/
inductive UpdPhase where
  /-- Waiting for its turn or for its gradient. -/
  | queued
  /-- Parked for a swapped-out Lantern (R186). -/
  | parked
  /-- Results written; ZEROG, the record and the fence not yet (R191, R198). -/
  | written
  deriving DecidableEq, Repr

/-- An update launched and not complete (R187, R196 to R198). -/
structure Upd where
  num : Nat
  dom : Nat
  ctx : Nat
  wk : Nat
  pc : DWord
  desc : BitVec 1024
  fence : Option FenceRef
  step : DWord
  engine : Nat
  phase : UpdPhase := .queued
  /-- Fused: the reduced gradient received so far, in order, and the token total (R194). -/
  grad : List Word := []
  tok : Option DWord := none
  /-- Bytes of it in the input FIFO and in spill staging; the rest the engine has taken (R211). -/
  fifo : Nat := 0
  stage : Nat := 0
  /-- Bytes of the FIFO's that came out of staging, and bytes of the gradient that passed through staging, each counted once
  (R191). -/
  fifoSp : Nat := 0
  spilled : Nat := 0
  /-- Room reserved for a RESULT chunk that is granted and has not come: in the FIFO, in staging (R318). -/
  promF : Nat := 0
  promS : Nat := 0
  /-- Queued matrix operations of the launching Wick that must read their operands before it starts (R174, R195). -/
  after : Nat := 0
  /-- Fused: its sequence number on its communicator (R305). -/
  seq : Nat := 0
  /-- Written: the token total used, NONFINITE_COUNT and AUXVAL of its record (R191). -/
  total : DWord := 0
  nf : Nat := 0
  auxval : Word := 0
  deriving DecidableEq, Repr

/-- One update engine's counters and FIFO reservations (R211, R214). -/
structure UpdEng where
  spillTot : Nat := 0
  done : Nat := 0
  hold : Nat := 0
  /-- Domains holding a 2 MiB reservation, and waiting for one (R211). -/
  resv : List Nat := []
  waiting : List Nat := []
  deriving DecidableEq, Repr

/-- One collective engine (R298, R325). -/
structure CollEng where
  sums : Nat := 0
  comb : Nat := 0
  adds : Nat := 0
  rbuf : Nat := 0
  combs : Nat := 0
  ghold : Nat := 0
  late : Nat := 0
  deriving DecidableEq, Repr

/-- The collective and update engines. -/
structure EngSt where
  /-- Communicators by domain, then COMM_ID. -/
  comms : FMap (FMap Comm) := []
  coll : FMap CollEng := []
  /-- COLL_DOM_WAIT and COLL_DOM_BROKEN by domain. -/
  wait : FMap Nat := []
  broken : FMap Nat := []
  /-- Updates in launch order (R197). -/
  upds : List Upd := []
  nextUpd : Nat := 0
  upd : FMap UpdEng := []
  deriving DecidableEq, Repr

end Sys2Proof.Machine
end

