-- ==== Sys2Proof/Machine/Operands.lean ====
section
/-! DEFINITION. Operand forms of Amsum (spec/04_amsum_encoding.md): fields of an instruction word, registers of a Wick,
addresses, the legality of a bundle (R113 to R120), the fault order of R123, and the acts an instruction performs. -/

namespace Sys2Proof.Machine

/-! ### Fields -/

/-- The `n` bits of `w` from bit `lo` up. -/
def fld (w : DWord) (lo n : Nat) : Nat := w.toNat / 2 ^ lo % 2 ^ n

/-- Bit `i` of a word. -/
def tb (w : DWord) (i : Nat) : Bool := fld w i 1 == 1

/-- An `n`-bit field as two's complement (R116). -/
def sx (n v : Nat) : Int := if v < 2 ^ (n - 1) then (v : Int) else (v : Int) - (2 ^ n : Nat)

/-- The opcode (R113). -/
def opOf (w : DWord) : Nat := fld w 0 8

/-- A word with its opcode field replaced. -/
def withOp (w : DWord) (op : Nat) : DWord := BitVec.ofNat 64 (w.toNat / 256 * 256 + op % 256)

/-- Bits outside `mask` are zero (R114). -/
def only (w : DWord) (mask : Nat) : Bool := w.toNat &&& mask == w.toNat

/-- The mask of the bits [hi:lo]. -/
def bm (hi lo : Nat) : Nat := (2 ^ (hi + 1 - lo) - 1) * 2 ^ lo

/-! ### Registers of a Wick -/

def zeroVec : List Word := List.replicate 256 0
def zeroTile : List Word := List.replicate 4096 0
def onesP : BitVec 256 := BitVec.allOnes 256

def Wick.rs (k : Wick) (i : Nat) : DWord := FMap.get 0 k.s i
def Wick.ra (k : Wick) (i : Nat) : DWord := FMap.get 0 k.a i
def Wick.rv (k : Wick) (i : Nat) : List Word := FMap.get zeroVec k.v i
def Wick.rt (k : Wick) (i : Nat) : List Word := FMap.get zeroTile k.t i
/-- A predicate register; p0 reads as 256 ones (R76). -/
def Wick.rp (k : Wick) (i : Nat) : BitVec 256 := if i = 0 then onesP else FMap.get 0 k.p i

def Wick.setS (k : Wick) (i : Nat) (x : DWord) : Wick := { k with s := FMap.set 0 k.s i x }
def Wick.setA (k : Wick) (i : Nat) (x : DWord) : Wick := { k with a := FMap.set 0 k.a i x }
def Wick.setV (k : Wick) (i : Nat) (x : List Word) : Wick := { k with v := FMap.set zeroVec k.v i x }
def Wick.setT (k : Wick) (i : Nat) (x : List Word) : Wick := { k with t := FMap.set zeroTile k.t i x }
/-- A write to p0 is discarded (R76). -/
def Wick.setP (k : Wick) (i : Nat) (x : BitVec 256) : Wick :=
  if i = 0 then k else { k with p := FMap.set 0 k.p i x }
def Wick.setPc (k : Wick) (x : DWord) : Wick := { k with pc := x }

/-- A lane of a vector, an element of a tile. -/
def lane (v : List Word) (i : Nat) : Word := v.getD i 0

/-- A vector of 256 lanes. -/
def mkVec (f : Nat → Word) : List Word := (List.range 256).map f
/-- A tile of 64 × 64 elements, element (r, c) at 64 r + c. -/
def mkTile (f : Nat → Nat → Word) : List Word := (List.range 4096).map fun i => f (i / 64) (i % 64)
/-- A predicate of 256 bits. -/
def mkPred (f : Nat → Bool) : BitVec 256 :=
  BitVec.ofNat 256 ((List.range 256).foldl (fun a i => if f i then a + 2 ^ i else a) 0)

/-! ### Addresses (R86 to R88) -/

/-- OFFSET of an address register. -/
def offOf (a : DWord) : Nat := fld a 0 57

/-- The space an address names; none for a reserved code or nonzero reserved bits (R86). -/
def spaceOf (a : DWord) : Option Space :=
  if fld a 57 4 ≠ 0 then none
  else match fld a 61 3 with
    | 0 => some .loc
    | 1 => some .lant
    | 2 => some .dom
    | 3 => some .fab
    | 4 => some .fence
    | _ => none

/-- The size of a space (R87). -/
def spaceSize : Space → Nat
  | .loc => 768 * 1024
  | .lant => 4 * 1024 * 1024
  | .dom => 2 ^ 57
  | .fab => 2 ^ 57
  | .fence => 4096

/-- Add to OFFSET, discarding a carry or borrow out of bit 56; the other bits stay (R86). -/
def addOff (a : DWord) (d : Int) : DWord :=
  BitVec.ofNat 64 (a.toNat / 2 ^ 57 * 2 ^ 57 + (((offOf a : Int) + d) % (2 ^ 57 : Nat)).toNat)

/-! ### Faults of a bundle (R123) -/

/-- A fault: its code and the faulting address, zero where there is none. -/
structure Flt where
  code : FCode
  adr : DWord := 0
  deriving DecidableEq, Repr

/-- The place of a code in the order of R123. -/
def FCode.rank : FCode → Nat
  | .illegal => 0 | .badfmt => 1 | .badrm => 2 | .badstream => 3 | .badfence => 4 | .badspace => 5 | .misalign => 6
  | .bounds => 7 | .nomap => 8 | .perm => 9 | .poison => 10 | _ => 11

/-- The first fault of a slot in the order of R123. -/
def firstFlt : List Flt → Option Flt
  | [] => none
  | f :: l =>
    match firstFlt l with
    | none => some f
    | some g => if g.code.rank < f.code.rank then some g else some f

/-- A fault raised where a condition holds. -/
def fltIf (c : Bool) (code : FCode) (adr : DWord := 0) : List Flt := if c then [⟨code, adr⟩] else []

/-- What an instruction does when no fault stops its bundle. -/
inductive Act where
  | s (r : Nat) (x : DWord)
  | a (r : Nat) (x : DWord)
  | v (r : Nat) (x : List Word)
  | t (r : Nat) (x : List Word)
  | p (r : Nat) (x : BitVec 256)
  /-- Store bytes at an address (space and OFFSET). -/
  | store (adr : DWord) (bytes : List Byte)
  | mat (op : MatOp)
  | dma (q : Nat) (d : DmaDesc)
  | tok (t : TokRec)
  deriving DecidableEq, Repr

/-- The faults of a slot and, with none, its acts. -/
structure SlotR where
  flts : List Flt := []
  acts : List Act := []
  /-- The instruction must wait for a queue or for an operand of a queued operation (R147, R148, R152). -/
  stall : Bool := false
  deriving DecidableEq, Repr

/-! ### Bytes -/

/-- The `w`-bit fields of a number, `n` of them, lowest first (R42). -/
def bitFields (w : Nat) : Nat → Nat → List Nat
  | 0, _ => []
  | n + 1, v => v % 2 ^ w :: bitFields w n (v / 2 ^ w)

/-- A number from `w`-bit fields, lowest first. -/
def ofBitFields (w : Nat) : List Nat → Nat
  | [] => 0
  | x :: l => x % 2 ^ w + 2 ^ w * ofBitFields w l

/-! ### Legality of instruction words (R113 to R120) -/

/-- A register, for the double-write rule of R118: class · 64 + index. -/
def rS (i : Nat) : Nat := i
def rA (i : Nat) : Nat := 64 + i
def rV (i : Nat) : Nat := 128 + i
def rT (i : Nat) : Nat := 192 + i
def rP (i : Nat) : Nat := 256 + i

def fmtOf (w : DWord) (lo : Nat) : Option Fmt := Fmt.ofCode (fld w lo 4)
def isMXAt (w : DWord) (lo : Nat) : Bool := match fmtOf w lo with | some f => f.isMX | none => false

/-- The M slot's words (R124 to R127, R141). -/
def legalM (w : DWord) : Bool :=
  match opOf w with
  | 0x00 => w == 0
  | 0x01 =>
    let mxA := isMXAt w 20
    let mxB := isMXAt w 24
    only w (bm 56 0) && fld w 36 12 != 0
      && (mxA || fld w 28 4 == 0) && (mxB || fld w 32 4 == 0)
      && (!mxA || !tb w 54) && (!mxB || tb w 55)
      && (!(mxA && mxB) || fld w 36 12 % 32 == 0)
      && (!tb w 56 || decide ((if mxA && mxB then [fld w 12 4, fld w 16 4, fld w 28 4, fld w 32 4]
                               else [fld w 12 4, fld w 16 4]).Nodup))
  | 0x02 => only w (bm 10 0)
  | 0x03 => only w (bm 13 0)
  | 0x04 => only w (bm 7 0 + bm 22 11)
  | 0x05 => only w (bm 10 0 + bm 22 14)
  | 0x08 => only w (bm 35 0) && fld w 11 4 % 4 == 0 && fld w 15 6 % 4 == 0 && fld w 34 2 != 3
  | 0x09 => only w (bm 35 0) && fld w 8 3 ≤ 5 && fld w 11 4 % 4 == 0 && fld w 15 6 % 4 == 0 && fld w 34 2 != 3
  | _ => false

/-- The fields of source B of a vector instruction: VB, or SB with BS (R128). -/
def bMask (w : DWord) : Nat := if tb w 42 then bm 42 42 + bm 48 43 else bm 22 18

def mVD : Nat := bm 12 8
def mVA : Nat := bm 17 13
def mPr : Nat := bm 31 28

/-- The V slot's words (R128 to R131, R142). -/
def legalV (w : DWord) : Bool :=
  match opOf w with
  | 0x00 => w == 0
  | 0x40 | 0x41 | 0x42 | 0x44 => only w (bm 7 0 + mVD + mVA + bMask w + mPr + bm 33 32)
  | 0x43 => only w (bm 7 0 + mVD + mVA + bMask w + bm 27 23 + mPr + bm 33 32)
  | 0x45 => only w (bm 7 0 + mVD + mVA + mPr + bm 33 32)
  | 0x46 | 0x47 | 0x55 => only w (bm 7 0 + mVD + mVA + bMask w + mPr)
  | 0x48 | 0x49 | 0x4A | 0x4B | 0x4C | 0x54 | 0x60 | 0x61 | 0x62 => only w (bm 7 0 + mVD + mVA + mPr)
  | 0x50 | 0x51 | 0x52 | 0x53 => only w (bm 10 0 + mVA + bMask w + mPr)
  | 0x58 =>
    let sr := fld w 32 2 == 2
    only w (bm 7 0 + mVD + mVA + mPr + bm 41 32 + (if sr then bm 54 49 else 0))
      && (!sr || fld w 49 6 % 4 == 0)
      && (!isMXAt w 38 || fld w 28 4 == 0)
  | 0x59 => only w (bm 7 0 + mVD + mPr + bm 54 49) && fld w 49 6 % 4 == 0
  | 0x68 | 0x69 | 0x6A | 0x6B | 0x6C | 0x6D | 0x6E | 0x6F | 0x70 | 0x71 =>
    only w (bm 7 0 + mVD + mVA + bMask w + mPr)
  | 0x74 | 0x75 | 0x76 => only w (bm 10 0 + bm 15 13 + bm 20 18)
  | 0x77 => only w (bm 10 0 + bm 15 13)
  | _ => false

/-- The X slot's words (R132 to R136, R143). -/
def legalX (w : DWord) : Bool :=
  match opOf w with
  | 0x00 => w == 0
  | 0x80 => only w (bm 39 0)
  | 0x81 => only w (bm 37 0 + bm 39 39)
  | 0x82 | 0x83 =>
    let mx := isMXAt w 40
    let off := sx 18 (fld w 18 18)
    only w (bm 12 0 + bm 35 14 + bm 47 39 + (if mx then bm 51 48 else 0))
      && (match fmtOf w 40 with
          | some .mx4 => off % 2 == 0
          | some .mx6e3m2 | some .mx6e2m3 => off % 3 == 0
          | _ => true)
      && (!(mx && opOf w == 0x83) || fld w 44 4 == 0)
      && (!(mx && tb w 39) || fld w 14 4 != fld w 48 4)
  | 0x84 | 0x85 => only w (bm 10 0 + bm 35 14 + bm 43 39 + bm 57 52)
  | 0x88 => only w (bm 44 0) && fld w 36 2 != 3 && (!tb w 44 || fld w 22 10 == 0)
  | 0x8C => only w (bm 45 0) && (!tb w 40 || fld w 30 10 == 0)
  | 0x90 | 0x91 => only w (bm 13 0 + bm 63 32)
  | 0x92 => only w (bm 11 0 + bm 19 14)
  | 0x93 => only w (bm 13 0 + bm 17 14)
  | 0x94 => only w (bm 13 0)
  | 0x95 => only w (bm 13 0 + bm 18 14 + bm 39 32)
  | 0x96 => only w (bm 12 0 + bm 19 14 + bm 39 32)
  | 0x97 => only w (bm 12 0 + bm 19 14)
  | 0x98 => only w (bm 11 0 + bm 17 14 + bm 25 20)
  | 0x99 => only w (bm 11 0 + bm 17 14 + bm 63 32)
  | 0x9A => only w (bm 11 0 + bm 19 14 + bm 34 32) && fld w 32 3 ≤ 4
  | 0x9B => only w (bm 10 0 + bm 18 14)
  | 0x9C => only w (bm 12 0 + bm 16 14)
  | _ => false

/-- The C slot's words (R137 to R140, R144). -/
def legalC (w : DWord) : Bool :=
  let op := opOf w
  if op = 0 then w == 0
  else if 0xC0 ≤ op ∧ op ≤ 0xCA then
    if tb w 26 then only w (bm 19 0 + bm 26 26 + bm 63 32) else only w (bm 25 0)
  else match op with
  | 0xD0 => only w (bm 7 0 + bm 63 32)
  | 0xD1 | 0xD2 | 0xD3 | 0xD4 | 0xD5 | 0xD6 => only w (bm 19 0 + bm 63 32)
  | 0xD7 | 0xD9 => only w (bm 13 0 + bm 63 32)
  | 0xD8 => only w (bm 13 0)
  | 0xE0 => only w (bm 7 0 + bm 23 14)
  | 0xE1 => only w (bm 30 0)
  | 0xE2 => only w (bm 7 0 + bm 23 14)
  | 0xE8 => only w (bm 17 0 + bm 27 22 + bm 31 29) && !(tb w 30 && tb w 31)
  | 0xE9 => only w (bm 17 0)
  | 0xEA => only w (bm 13 0)
  | 0xEC | 0xED => only w (bm 7 0 + bm 28 14) && (!tb w 28 || fld w 18 10 == 0)
  | 0xFE => w == 0xFE
  | _ => false

/-- The registers the M slot writes (R118). -/
def writesM (w : DWord) : List Nat :=
  match opOf w with
  | 0x01 =>
    rT (fld w 8 3) :: (if tb w 56 then
      rA (fld w 12 4) :: rA (fld w 16 4) ::
        (if isMXAt w 20 && isMXAt w 24 then [rA (fld w 28 4), rA (fld w 32 4)] else [])
      else [])
  | 0x02 | 0x03 | 0x05 => [rT (fld w 8 3)]
  | 0x04 => [rV (fld w 14 5)]
  | 0x08 => [rT (fld w 8 3), rV (fld w 21 5)]
  | 0x09 => [rT (fld w 8 3), rT (fld w 8 3 + 1), rT (fld w 8 3 + 2)]
  | _ => []

/-- A predicate destination; p0 is no write (R118). -/
def pDest (i : Nat) : List Nat := if i = 0 then [] else [rP i]

/-- The registers the V slot writes. -/
def writesV (w : DWord) : List Nat :=
  let op := opOf w
  if op = 0 then []
  else if (0x50 ≤ op ∧ op ≤ 0x53) ∨ (0x74 ≤ op ∧ op ≤ 0x77) then pDest (fld w 8 3)
  else [rV (fld w 8 5)]

/-- The address registers a post-incrementing access writes. -/
def postX (w : DWord) : List Nat :=
  if tb w 39 then rA (fld w 14 4) :: (if isMXAt w 40 then [rA (fld w 48 4)] else []) else []

/-- The registers the X slot writes. -/
def writesX (w : DWord) : List Nat :=
  match opOf w with
  | 0x80 => rS (fld w 8 6) :: (if tb w 39 then [rA (fld w 14 4)] else [])
  | 0x81 => if tb w 39 then [rA (fld w 14 4)] else []
  | 0x82 => rV (fld w 8 5) :: postX w
  | 0x83 => postX w
  | 0x84 => rT (fld w 8 3) :: (if tb w 39 then [rA (fld w 14 4)] else [])
  | 0x85 => if tb w 39 then [rA (fld w 14 4)] else []
  | 0x90 | 0x91 | 0x93 | 0x94 | 0x95 => [rS (fld w 8 6)]
  | 0x92 | 0x98 | 0x99 | 0x9A => [rA (fld w 8 4)]
  | 0x96 | 0x97 | 0x9C => [rV (fld w 8 5)]
  | 0x9B => pDest (fld w 8 3)
  | _ => []

/-- The registers the C slot writes. -/
def writesC (w : DWord) : List Nat :=
  let op := opOf w
  if 0xC0 ≤ op ∧ op ≤ 0xCA then [rS (fld w 8 6)]
  else match op with
  | 0xD7 | 0xD9 | 0xE1 | 0xE9 | 0xEA => [rS (fld w 8 6)]
  | 0xE8 => [rS (fld w 8 6), rA (fld w 14 4)]
  | _ => []

/-- STEP, ALLOC, FREE and HALT stand alone (R119). -/
def standsAlone (w : DWord) : Bool :=
  match opOf w with
  | 0xE8 | 0xE9 | 0xEA | 0xFE => true
  | _ => false

/-- Order 1 of R123: slot classes, R114, R118 to R120. -/
def legalBundle (b : Bundle) : Bool :=
  legalM b.m && legalV b.v && legalX b.x && legalC b.c
    && decide (writesM b.m ++ writesV b.v ++ writesX b.x ++ writesC b.c).Nodup
    && (!standsAlone b.c || (b.m == 0 && b.v == 0 && b.x == 0))
    && (!(opOf b.m == 0x08 || opOf b.m == 0x09) || b.v == 0)

end Sys2Proof.Machine
end

