-- ==== Sys2Proof/Machine/CollItems.lean ====
section
/-! DEFINITION. What a collective consists of (R302, R306, R309 to R314): shards, chunks, the pairing tree, and the items
of each ordered pair's stream. All of it follows from the command and the communicator. -/

namespace Sys2Proof.Machine

/-- An item of a stream: packet KIND, LEVEL, SHARD and CHUNK (R315). -/
structure Item where
  kind : Nat
  level : Nat := 0
  shard : Nat := 0
  chunk : Nat := 0
  deriving DecidableEq, Repr

/-- ALLREDUCE, REDUCE_SCATTER and the fused reductions. -/
def CollOp.reduces (o : CollOp) : Bool := o.op == 1 || o.op == 2 || o.op == 6 || o.op == 7
/-- The result goes to every member. -/
def CollOp.spreads (o : CollOp) : Bool := o.op == 1 || o.op == 6 || o.op == 7

/-- Bytes of an element of a reduction's source. -/
def CollOp.esz (o : CollOp) : Nat := if o.fmt = 0 then 4 else 2

/-- Elements per full shard (R306). -/
def CollOp.shardSize (o : CollOp) (n : Nat) : Nat :=
  if o.op = 2 then o.count / n else (o.count + 1024 * n - 1) / (1024 * n) * 1024
/-- Elements of shard `j`. -/
def CollOp.shardLen (o : CollOp) (n j : Nat) : Nat :=
  min ((j + 1) * o.shardSize n) o.count - min (j * o.shardSize n) o.count
/-- Chunks of shard `j`. -/
def CollOp.chunks (o : CollOp) (n j : Nat) : Nat := (o.shardLen n j + 1023) / 1024
/-- Elements of chunk `c` of shard `j`. -/
def CollOp.chunkLen (o : CollOp) (n j c : Nat) : Nat := min 1024 (o.shardLen n j - 1024 * c)
/-- 4 KiB chunks of a gather's or broadcast's block (R306), and the bytes of one. -/
def CollOp.blocks (o : CollOp) : Nat := (o.count + 4095) / 4096
def CollOp.blockLen (o : CollOp) (c : Nat) : Nat := min 4096 (o.count - 4096 * c)

/-- The lowest set bit of a position (0 for 0). -/
def lowBit : Nat → Nat → Nat
  | 0, _ => 0
  | f + 1, p => if p = 0 then 0 else if p % 2 = 1 then 1 else 2 * lowBit f (p / 2)

/-- Position of rank `r` in the tree rooted at rank `j` (R309, R312). -/
def posOf (n j r : Nat) : Nat := (r + n - j % n) % n
/-- The rank at a position. -/
def rankAt (n j p : Nat) : Nat := (p + j) % n
/-- The parent of a position: the position without its lowest set bit. -/
def parentPos (p : Nat) : Nat := p - lowBit 16 p
/-- The level at which a position joins its parent. -/
def joinLevel (p : Nat) : Nat := Nat.log2 (lowBit 16 p) + 1
/-- Levels of a tree over `n` positions. -/
def treeLevels (n : Nat) : Nat := if n ≤ 1 then 0 else Nat.log2 (n - 1) + 1
/-- The child positions of `p`, with their levels, ascending (R309). -/
def childPos (n p : Nat) : List (Nat × Nat) :=
  ((List.range (treeLevels n)).map (· + 1)).filterMap fun l =>
    if p % 2 ^ l = 0 ∧ p + 2 ^ (l - 1) < n then some (l, p + 2 ^ (l - 1)) else none

/-- The tree items of an operation that rank `a` sends to rank `b`, chunk by chunk and then shard by shard. -/
def CollOp.partials (o : CollOp) (n a b : Nat) : List Item :=
  ((List.range (o.chunks n 0)).map fun c => (List.range n).filterMap fun j =>
    let p := posOf n j a
    if p ≠ 0 ∧ rankAt n j (parentPos p) = b ∧ c < o.chunks n j then some { kind := 2, level := joinLevel p, shard := j, chunk := c }
    else none).flatten

/-- The items of an operation in the stream from rank `a` to rank `b`, in order (R314): the token word, the contributions
or partial sums, then the results. -/
def CollOp.items (o : CollOp) (algo : Bool) (n a b : Nat) : List Item :=
  if o.reduces then
    (if o.op = 6 then [{ kind := 8 : Item }] else [])
      ++ (if algo then o.partials n a b else (List.range (o.chunks n b)).map fun c => { kind := 1, shard := b, chunk := c })
      ++ (if o.spreads then (List.range (o.chunks n a)).map fun c => { kind := 3, shard := a, chunk := c } else [])
  else if o.op = 3 then (List.range o.blocks).map fun c => { kind := 4, shard := a, chunk := c }
  else if o.op = 4 then
    (if posOf n o.root a ≠ posOf n o.root b ∧ parentPos (posOf n o.root b) = posOf n o.root a then
      (List.range o.blocks).map fun c => { kind := 5, chunk := c } else [])
  else []

/-- The items of the stream from `a` to `b` of this communicator's operation. -/
def Comm.itemsOf (x : Comm) (o : CollOp) (a b : Nat) : List Item := o.items x.algo x.nranks a b

/-- The other ranks of a communicator. -/
def Comm.others (x : Comm) : List Nat := (List.range x.nranks).filter (fun r => r != x.myrank)

/-- The key of a chunk. -/
def chunkKey (j c : Nat) : Nat := j * 2 ^ 26 + c

/-- Children of chunk `c` of shard `j` that are in this chip's sum of it (R310). -/
def CollOp.merged (o : CollOp) (j c : Nat) : Nat :=
  match FMap.find? o.accs (chunkKey j c) with
  | some p => p.1
  | none => 0

/-- The tree item is added in here, or its chunk is finished: its node was sent on, or its root written (R310). -/
def Comm.treeDone (x : Comm) (o : CollOp) (i : Item) : Bool :=
  let p := posOf x.nranks i.shard x.myrank
  (if p = 0 then FMap.get false o.own i.chunk else FMap.get false o.got (chunkKey i.shard i.chunk * 2 + 1))
    || ((childPos x.nranks p).take (o.merged i.shard i.chunk)).any fun k => k.1 == i.level

/-- An item has arrived, or its effect is complete, at this member. -/
def Comm.arrived (x : Comm) (o : CollOp) (r : Nat) (i : Item) : Bool :=
  match i.kind with
  | 1 => FMap.get false o.own i.chunk || FMap.get false o.stored (i.chunk * 8192 + r)
      || (match FMap.find? o.sums i.chunk with | some (_, nx, _) => decide (r < nx) | none => false)
  | 2 => (FMap.find? o.slots (chunkKey i.shard i.chunk * 16 + i.level)).isSome || x.treeDone o i
  | 8 => (FMap.get none o.toks r).isSome
  | _ => FMap.get false o.got (chunkKey i.shard i.chunk * 2)

/-- This member has the data of an item that it sends (R306 to R313). -/
def Comm.atHand (x : Comm) (o : CollOp) (i : Item) : Bool :=
  match i.kind with
  | 2 => decide ((childPos x.nranks (posOf x.nranks i.shard x.myrank)).length ≤ o.merged i.shard i.chunk)
  | 3 => FMap.get false o.own i.chunk
  | 5 => posOf x.nranks o.root x.myrank == 0 || FMap.get false o.got (chunkKey 0 i.chunk * 2)
  | _ => true

/-- Rank `r` owes data of its own: an item that this member granted and that is no RESULT has not come. -/
def Comm.owesData (x : Comm) (o : CollOp) (r : Nat) : Bool :=
  ((x.itemsOf o r x.myrank).take (FMap.get 0 x.granted r - FMap.get 0 x.base r)).any fun i => i.kind != 3 && !x.arrived o r i

/-- Rank `r` owes a grant: the next item of the stream to it is at hand and above its limit. -/
def Comm.owesGrant (x : Comm) (o : CollOp) (r : Nat) : Bool :=
  match (x.itemsOf o x.myrank r)[FMap.get 0 o.sentN r]? with
  | some i => x.atHand o i && decide (FMap.get 0 x.limit r ≤ FMap.get 0 x.sent r)
  | none => false

/-- The ranks whose grant or data the oldest outstanding collective still awaits (R300). A rank owes a RESULT only when no rank owes
data of its own or a grant, since a RESULT may wait for another rank's data (DEDUCED from the example after R323, log 59). A barrier
awaits its children's arrivals, and then its release. -/
def Comm.missing (x : Comm) : List Nat :=
  match x.ops with
  | [] => []
  | o :: _ =>
    if o.op = 5 then
      let kids := (childPos x.nranks x.myrank).map (·.2)
      let late := kids.filter fun r => (FMap.get none x.ups (o.seq * 8192 + r)).isNone
      if o.released then [] else if !late.isEmpty then late
      else if x.myrank = 0 then [] else [parentPos x.myrank]
    else
      let l := x.others.filter fun r => x.owesData o r || x.owesGrant o r
      if l.isEmpty then x.others.filter fun r => (x.itemsOf o r x.myrank).any fun i => !x.arrived o r i else l

end Sys2Proof.Machine
end

