-- ==== Sys2Proof/Machine/StateFabric.lean ====
section
/-! DEFINITION. The state of the links, the router and the Expert Home Table (spec/08_link_fabric.md). -/

namespace Sys2Proof.Machine

/-- Whose packet is held until its ACK (R271). -/
inductive Owner where
  /-- No agent of this chip any longer (R359 step 4). -/
  | nobody
  /-- A token of a context that has been torn down since (R292, R359). -/
  | lateTok (d c : Nat) (t : TokRec)
  | dma (d c wk q : Nat)
  | tok (d c wk : Nat)
  | coll (d comm seq : Nat)
  /-- A packet of a checkpoint copy or of a Relight read (R521, R531). -/
  | ckpt (d : Nat)
  | readReq (d c wk q : Nat)
  /-- A READ_DATA that answers a request. -/
  | answer
  /-- A CTRL_MSG. -/
  | ctrl
  deriving DecidableEq, Repr

/-- Where a held packet stands. -/
inductive HeldSt where
  | sent
  /-- Its destination is unreachable: it waits at the source (R276). -/
  | unreach
  /-- NAK STRAND at this Beacon time (R280, R616). -/
  | stranded (at_ : Nat)
  /-- NAK NOROUTE at this Beacon time: its destination counts as unreachable for 1 ms (R272). -/
  | noroute (at_ : Nat)
  /-- Its destination is not confirmed under the joint session (R430). -/
  | unconf
  /-- NAK BUSY at this device-clock time (R272). -/
  | busy (at_ : Nat)
  deriving DecidableEq, Repr

/-- A packet this chip sent that is not yet acknowledged. -/
structure Held where
  pkt : Pkt
  owner : Owner
  st : HeldSt := .sent
  deriving DecidableEq, Repr

/-- An Expert Home Table segment (R286, FAB_EHT_SEGd): base and length in units of 256 entries, the bank in force, a commit
(context tag, step number) waiting for its STEP, and the copy after an exchange not yet done. -/
structure EhtSeg where
  base : Nat := 0
  len : Nat := 0
  active : Bool := false
  commit : Option (Nat × DWord) := none
  copying : Bool := false
  deriving DecidableEq, Repr

/-- Link states (R265). -/
inductive LkSt where
  | off | detect | train | keyx | up | down
  deriving DecidableEq, Repr

def LkSt.num : LkSt → Nat
  | .off => 0 | .detect => 1 | .train => 2 | .keyx => 3 | .up => 4 | .down => 5

/-- Why a link is DOWN (R265). -/
inductive LkCause where
  | none | noSignal | peerProtocol | eqFail | lockFail | idMismatch | auth | errRate | lanes
  deriving DecidableEq, Repr

def LkCause.num : LkCause → Nat
  | .none => 0 | .noSignal => 1 | .peerProtocol => 2 | .eqFail => 3 | .lockFail => 4 | .idMismatch => 5 | .auth => 6
  | .errRate => 7 | .lanes => 8

/-- The key and salt of one direction of a link under one key epoch (R262, R263). -/
structure LinkKey where
  key : Masked
  salt : List Byte
  deriving DecidableEq, Repr

/-- A slot on its way into a flit (R260); the last slot of a packet names the packet. -/
structure Slot where
  bytes : List Byte
  last : Option Pkt := none
  deriving DecidableEq, Repr

/-- A numbered flit in the replay buffer (R254, R258): its key epoch, sequence number and header, its ciphertext and tag, and the
packets that end in it. -/
structure FlitOut where
  epoch : Bool := false
  seq : Nat := 0
  hdr : BitVec 32 := 0
  body : List Byte := []
  pkts : List Pkt := []
  deriving DecidableEq, Repr

/-- A link (R252 to R267): the fields of its registers, and its link layer. -/
structure Link where
  st : LkSt := .off
  cause : LkCause := .none
  width4 : Bool := false
  light : Bool := false
  kepoch : Bool := false
  peer : Nat := 0
  peerLink : Nat := 0
  enab : Bool := true
  fecReq : Bool := false
  txFlits : Nat := 0
  rxFlits : Nat := 0
  fecCorr : Nat := 0
  fecUnc : Nat := 0
  replay : Nat := 0
  tagFail : Nat := 0
  quiet : Nat := 0
  /-- Next sequence number to send, and next expected (R257). -/
  txSeq : Nat := 0
  rxSeq : Nat := 0
  /-- The replay buffer: flits sent and not acknowledged, oldest first, at most 256 (R258). -/
  kept : List FlitOut := []
  /-- NAK is set in the next transmitted flit; flits are discarded until the expected one arrives (R257). -/
  nak : Bool := false
  gap : Bool := false
  /-- Packets that wait for this egress, in their order of arrival, and slots of packets that have started (R260, R281). -/
  queue : List Pkt := []
  stream : List Slot := []
  /-- The CTRL rate bucket in bytes at a device-clock time, and the deficit round-robin: whose turn, deficits in bytes by class
  (R281). -/
  bucket : Nat := 4160
  bucketAt : Nat := 0
  turn : Nat := 0
  deficit : FMap Nat := []
  /-- Device clock at which ACKSEQ last advanced (R258). -/
  ackAt : Nat := 0
  /-- Counts within one Beacon second, (second, count): uncorrectable codewords, resends, tag failures on corrected
  codewords (R256, R259, R262). -/
  uncSec : Nat × Nat := (0, 0)
  resSec : Nat × Nat := (0, 0)
  tagSec : Nat × Nat := (0, 0)
  /-- Uncorrectable codewords in a row, sequence failures in a row, failed short retrains in a row (R255, R259). -/
  uncRun : Nat := 0
  seqRun : Nat := 0
  shortFails : Nat := 0
  /-- The training in progress is the short one (R259). -/
  short : Bool := false
  /-- Standard FEC until a requested retrain (R256). -/
  stdOnly : Bool := false
  /-- Slots sent and not credited, and credits to return to the peer, by virtual channel class · 5 + index (R261). -/
  owed : FMap Nat := []
  back : FMap Nat := []
  /-- The keys of both directions (R263); flits sent under the transmit key; the receive epoch (R264). -/
  txKey : Option LinkKey := none
  rxKey : Option LinkKey := none
  keyFlits : Nat := 0
  rxEpoch : Bool := false
  /-- The next receive epoch's key; flits received under the present one, and the key before it while it is held (R264). -/
  rxNext : Option LinkKey := none
  rxNew : Nat := 0
  rxOld : Option LinkKey := none
  /-- Device clock at which the state was entered. -/
  since : Nat := 0
  /-- Lanes fenced (R267). -/
  badLanes : BitVec 8 := 0
  /-- A quiet window is open since this Beacon time (R39). -/
  quietAt : Option Nat := none
  deriving DecidableEq, Repr

/-- One weight set (R282). -/
structure WSet where
  token : Nat := 40
  reduce : Nat := 40
  bulk : Nat := 15
  ctrl : Nat := 5
  deriving DecidableEq, Repr

/-- The bounce log of a binding (R293): BASE and LOG2 as FABRIC_BIND read them, none when it could not, and the device's PROD. -/
structure BLog where
  ring : Option (DWord × Nat) := none
  prod : Nat := 0
  deriving DecidableEq, Repr

/-- Per-domain fabric state: bounce log, and the counters of the FABRIC block. -/
structure FabDom where
  blog : BLog := {}
  blost : Nat := 0
  tdlv : Nat := 0
  bnc : Nat := 0
  deriving DecidableEq, Repr

/-- A token whose packets are arriving (R260, log 45): who sent it, its length, its bytes so far. -/
structure TokPart where
  src : Nat
  xtag : BitVec 16
  data : List Byte
  deriving DecidableEq, Repr

/-- The fabric. -/
structure FabSt where
  /-- This chip's ID, group · 32 + member. -/
  chip : Nat := 0
  links : FMap Link := []
  /-- Links of other chips that are DOWN in this chip's view, by chip · 64 + link (R278). -/
  view : FMap Bool := []
  /-- The chip and link at the far end of each link, chip · 64 + link, where the board record has a link map (R266). -/
  cable : Option (FMap Nat) := none
  /-- Packets put onto an egress link, in order: the device's output. Link 36 is local delivery. -/
  tx : List (Nat × Pkt) := []
  /-- Packets not held for an ACK whose destination is unreachable (R276). -/
  wait : List Pkt := []
  /-- Read requests that wait at their ingress port (R283 rule 3); 36 holds this chip's own. -/
  reqs : FMap (List Pkt) := []
  parts : List TokPart := []
  /-- The collective engine accepts no more REDUCE data: their credits are withheld (R37). -/
  redHold : Bool := false
  held : List Held := []
  nextXtag : BitVec 16 := 0
  /-- Queued BULK bytes toward an exit, by member · 4 + port, from the latest congestion reports (R277). -/
  cong : FMap Nat := []
  /-- The two banks of the Expert Home Table by entry (R286). -/
  bankA : FMap (BitVec 128) := []
  bankB : FMap (BitVec 128) := []
  segs : FMap EhtSeg := []
  /-- FAB_GSTAT.WREFUSED, SEGREFUSED, RREFUSED. -/
  wrefused : Bool := false
  segrefused : Bool := false
  rrefused : Bool := false
  minSvn : Nat := 0
  minSvnLock : Bool := false
  wsel : Nat := 0
  adapt : Bool := true
  thresh : Nat := 16
  wsets : FMap WSet := []
  reject : Nat := 0
  strand : Nat := 0
  malform : Nat := 0
  /-- FAB_LROUTEm, FAB_GEXIT (16 g + x) and FAB_GNMINg as written; unlisted: canonical (R295). -/
  lroute : FMap Nat := []
  gexit : FMap Nat := []
  gnmin : FMap Nat := []
  doms : FMap FabDom := []
  deriving DecidableEq, Repr

def FabSt.link (f : FabSt) (n : Nat) : Link := FMap.get {} f.links n
def FabSt.setLink (f : FabSt) (n : Nat) (l : Link) : FabSt := { f with links := FMap.set {} f.links n l }

/-- Both directions have keys (R263). -/
def Link.keyed (l : Link) : Bool := l.txKey.isSome

/-- The link carries packets: it is UP, or in a short retrain from which it returns UP with its keys (R259). -/
def Link.carries (l : Link) : Bool := l.st == .up || (l.st == .train && l.keyed)

/-- The keys, and all that was sealed, queued or counted under them, are gone. -/
def Link.noKeys (l : Link) : Link :=
  { l with
    txKey := none, rxKey := none, rxNext := none, rxOld := none, kept := [], queue := [], stream := [], owed := [], back := []
    quietAt := none }

/-- A link whose transmitter goes idle in state OFF (R253, R265). -/
def Link.toOff (l : Link) : Link := { l.noKeys with st := .off, cause := .none, short := false }

/-- Every link goes OFF (R536). -/
def FabSt.linksOff (f : FabSt) : FabSt := { f with links := f.links.map fun p => (p.1, p.2.toOff) }

end Sys2Proof.Machine
end

