-- ==== Sys2Proof/Machine/Route.lean ====
section
/-! DEFINITION. Routing (R266, R268, R269, R273 to R280): the cabling, the router's tables, the link-state view, the
egress of a packet, and the route a packet takes from its source. -/

namespace Sys2Proof.Machine

/-- The group of a chip (R268). Numbers from 8192 on stand for a chip of a group whose member this chip cannot know: where a global
link of another chip lands when the cabling is not the canonical one (log 63). -/
def grpOf (chip : Nat) : Nat := chip / 32 % 256
def memOf (chip : Nat) : Nat := chip % 32
/-- The buddy of a chip (R270). -/
def buddyOf (chip : Nat) : Nat := chip / 2 * 2 + (1 - chip % 2)

/-- The mesh link of member `a` to member `b` (R268). -/
def meshLink (a b : Nat) : Nat := (memOf b + 31 - memOf a) % 32

/-- The chip at the far end of a link in the canonical cabling (R268 to R270). -/
def canonPeer (chip n : Nat) : Nat :=
  if n < 31 then grpOf chip * 32 + (memOf chip + n + 1) % 32
  else if n = 35 then buddyOf chip
  else
    let i := 4 * memOf chip + (n - 31)
    (grpOf chip + i + 1) % 129 * 32 + (127 - i) / 4

/-- The link on which `chip`'s link `n` arrives at its peer (R268, R269). -/
def canonPeerLink (chip n : Nat) : Nat :=
  if n < 31 then 30 - n else if n = 35 then 35 else 31 + (127 - (4 * memOf chip + (n - 31))) % 4

/-- The chip and link at the far end of this chip's link `n`: by the board record's link map, else canonical (R266). -/
def FabSt.peerOf (f : FabSt) (n : Nat) : Option (Nat × Nat) :=
  match f.cable with
  | some m => (FMap.find? m n).map fun c => (c / 64, c % 64)
  | none => some (canonPeer f.chip n, canonPeerLink f.chip n)

/-- Where link `n` of chip `a`, an exit toward group `h`, lands: by this chip's own cabling, or the canonical cabling where that leads to
`h`; otherwise a member of `h` that this chip cannot know (DESIGN CHOICE, log 63). -/
def FabSt.landing (f : FabSt) (a n h : Nat) : Nat :=
  let own := if a = f.chip then (f.peerOf n).map Prod.fst else none
  match own with
  | some b => b
  | none => if grpOf (canonPeer a n) = h ∧ a < 8192 then canonPeer a n else 8192 + 32 * h

/-- FAB_LROUTEm (R295). -/
def FabSt.lrouteOf (f : FabSt) (m : Nat) : Nat :=
  (FMap.find? f.lroute m).getD (if m = memOf f.chip then 0x3F else (m + 31 - memOf f.chip) % 32)

/-- The canonical exit word of group `g` toward group `h`, exit `x`: MEMBER, PORT, VALID (R269). -/
def canonExit (g h x : Nat) : Nat :=
  if x = 0 ∧ h ≤ 128 ∧ h ≠ g then
    let i := (h + 129 - g - 1) % 129
    i / 4 + i % 4 * 32 + 128
  else 0

/-- FAB_GEXIT (R295). -/
def FabSt.gexitOf (f : FabSt) (g x : Nat) : Nat :=
  (FMap.find? f.gexit (16 * g + x)).getD (canonExit (grpOf f.chip) g x)

/-- FAB_GNMINg (R295). -/
def FabSt.gnminOf (f : FabSt) (g : Nat) : Nat := (FMap.find? f.gnmin g).getD ((g + 1) % 129)

/-- The valid exits of group `g` toward group `h`, ascending: this chip's table for its own group, the canonical one for
another. -/
def FabSt.exits (f : FabSt) (g h : Nat) : List (Nat × Nat) :=
  ((List.range 16).map fun x => if g = grpOf f.chip then f.gexitOf h x else canonExit g h x).filterMap
    fun w => if w / 128 % 2 = 1 then some (w % 32, w / 32 % 4) else none

/-- A link is UP in this chip's link-state view (R278). -/
def FabSt.linkUp (f : FabSt) (chip n : Nat) : Bool :=
  if chip = f.chip then (f.link n).carries else !(FMap.get false f.view (chip * 64 + n))

/-- The mesh link a chip uses to another of its group. -/
def FabSt.meshOf (f : FabSt) (a b : Nat) : Nat := if a = f.chip then f.lrouteOf (memOf b) else meshLink a b

/-- The links from `a` to `b` of one group, with the detours of R279; none when no hop or detour is UP. -/
def FabSt.meshPath (f : FabSt) (a b : Nat) : Option (List (Nat × Nat)) :=
  let k := f.meshOf a b
  let bud := buddyOf a
  if 8192 ≤ a then some [(a, 0)]
  else if f.linkUp a k then some [(a, k)]
  else if b = bud then (if f.linkUp a 35 then some [(a, 35)] else none)
  else if f.linkUp a 35 && f.linkUp bud (meshLink bud b) then some [(a, 35), (bud, meshLink bud b)]
  else
    match (List.range 32).find? (fun m =>
      let x := grpOf a * 32 + m
      x != a && x != b && f.linkUp a (f.meshOf a x) && f.linkUp x (meshLink x a) && f.linkUp x (meshLink x b)) with
    | some m => let x := grpOf a * 32 + m; some [(a, f.meshOf a x), (x, meshLink x b)]
    | none => none

/-- The exit of group `g` toward `h` that chip `a` uses for a packet whose flow hash is `hash` (R273): its own, or the one
the hash selects. -/
def FabSt.exitFor (f : FabSt) (a h hash : Nat) : Option (Nat × Nat) :=
  let es := f.exits (grpOf a) h
  match es.find? (fun e => e.1 == memOf a && decide (a < 8192)) with
  | some e => some e
  | none => es[hash % (max es.length 1)]?

/-- The links from chip `a` to the landing chip of group `h`, and that chip. -/
def FabSt.toGroup (f : FabSt) (a h hash : Nat) : Option (List (Nat × Nat) × Nat) :=
  match f.exitFor a h hash with
  | none => none
  | some (m, p) =>
    let x := grpOf a * 32 + m
    if !f.linkUp x (31 + p) then none
    else if x = a then some ([(a, 31 + p)], f.landing a (31 + p) h)
    else match f.meshPath a x with
      | some l => some (l ++ [(x, 31 + p)], f.landing x (31 + p) h)
      | none => none

/-- Slots of a packet: its header and its data (R260). -/
def Pkt.slots (p : Pkt) : Nat := 1 + (p.data.length + 63) / 64

/-- The flow hash of R273. -/
def flowHash (src dst : Nat) : Nat := src * 8191 + dst

/-- The links of the minimal route between two chips. -/
def FabSt.minPath (f : FabSt) (a b hash : Nat) : Option (List (Nat × Nat)) :=
  if a = b then some []
  else if grpOf a = grpOf b then f.meshPath a b
  else match f.toGroup a (grpOf b) hash with
    | none => none
    | some (l, x) =>
      if x = b then some l else match f.meshPath x b with
        | some r => some (l ++ r)
        | none => none

/-- The links of the non-minimal route through group `g`. -/
def FabSt.viaPath (f : FabSt) (a b g hash : Nat) : Option (List (Nat × Nat)) :=
  match f.toGroup a g hash with
  | none => none
  | some (l, x) => match f.minPath x b hash with
    | some r => some (l ++ r)
    | none => none

/-- A route fits R274. -/
def pathFits (l : Option (List (Nat × Nat))) : Bool := match l with | some l => decide (l.length ≤ 5) | none => false

/-- The intermediate groups of R276, in order, whose route is UP. -/
def FabSt.viaGroups (f : FabSt) (dst : Nat) : List Nat :=
  ((List.range 129).map fun i => (f.gnminOf (grpOf dst) + i) % 129).filter fun g =>
    g != grpOf f.chip && g != grpOf dst && pathFits (f.viaPath f.chip dst g (flowHash f.chip dst))

/-- The BULK bytes that wait at this chip's egress `n`. -/
def FabSt.queued (f : FabSt) (n : Nat) : Nat :=
  ((f.link n).queue.filter fun p => p.tc == 2).foldl (fun t p => t + 64 * p.slots) 0

/-- The route of a packet from this chip (R275 to R277): none when the destination is unreachable, otherwise the
intermediate group of a non-minimal route. A flow whose packets await ACK or NAK keeps its route. A BULK packet whose minimal route is
not UP takes the candidate that the hash of R277 selects (DESIGN CHOICE, log 30: the spec gives adaptive choice and flow route, and no
rule for a BULK packet in that case). -/
def FabSt.route (f : FabSt) (p : Pkt) : Option (Option Nat) :=
  let dst := p.dst.toNat
  let min? := pathFits (f.minPath f.chip dst (flowHash f.chip dst))
  let vias := f.viaGroups dst
  if p.tc.toNat = 2 then
    -- BULK: per packet (R277)
    let cand := vias[Config.bulkHash f.chip dst p.xtag.toNat % (max vias.length 1)]?
    let q (h : Nat) : Nat := match f.exitFor f.chip h (flowHash f.chip dst) with
      | some (m, pt) => if m = memOf f.chip then f.queued (31 + pt) else FMap.get 0 f.cong (m * 4 + pt)
      | none => 0
    match min?, cand with
    | true, some g =>
      if f.adapt && decide (2 * q g + f.thresh * 1024 < q (grpOf dst)) && grpOf dst != grpOf f.chip then some (some g)
      else some none
    | true, none => some none
    | false, some g => some (some g)
    | false, none => none
  else
    match f.held.find? (fun h => h.st == .sent && h.pkt.tc == p.tc && h.pkt.dst == p.dst) with
    | some h => some (if h.pkt.rtype then some h.pkt.igroup.toNat else none)
    | none => if min? then some none else match vias with
      | g :: _ => some (some g)
      | [] => none

/-- Why a router cannot send a packet on (R272, R280). -/
inductive Stuck where
  | strand | noroute
  deriving DecidableEq, Repr

/-- Cross the mesh toward member `m` of this group, with the detours of R279. `hops` is the number of links crossed so
far, `rest` the hops of the route after reaching `m`. -/
def FabSt.meshEgress (f : FabSt) (p : Pkt) (m hops rest : Nat) : Except Stuck (Nat × Pkt) :=
  let k := f.lrouteOf m
  if k = 0x3F then .error .noroute
  else if (f.link k).carries then .ok (k, { p with detour := false })
  else if p.detour then .error .strand
  else match f.meshPath f.chip (grpOf f.chip * 32 + m) with
    | some [e] => if hops + 1 + rest ≤ 5 then .ok (e.2, { p with detour := true }) else .error .strand
    | some (e :: _) => if hops + 2 + rest ≤ 5 then .ok (e.2, { p with detour := true }) else .error .strand
    | _ => .error .strand

/-- Toward group `h` (R273). -/
def FabSt.groupEgress (f : FabSt) (p : Pkt) (h hops rest : Nat) : Except Stuck (Nat × Pkt) :=
  match f.exitFor f.chip h (flowHash p.src.toNat p.dst.toNat) with
  | none => .error .noroute
  | some (m, pt) =>
    if m = memOf f.chip then
      (if (f.link (31 + pt)).carries then .ok (31 + pt, { p with detour := false }) else .error .strand)
    else f.meshEgress p m hops (rest + 1)

/-- The egress of a packet at this chip (R273); 36 is local delivery. `hops` is the number of links it crossed. -/
def FabSt.egress (f : FabSt) (p : Pkt) (hops : Nat) : Except Stuck (Nat × Pkt) :=
  let dst := p.dst.toNat
  if dst = f.chip then .ok (36, p)
  else if 5 ≤ hops then .error .strand
  else if grpOf dst = grpOf f.chip then f.meshEgress p (memOf dst) hops 0
  else if p.rtype ∧ ¬ p.phase ∧ grpOf f.chip ≠ p.igroup.toNat then
    f.groupEgress p p.igroup.toNat hops 2
  else
    f.groupEgress (if p.rtype then { p with phase := true } else p) (grpOf dst) hops 0

/-- FAB_BUDDY.SPARE and SPARE_FOR: the lowest DOWN mesh link whose detour runs over L35 (R279). -/
def FabSt.spareFor (f : FabSt) : Option Nat :=
  (List.range 31).find? fun k => (f.link k).st == .down &&
    (match f.peerOf k with
     | some (b, _) => b == buddyOf f.chip || f.linkUp (buddyOf f.chip) (meshLink (buddyOf f.chip) b)
     | none => false) && (f.link 35).carries

end Sys2Proof.Machine
end

