-- ==== Sys2Proof/Machine/LinkTx.lean ====
section
/-! DEFINITION. The transmit side of the links (R254, R257, R258, R260 to R262, R281): header slots, egress queues and their
arbitration, credits, flits and the replay buffer; and how packets leave their source (R271, R276, R521, R616). -/

namespace Sys2Proof.Machine

/-! ### Packets as slots (R260, R271) -/

/-- The header slot (R271). -/
def Pkt.header (p : Pkt) : List Byte :=
  leBytes 2 p.dst.toNat ++ leBytes 2 p.src.toNat
    ++ leBytes 1 (p.tc.toNat + 4 * p.hop.toNat + (if p.rtype then 32 else 0) + (if p.phase then 64 else 0) + (if p.detour then 128 else 0))
    ++ leBytes 1 p.igroup.toNat ++ leBytes 1 (p.slots - 1) ++ leBytes 1 p.ptype.toNat ++ leBytes 8 p.tag.toNat
    ++ leBytes 1 p.sdom.toNat ++ leBytes 1 p.ddom.toNat ++ leBytes 2 p.xtag.toNat ++ leBytes 4 p.bytes.toNat
    ++ leBytes 8 p.adr.toNat ++ leBytes 8 p.aux.toNat ++ leBytes 24 p.pspec.toNat

/-- A slot of a byte string, its tail zero. -/
def slotAt (bs : List Byte) (i : Nat) : List Byte :=
  let b := (bs.drop (64 * i)).take 64
  b ++ List.replicate (64 - b.length) 0

/-- The slots of a packet in order (R260). -/
def Pkt.stream (p : Pkt) : List Slot :=
  let bs := p.header :: (List.range (p.slots - 1)).map (slotAt p.data)
  (bs.dropLast.map fun b => ({ bytes := b } : Slot)) ++ [{ bytes := bs.getLast?.getD [], last := some p }]

/-- The virtual channel of a packet on a link: class · 5 + hop index (R281). -/
def Pkt.vc (p : Pkt) : Nat := p.tc.toNat * 5 + p.hop.toNat

/-- The packets that carry a packet's data: a token of more than 64 data slots travels as several, in order (R260, log 45). -/
def Pkt.pieces (p : Pkt) : List Pkt :=
  if p.ptype = 6 ∧ 4096 < p.data.length then
    (List.range ((p.data.length + 4095) / 4096)).map fun i =>
      let d := (p.data.drop (4096 * i)).take 4096
      { p with data := d, bytes := BitVec.ofNat 32 d.length, part := BitVec.ofNat 2 i, whole := BitVec.ofNat 15 p.data.length }
  else [p]

/-! ### Credits (R261) -/

/-- Slots of the shared pool that the peer's buffer lends to all channels together. -/
def Link.shared (l : Link) : Nat := l.owed.foldl (fun t p => t + (p.2 - 128)) 0

/-- The link holds credits for a whole packet: what is left of the 128 slots of its channel, then of the 3,584 shared (R261). -/
def Link.credit (l : Link) (p : Pkt) : Bool :=
  decide (p.slots ≤ (128 - FMap.get 0 l.owed p.vc) + (3584 - l.shared))

/-- The slots of a packet leave the buffer of the link it arrived on: their credits go back to the peer (R261). -/
def FabSt.freeIn (f : FabSt) (p : Pkt) : FabSt :=
  if p.inp.toNat < 36 then
    f.setLink p.inp.toNat { f.link p.inp.toNat with back := FMap.modify 0 (f.link p.inp.toNat).back p.vc (· + p.slots) }
  else f

/-! ### What an egress sends next (R281) -/

/-- The first packet of each virtual channel, in order of arrival, that has its credits. -/
def Link.heads (l : Link) : List Pkt :=
  (l.queue.foldl (fun (a : List Nat × List Pkt) p =>
    if a.1.contains p.vc then a else (p.vc :: a.1, if l.credit p then a.2 ++ [p] else a.2)) ([], [])).2

/-- The weight of a class (R282). -/
def WSet.of (w : WSet) (c : Nat) : Nat := if c = 0 then w.token else if c = 1 then w.reduce else if c = 2 then w.bulk else w.ctrl

/-- The CTRL bucket now: 4 bytes a nanosecond, at most 4,160 (R281). -/
def Link.level (l : Link) (now : Nat) : Nat := min 4160 (l.bucket + 4 * (now - l.bucketAt))

/-- The turn passes to the next class, which gets its quantum of weight · 256 bytes (R281). -/
def Link.pass (l : Link) (w : WSet) (keep : Bool) : Link :=
  let d := if keep then l.deficit else FMap.erase l.deficit l.turn
  let t := (l.turn + 1) % 4
  { l with turn := t, deficit := FMap.modify 0 d t (· + w.of t * 256) }

/-- Deficit round-robin over the classes (R281): within 80 turns some class has the bytes that its packet needs. -/
def Link.robin (hs : List Pkt) (w : WSet) : Nat → Link → Option (Pkt × Link)
  | 0, _ => none
  | k + 1, l =>
    match hs.find? fun p => p.tc.toNat == l.turn with
    | some p =>
      if 64 * p.slots ≤ FMap.get 0 l.deficit l.turn then
        some (p, { l with deficit := FMap.modify 0 l.deficit l.turn (· - 64 * p.slots) })
      else Link.robin hs w k (l.pass w true)
    | none => Link.robin hs w k (l.pass w false)

/-- The packet that an egress sends next (R281): CTRL while its bucket holds the packet, else the class whose turn it is; a class alone
waits for no one. -/
def Link.choose (l : Link) (w : WSet) (now : Nat) : Option (Pkt × Link) :=
  let hs := l.heads
  match hs.find? fun p => p.tc == 3 && decide (64 * p.slots ≤ l.level now) with
  | some p => some (p, { l with bucket := l.level now - 64 * p.slots, bucketAt := now })
  | none =>
    match hs with
    | [] => none
    | p :: r => if r.all fun q => q.tc == p.tc then some (p, { l with deficit := [] }) else Link.robin hs w 80 l

/-- A packet starts (R260, R261): it leaves the queue, its credits are spent, its slots follow those already started. -/
def Link.start (l : Link) (p : Pkt) : Link :=
  { l with
    queue := l.queue.erase p, owed := FMap.modify 0 l.owed p.vc (· + p.slots), stream := l.stream ++ p.stream }

/-! ### Flits (R254, R257, R262) -/

/-- The channel whose credits the next flit returns, and how many: the lowest that has any; those of REDUCE are withheld while the
collective engine accepts no more (R37, R254). -/
def Link.returns (l : Link) (hold : Bool) : Option (Nat × Nat) :=
  (List.find? (fun p => decide (0 < p.2) && !(hold && decide (5 ≤ p.1 ∧ p.1 < 10))) l.back).map fun p => (p.1, min 63 p.2)

/-- The header of the next flit (R254). -/
def Link.flitHdr (l : Link) (ret : Option (Nat × Nat)) (idle : Bool) : BitVec 32 :=
  BitVec.ofNat 32 ((l.rxSeq + 4095) % 4096 + (if l.nak then 2 ^ 12 else 0)
    + (match ret with | some (c, n) => c * 2 ^ 13 + n * 2 ^ 18 | none => 31 * 2 ^ 13)
    + (if l.kepoch then 2 ^ 24 else 0) + (if idle then 2 ^ 25 else 0))

/-- The IV of a flit: salt and sequence number (R262). -/
def flitIv (k : LinkKey) (seq : Nat) : List Byte := k.salt ++ beBytes 8 seq

/-- Ciphertext and tag of a flit, its header authenticated (R262). -/
def sealFlit (k : LinkKey) (seq : Nat) (hdr : BitVec 32) (payload : List Byte) : List Byte :=
  let h := leBytes 4 hdr.toNat
  let ct := Config.gcmEnc k.key.key (flitIv k seq) payload
  ct ++ (Config.gcmTag k.key.key (flitIv k seq) (h ++ ct)).take 16

/-- Send a flit of up to ten slots (R254, R257, R258): numbered, sealed and kept; an IDLE flit has none. -/
def Link.sendFlit (l : Link) (hold : Bool) (slots : List Slot) : Link :=
  let idle := slots.isEmpty
  let ret := l.returns hold
  let hdr := l.flitHdr ret idle
  let bs := (slots.map Slot.bytes).flatten
  let body := match l.txKey with
    | some k => sealFlit k l.txSeq hdr (bs ++ List.replicate (640 - bs.length) 0)
    | none => []
  { l with
    kept := l.kept ++ [{ epoch := l.kepoch, seq := l.txSeq, hdr := hdr, body := body, pkts := slots.filterMap Slot.last }]
    txSeq := l.txSeq + 1, keyFlits := l.keyFlits + 1, txFlits := if idle then l.txFlits else l.txFlits + 1
    nak := false
    back := match ret with | some (c, n) => FMap.modify 0 l.back c (· - n) | none => l.back }

/-- The frame of a kept flit before its parity (R254, R255): it is resent as it was first sent (R258). -/
def FlitOut.frame (x : FlitOut) : List Byte := leBytes 4 x.hdr.toNat ++ x.body

/-- The transmitter may send flits: the link is UP and no quiet window is open (R39, R253, R259). -/
def Link.sends (l : Link) : Bool := l.st == .up && l.quietAt.isNone

/-- Send what waits at an egress, and answer the packets put onto the link: full flits, and the last one filled up with padding slots. A
full replay buffer stalls it (R258). -/
def Link.drain (w : WSet) (hold : Bool) (now : Nat) : Nat → Link → List Pkt → Link × List Pkt
  | 0, l, out => (l, out)
  | k + 1, l, out =>
    if 256 ≤ l.kept.length then (l, out)
    else if 10 ≤ l.stream.length then
      Link.drain w hold now k (({ l with stream := l.stream.drop 10 } : Link).sendFlit hold (l.stream.take 10)) out
    else match l.choose w now with
      | some (p, l) => Link.drain w hold now k (l.start p) (out ++ [p])
      | none => if l.stream.isEmpty then (l, out) else (({ l with stream := [] } : Link).sendFlit hold l.stream, out)

/-- The most flits and packet starts that an egress has before it. -/
def Link.work (l : Link) : Nat := l.queue.foldl (fun t p => t + 2 + p.slots / 10) (2 + l.stream.length / 10)

/-- The active weight set (R282). -/
def FabSt.weights (f : FabSt) : WSet := FMap.get {} f.wsets f.wsel

/-- Send what waits at egress `n`. -/
def FabSt.pumpLink (f : FabSt) (now n : Nat) : FabSt :=
  let l := f.link n
  if !l.sends || (l.queue.isEmpty && l.stream.isEmpty) then f
  else
    let r := l.drain f.weights f.redHold now l.work []
    let f := f.setLink n r.1
    r.2.foldl (fun (g : FabSt) p => { (g.freeIn p) with tx := (g.freeIn p).tx ++ [(n, { p with inp := 36 })] }) f

/-- Send what waits at every egress that can send. -/
def FabSt.pump (f : FabSt) (now : Nat) : FabSt := (f.links.map Prod.fst).foldl (fun g n => g.pumpLink now n) f

/-- A frame has arrived on link `n`: in the frame time that it took the transmitter sends what waits, or an IDLE flit with the
acknowledgement, the NAK or the credits that are due (log 65). -/
def FabSt.answer (f : FabSt) (now n : Nat) : FabSt :=
  let g := f.pumpLink now n
  let l := g.link n
  if l.txSeq = (f.link n).txSeq ∧ l.sends = true ∧ l.kept.length < 256 then g.setLink n (l.sendFlit g.redHold []) else g

/-! ### From source to egress -/

/-- Put a packet at an egress; local delivery, 36, is at once (R273). -/
def FabSt.emit (f : FabSt) (n : Nat) (p : Pkt) : FabSt :=
  if n < 36 then f.setLink n { f.link n with queue := (f.link n).queue ++ [p] }
  else { f with tx := f.tx ++ [(n, { p with inp := 36 })] }

/-- Put a packet of this chip at an egress, in the pieces that it travels in. -/
def FabSt.emitAll (f : FabSt) (n : Nat) (p : Pkt) : FabSt := p.pieces.foldl (fun g q => g.emit n q) f

/-- A held packet that was refused NOROUTE. -/
def Held.noroute (h : Held) : Bool := match h.st with | .noroute _ => true | _ => false

/-- The egress and header of a packet leaving its source; none while its destination is unreachable, or counts as such after a
NAK NOROUTE (R272). -/
def FabSt.launch (f : FabSt) (p : Pkt) : Option (Nat × Pkt) :=
  if p.dst.toNat = f.chip then some (36, p)
  else if f.held.any (fun h => h.noroute && h.pkt.dst == p.dst) then none
  else match f.route p with
    | none => none
    | some g =>
      let p := { p with rtype := g.isSome, igroup := BitVec.ofNat 8 (g.getD 0), phase := false, detour := false, hop := 0 }
      match f.egress p 0 with
      | .ok r => some r
      | .error _ => none

/-- Send a packet that nothing waits for; it waits here while its destination is unreachable (R276). -/
def FabSt.put (f : FabSt) (p : Pkt) : FabSt :=
  match f.launch p with
  | some (n, q) => f.emitAll n q
  | none => { f with wait := f.wait ++ [p] }

/-- Send a packet that is held until its ACK, under the next transfer tag (R271). -/
def FabSt.putHeld (f : FabSt) (p : Pkt) (o : Owner) : FabSt :=
  let p := { p with xtag := f.nextXtag }
  let f := { f with nextXtag := f.nextXtag + 1 }
  match f.launch p with
  | some (n, q) => { f.emitAll n q with held := f.held ++ [{ pkt := q, owner := o }] }
  | none => { f with held := f.held ++ [{ pkt := p, owner := o, st := .unreach }] }

/-- Send a packet of an image to the partner over L35, held until its ACK; while L35 is DOWN it is routed as any BULK
packet (R521, R524). -/
def FabSt.putBuddy (f : FabSt) (p : Pkt) (o : Owner) : FabSt :=
  if (f.link 35).carries then
    let p := { p with xtag := f.nextXtag }
    let f := { f with nextXtag := f.nextXtag + 1 }
    { f.emitAll 35 p with held := f.held ++ [{ pkt := p, owner := o }] }
  else f.putHeld p o

/-- Try one held packet again on the route of this moment (R616). -/
def FabSt.resend (f : FabSt) (h : Held) : FabSt :=
  let others := f.held.filter fun x => x.pkt.xtag != h.pkt.xtag
  if h.pkt.img && (f.link 35).carries then { f.emitAll 35 h.pkt with held := others ++ [{ h with st := .sent }] }
  else match ({ f with held := others }).launch h.pkt with
    | some (n, q) => { f.emitAll n q with held := others ++ [{ h with pkt := q, st := .sent }] }
    | none => { f with held := others ++ [{ h with st := .unreach }] }

/-- The packets picked, and all for unreachable destinations, are tried again (R276, R616). -/
def FabSt.retry (f : FabSt) (pick : Held → Bool) : FabSt :=
  let f := { f with held := f.held.map fun (h : Held) => if pick h then { h with st := .unreach } else h }
  let f := (f.held.filter fun h => h.st == .unreach).foldl FabSt.resend f
  f.wait.foldl (fun g p => g.put p) { f with wait := [] }

/-- The link-state view has changed: stranded and unreachable packets are sent again (R272, R276, R616). -/
def FabSt.viewChanged (f : FabSt) : FabSt :=
  f.retry fun h => match h.st with | .stranded _ | .noroute _ => true | _ => false

/-- A link-state message has arrived: packets refused NOROUTE are sent again (R272). -/
def FabSt.linkNews (f : FabSt) : FabSt := f.retry Held.noroute

/-- The routing tables have changed: packets whose destination was unreachable may go (R276, R295). -/
def FabSt.tablesChanged (f : FabSt) : FabSt := f.retry fun _ => false

/-- 1 ms has passed since every NAK NOROUTE from the way to a chip: it counts as unreachable no longer (R272). -/
def FabSt.norouteEnd (f : FabSt) (dst : BitVec 13) (now : Nat) : FabSt :=
  if f.held.any (fun h => h.pkt.dst == dst && match h.st with | .noroute t => decide (now < t + 1000000) | _ => false) then f
  else f.retry fun h => h.noroute && h.pkt.dst == dst

/-- FAB_GSTAT.UNREACH: this chip holds a packet for an unreachable destination (R272, R278). -/
def FabSt.unreach (f : FabSt) : Bool := !f.wait.isEmpty || f.held.any (fun h => h.st == .unreach || h.noroute)

/-- Send a broadcast (R277, R278): one CTRL_MSG of no data to the peer of each of the links that are UP. -/
def FabSt.cast (f : FabSt) (links : List Nat) (spec : BitVec 192) : FabSt :=
  (links.filter fun n => (f.link n).st == .up).foldl (fun g n => g.emit n {
    dst := BitVec.ofNat 13 (g.link n).peer, src := BitVec.ofNat 13 g.chip, tc := 3, ptype := 8, pspec := spec }) f

end Sys2Proof.Machine
end

