-- ==== Sys2Proof/Machine/Vector.lean ====
section
/-! DEFINITION. The vector unit: what every V-slot instruction computes (R158 to R164), on the registers of a Wick. -/

namespace Sys2Proof.Machine

/-! ### exp2 and log2 (R68, R163, R164) -/

/-- c7 down to c0: (ln 2)^k / k! rounded RNE to FP32 (R163). -/
def exp2Coeffs : List Word :=
  [0x377FE5FE#32, 0x39218489#32, 0x3AAEC3FF#32, 0x3C1D955B#32, 0x3D635847#32, 0x3E75FDF0#32, 0x3F317218#32,
   0x3F800000#32]

/-- d4 down to d0: 2 / ((2k + 1) ln 2) rounded RNE to FP32 (R164). -/
def log2Coeffs : List Word := [0x3EA4258A#32, 0x3ED30BB1#32, 0x3F13BB63#32, 0x3F76384F#32, 0x4038AA3B#32]

/-- Horner's rule with fused multiply-adds, coefficients highest first. -/
def horner (x : Word) : List Word → Word
  | [] => 0
  | c :: cs => cs.foldl (fun p d => ffma .rne p x d) c

/-- An exact integer as a value. -/
def intVal (n : Int) : FVal := .fin (decide (n < 0)) n.natAbs 0

/-- A finite value rounded to an integer, ties to even. -/
def roundFin (neg : Bool) (m : Nat) (e : Int) : Int :=
  let n : Int := (roundInt .rne m e : Nat)
  if neg then -n else n

/-- VEXP2 of one lane. -/
def vexp2 (x : Word) : Word :=
  match f32 x with
  | .nan => qnan32
  | .inf neg => if neg then 0 else pinf32
  | .fin neg m e =>
    if m = 0 then one32
    else if (FVal.fin neg m e).lt (intVal 128) = false then pinf32
    else if (intVal (-150)).lt (FVal.fin neg m e) = false then 0
    else
      let n := roundFin neg m e
      let f := toF32 .rne ((FVal.fin neg m e).add (intVal (-n)))
      match f32 (horner f exp2Coeffs) with
      | .fin pn pm pe => toF32 .rne (.fin pn pm (pe + n))
      | v => toF32 .rne v

/-- VLOG2 of one lane. -/
def vlog2 (x : Word) : Word :=
  match f32 x with
  | .nan => qnan32
  | .inf neg => if neg then qnan32 else pinf32
  | .fin neg m e =>
    if m = 0 then ninf32
    else if neg then qnan32
    else
      -- the unbiased exponent of the value, and its significand in [1, 2)
      let e1 : Int := (Nat.log2 m : Int) + e
      let m1 := toF32 .rne (.fin false m (-(Nat.log2 m : Int)))
      let big := (FVal.lt (f32 0x3FB504F3#32) (f32 m1))
      let m2 := if big then fmul .rne m1 0x3F000000#32 else m1
      let e2 := if big then e1 + 1 else e1
      let t := fdiv .rne (fsub .rne m2 one32) (fadd .rne m2 one32)
      let q := fmul .rne t t
      let r := fmul .rne t (horner q log2Coeffs)
      fadd .rne (toF32 .rne (intVal e2)) r

/-! ### Classes (R159) -/

/-- The one-hot class mask of a lane. -/
def vclass (x : Word) : Word :=
  let ex := fld (x.zeroExtend 64) 23 8
  let man := fld (x.zeroExtend 64) 0 23
  let neg := x.msb
  let i : Nat :=
    if ex = 255 then (if man = 0 then (if neg then 0 else 7) else if man < 2 ^ 22 then 8 else 9)
    else if ex = 0 then
      (if man = 0 then (if neg then 3 else 4) else if neg then 2 else 5)
    else if neg then 1 else 6
  BitVec.ofNat 32 (2 ^ i)

/-! ### Lane forms and conversion (R129, R160) -/

/-- The mask of a format's lane form (R129). -/
def laneMask : Fmt → Word
  | .fp32 => 0xFFFFFFFF#32
  | .bf16 | .fp16 => 0xFFFF#32
  | .e4m3 | .e5m2 | .int8 | .e8m0 => 0xFF#32
  | .mx6e3m2 | .mx6e2m3 => 0xFF3F#32
  | .mx4 => 0xFF0F#32

/-- A lane widened to FP32 (R54); an FP32 lane stays as it is. -/
def laneWiden (f : Fmt) (x : Word) : Word :=
  if f.isMX then mxWiden f (fld (x.zeroExtend 64) 8 8) (fld (x.zeroExtend 64) 0 f.bits)
  else f.widen (fld (x.zeroExtend 64) 0 f.bits)

/-- The rounding of lane `i`: RNE, RTZ, or the draw for element base + i (R130). -/
def laneRnd (k : Wick) (w : DWord) (i : Nat) : Rnd :=
  match fld w 32 2 with
  | 0 => .rne
  | 1 => .rtz
  | _ =>
    let sg := fld w 49 6
    let ts := k.rs (sg + 2)
    .sr (draw (k.rs sg) (k.rs (sg + 1)) (ts.extractLsb' 0 24) (ts.extractLsb' 24 8)
      (k.rs (sg + 3) + BitVec.ofNat 64 i)).toNat

/-- VCVT: every lane of the result, before the predicate. -/
def vcvt (k : Wick) (w : DWord) (fs fd : Fmt) (src : List Word) : List Word :=
  if fs = fd then src.map (fun x => x &&& laneMask fs)
  else
    let wide := src.map (laneWiden fs)
    if fd.isMX then
      let scales := (List.range 8).map (fun b => mxScale fd ((wide.drop (32 * b)).take 32))
      mkVec fun i =>
        let sc := scales.getD (i / 32) 0
        BitVec.ofNat 32 (sc * 256 + mxNarrow fd (laneRnd k w i) sc (lane wide i))
    else if fd = .fp32 then wide
    else mkVec fun i => BitVec.ofNat 32 (fd.narrow (laneRnd k w i) (lane wide i))

/-- The BADFMT, BADRM and BADSTREAM faults of VCVT (R45, R49, R58, R160). -/
def vcvtFlts (k : Wick) (w : DWord) : List Flt :=
  let fs := fmtOf w 34
  let fd := fmtOf w 38
  let rm := fld w 32 2
  fltIf (fs.isNone || fd.isNone || fd == some .e8m0 || (fs == some .e8m0 && fd != some .fp32)) .badfmt
    ++ fltIf (rm == 3 || (rm == 2 && fd == some .fp32)) .badrm
    ++ fltIf (rm == 2 && tb (k.rs (fld w 49 6 + 2)) 31) .badstream

/-! ### The V slot -/

/-- Source B of lane `i` (R128). -/
def srcB (k : Wick) (w : DWord) (i : Nat) : Word :=
  if tb w 42 then (k.rs (fld w 43 6)).extractLsb' 0 32 else lane (k.rv (fld w 18 5)) i

/-- Is lane `i` active (R117)? -/
def active (k : Wick) (w : DWord) (i : Nat) : Bool := xor ((k.rp (fld w 28 3)).getLsbD i) (tb w 31)

/-- The rounding mode of vector arithmetic (R49). -/
def vecRnd (w : DWord) : Rnd := if fld w 32 2 = 1 then .rtz else .rne

/-- A result written to the active lanes of VD; the others keep their values (R117). -/
def vLanes (k : Wick) (w : DWord) (f : Nat → Word) : List Act :=
  let old := k.rv (fld w 8 5)
  [.v (fld w 8 5) (mkVec fun i => if active k w i then f i else lane old i)]

/-- Arithmetic with a rounding mode: reserved and stochastic modes fault (R49). -/
def vRounded (k : Wick) (w : DWord) (f : Rnd → Nat → Word) : SlotR :=
  { flts := fltIf (2 ≤ fld w 32 2) .badrm, acts := vLanes k w (f (vecRnd w)) }

def vA (k : Wick) (w : DWord) (i : Nat) : Word := lane (k.rv (fld w 13 5)) i

/-- VADD (R158). -/
def vAdd (k : Wick) (w : DWord) : SlotR := vRounded k w fun r i => fadd r (vA k w i) (srcB k w i)
/-- VSUB (R158). -/
def vSub (k : Wick) (w : DWord) : SlotR := vRounded k w fun r i => fsub r (vA k w i) (srcB k w i)
/-- VMUL (R158). -/
def vMul (k : Wick) (w : DWord) : SlotR := vRounded k w fun r i => fmul r (vA k w i) (srcB k w i)
/-- VFMA (R158). -/
def vFma (k : Wick) (w : DWord) : SlotR :=
  vRounded k w fun r i => ffma r (vA k w i) (srcB k w i) (lane (k.rv (fld w 23 5)) i)
/-- VDIV (R158). -/
def vDiv (k : Wick) (w : DWord) : SlotR := vRounded k w fun r i => fdiv r (vA k w i) (srcB k w i)
/-- VSQRT (R158). -/
def vSqrt (k : Wick) (w : DWord) : SlotR := vRounded k w fun r i => fsqrt r (vA k w i)
/-- VMAX, VMIN (R67). -/
def vMax (k : Wick) (w : DWord) : SlotR := { acts := vLanes k w fun i => fmax (vA k w i) (srcB k w i) }
def vMin (k : Wick) (w : DWord) : SlotR := { acts := vLanes k w fun i => fmin (vA k w i) (srcB k w i) }
/-- VNEG, VABS (R158), VSIGN (R67). -/
def vNeg (k : Wick) (w : DWord) : SlotR := { acts := vLanes k w fun i => fneg (vA k w i) }
def vAbs (k : Wick) (w : DWord) : SlotR := { acts := vLanes k w fun i => fabs (vA k w i) }
def vSign (k : Wick) (w : DWord) : SlotR := { acts := vLanes k w fun i => fsign (vA k w i) }
/-- VEXP2 (R163), VLOG2 (R164). -/
def vExp2 (k : Wick) (w : DWord) : SlotR := { acts := vLanes k w fun i => vexp2 (vA k w i) }
def vLog2 (k : Wick) (w : DWord) : SlotR := { acts := vLanes k w fun i => vlog2 (vA k w i) }
/-- VCLASS (R159). -/
def vClass (k : Wick) (w : DWord) : SlotR := { acts := vLanes k w fun i => vclass (vA k w i) }

/-- A compare into predicate PD: active lanes only (R117, R158). -/
def vCmp (k : Wick) (w : DWord) (f : Word → Word → Bool) : SlotR :=
  let old := k.rp (fld w 8 3)
  { acts := [.p (fld w 8 3) (mkPred fun i => if active k w i then f (vA k w i) (srcB k w i) else old.getLsbD i)] }

def vCmpEq (k : Wick) (w : DWord) : SlotR := vCmp k w fcmpEq
def vCmpNe (k : Wick) (w : DWord) : SlotR := vCmp k w fcmpNe
def vCmpLt (k : Wick) (w : DWord) : SlotR := vCmp k w fcmpLt
def vCmpLe (k : Wick) (w : DWord) : SlotR := vCmp k w fcmpLe

/-- VSEL: every lane is written (R131, R158). -/
def vSel (k : Wick) (w : DWord) : SlotR :=
  { acts := [.v (fld w 8 5) (mkVec fun i => if active k w i then vA k w i else srcB k w i)] }

/-- VCVT (R160). -/
def vCvt (k : Wick) (w : DWord) : SlotR :=
  match fmtOf w 34, fmtOf w 38 with
  | some fs, some fd =>
    let res := vcvt k w fs fd (k.rv (fld w 13 5))
    { flts := vcvtFlts k w, acts := vLanes k w (lane res) }
  | _, _ => { flts := vcvtFlts k w }

/-- VRAND (R161). -/
def vRand (k : Wick) (w : DWord) : SlotR :=
  let sg := fld w 49 6
  let ts := k.rs (sg + 2)
  { flts := fltIf (tb ts 31) .badstream
    acts := vLanes k w fun i => (draw (k.rs sg) (k.rs (sg + 1)) (ts.extractLsb' 0 24) (ts.extractLsb' 24 8)
      (k.rs (sg + 3) + BitVec.ofNat 64 i)).zeroExtend 32 }

/-- A reduction over the active lanes into every lane of VD (R64, R131). -/
def vRed (k : Wick) (w : DWord) (f : Word → Word → Word) (unit : Word) : SlotR :=
  let r := pairTree f 8 (mkVec fun i => if active k w i then vA k w i else unit)
  { acts := [.v (fld w 8 5) (List.replicate 256 r)] }

def vRedSum (k : Wick) (w : DWord) : SlotR := vRed k w (fadd .rne) 0
def vRedMax (k : Wick) (w : DWord) : SlotR := vRed k w fmax ninf32
def vRedMin (k : Wick) (w : DWord) : SlotR := vRed k w fmin pinf32

/-- The integer and bitwise lane instructions (R162). -/
def vInt (k : Wick) (w : DWord) (f : Word → Word → Word) : SlotR :=
  { acts := vLanes k w fun i => f (vA k w i) (srcB k w i) }

def vIadd (k : Wick) (w : DWord) : SlotR := vInt k w (· + ·)
def vIsub (k : Wick) (w : DWord) : SlotR := vInt k w (· - ·)
def vImul (k : Wick) (w : DWord) : SlotR := vInt k w (· * ·)
def vAnd (k : Wick) (w : DWord) : SlotR := vInt k w (· &&& ·)
def vOr (k : Wick) (w : DWord) : SlotR := vInt k w (· ||| ·)
def vXor (k : Wick) (w : DWord) : SlotR := vInt k w (· ^^^ ·)
def vShl (k : Wick) (w : DWord) : SlotR := vInt k w fun a b => a <<< (b.toNat % 32)
def vShr (k : Wick) (w : DWord) : SlotR := vInt k w fun a b => a >>> (b.toNat % 32)
def vSra (k : Wick) (w : DWord) : SlotR := vInt k w fun a b => a.sshiftRight (b.toNat % 32)

/-- VPERM (R162). -/
def vPerm (k : Wick) (w : DWord) : SlotR :=
  { acts := vLanes k w fun i => lane (k.rv (fld w 13 5)) ((srcB k w i).toNat % 256) }

/-- The predicate instructions act on all 256 bits (R162). -/
def pAnd (k : Wick) (w : DWord) : SlotR := { acts := [.p (fld w 8 3) (k.rp (fld w 13 3) &&& k.rp (fld w 18 3))] }
def pOr (k : Wick) (w : DWord) : SlotR := { acts := [.p (fld w 8 3) (k.rp (fld w 13 3) ||| k.rp (fld w 18 3))] }
def pXor (k : Wick) (w : DWord) : SlotR := { acts := [.p (fld w 8 3) (k.rp (fld w 13 3) ^^^ k.rp (fld w 18 3))] }
def pNot (k : Wick) (w : DWord) : SlotR := { acts := [.p (fld w 8 3) (~~~ (k.rp (fld w 13 3)))] }

/-- The instruction has a source B (R128, R142). -/
def hasB (op : Nat) : Bool :=
  decide (op ≤ 0x44) || op == 0x46 || op == 0x47 || (decide (0x50 ≤ op) && decide (op ≤ 0x53)) || op == 0x55 || decide (0x68 ≤ op)

/-- The vector registers a V-slot word reads or writes. -/
def usesV (w : DWord) : List Nat :=
  let op := opOf w
  if op = 0 ∨ (0x74 ≤ op ∧ op ≤ 0x77) then []
  else (if op = 0x59 then [] else [fld w 13 5]) ++ (if hasB op && !tb w 42 then [fld w 18 5] else [])
    ++ (if op = 0x43 then [fld w 23 5] else []) ++ (if 0x50 ≤ op ∧ op ≤ 0x53 then [] else [fld w 8 5])

/-- The V slot (R142). -/
def slotV (k : Wick) (w : DWord) : SlotR :=
  match opOf w with
  | 0x40 => vAdd k w | 0x41 => vSub k w | 0x42 => vMul k w | 0x43 => vFma k w | 0x44 => vDiv k w
  | 0x45 => vSqrt k w | 0x46 => vMax k w | 0x47 => vMin k w | 0x48 => vNeg k w | 0x49 => vAbs k w
  | 0x4A => vSign k w | 0x4B => vExp2 k w | 0x4C => vLog2 k w
  | 0x50 => vCmpEq k w | 0x51 => vCmpNe k w | 0x52 => vCmpLt k w | 0x53 => vCmpLe k w
  | 0x54 => vClass k w | 0x55 => vSel k w | 0x58 => vCvt k w | 0x59 => vRand k w
  | 0x60 => vRedSum k w | 0x61 => vRedMax k w | 0x62 => vRedMin k w
  | 0x68 => vIadd k w | 0x69 => vIsub k w | 0x6A => vImul k w | 0x6B => vAnd k w | 0x6C => vOr k w
  | 0x6D => vXor k w | 0x6E => vShl k w | 0x6F => vShr k w | 0x70 => vSra k w | 0x71 => vPerm k w
  | 0x74 => pAnd k w | 0x75 => pOr k w | 0x76 => pXor k w | 0x77 => pNot k w
  | _ => {}

end Sys2Proof.Machine
end

