-- ==== Sys2Proof/Machine/Matrix.lean ====
section
/-! DEFINITION. The matrix engine: the M slot (R150 to R157), its checks at issue, the arithmetic of MMA and of the
attention blocks when a queued operation executes. -/

namespace Sys2Proof.Machine

/-- The pairs of matrix operand formats R46 accepts. -/
def pairOk (a b : Fmt) : Bool :=
  match a, b with
  | .bf16, .bf16 | .fp16, .fp16 | .int8, .int8 => true
  | _, _ =>
    ((a == .e4m3 || a == .e5m2) && (b == .e4m3 || b == .e5m2)) || (a.isMX && b.isMX)

/-- The chunk size of R60, and its number of tree levels. -/
def chunkOf (f : Fmt) : Nat := match f with | .bf16 | .fp16 => 16 | _ => 32
def chunkLv (f : Fmt) : Nat := match f with | .bf16 | .fp16 => 4 | _ => 5

/-- Bytes of `n` contiguous elements. -/
def elemBytes (f : Fmt) (n : Nat) : Nat := n * f.bits / 8

/-- Data bytes of one MX block: 16 for FP4, 24 for FP6 (R44, R151). -/
def blkBytes (f : Fmt) : Nat := match f with | .mx4 => 16 | _ => 24

/-- How a queued operation reads a byte: address register and displacement. -/
abbrev Rd := DWord → Nat → Byte

/-- The `bits`-wide field at bit displacement `b` from an address. -/
def rdBits (rd : Rd) (a : DWord) (b bits : Nat) : Nat :=
  let lo := (rd a (b / 8)).toNat
  let hi := if b % 8 + bits ≤ 8 then 0 else (rd a (b / 8 + 1)).toNat
  (lo + 256 * hi) / 2 ^ (b % 8) % 2 ^ bits

/-- Element `i` of the contiguous run of format `f` at displacement `d`. -/
def rdElem (rd : Rd) (a : DWord) (d : Nat) (f : Fmt) (i : Nat) : Nat :=
  if f.bits = 16 then leNat [rd a (d + 2 * i), rd a (d + 2 * i + 1)]
  else rdBits rd a (8 * d + f.bits * i) f.bits

/-! ### Chunked accumulation (R60 to R63) -/

/-- Add chunks of `ch` products (padded with +0.0) to an accumulator in ascending order, `n` chunks. -/
def accChunks (ch lv : Nat) (f : Nat → Word) : Nat → Nat → Word → Word
  | 0, _, acc => acc
  | n + 1, c, acc =>
    accChunks ch lv f n (c + 1)
      (fadd .rne acc (pairTree (fadd .rne) lv ((List.range ch).map fun i => f (c * ch + i))))

/-- A product of two elements rounded once to FP32 (R60). -/
def prod32 (fa fb : Fmt) (a b : Nat) : Word := toF32 .rne ((fa.value a).mul (fb.value b))

/-- One dot product of length `len` added to `acc`, in the chunk order of the pair (R60, R61); products beyond `len` are
+0.0. -/
def dotAcc (fa fb : Fmt) (len : Nat) (a b : Nat → Nat) (acc : Word) : Word :=
  let ch := chunkOf fa
  accChunks ch (chunkLv fa) (fun k => if k < len then prod32 fa fb (a k) (b k) else 0) ((len + ch - 1) / ch) 0 acc

/-- The INT8 form: each chunk summed exactly (R63). -/
def dotInt (len : Nat) (a b : Nat → Nat) : Nat → Nat → Word → Word
  | 0, _, acc => acc
  | n + 1, c, acc =>
    let s : Int := (List.range 32).foldl
      (fun t i => if c * 32 + i < len then t + int8Val (a (c * 32 + i)) * int8Val (b (c * 32 + i)) else t) 0
    dotInt len a b n (c + 1) (fadd .rne acc (toF32 .rne (intVal s)))

/-- The MX form: each chunk sum scaled by the two blocks' scales (R62). -/
def dotMX (fa fb : Fmt) (a b sa sb : Nat → Nat) : Nat → Nat → Word → Word
  | 0, _, acc => acc
  | n + 1, c, acc =>
    let s := pairTree (fadd .rne) 5 ((List.range 32).map fun i => prod32 fa fb (a (c * 32 + i)) (b (c * 32 + i)))
    let x :=
      if sa c = 255 ∨ sb c = 255 then qnan32
      else match f32 s with
        | .fin neg m e => toF32 .rne (.fin neg m (e + (sa c : Int) + (sb c : Int) - 254))
        | v => toF32 .rne v
    dotMX fa fb a b sa sb n (c + 1) (fadd .rne acc x)

/-! ### MMA (R124, R125, R150, R151) -/

/-- The result tile of an MMA executed with reader `rd` on tile `old`. -/
def mmaTile (rd : Rd) (op : MatOp) (old : List Word) : List Word :=
  let w := op.word
  match fmtOf w 20, fmtOf w 24 with
  | some fa, some fb =>
    let len := fld w 36 12
    let sa := fld (op.sc.getD 0 0) 0 32
    let sb := fld (op.sc.getD 0 0) 32 32
    let aA := op.adr.getD 0 0
    let aB := op.adr.getD 1 0
    let a (r k : Nat) : Nat :=
      if tb w 54 then rdElem rd aA (k * sa) fa r else rdElem rd aA (r * sa) fa k
    let b (c k : Nat) : Nat :=
      if tb w 55 then rdElem rd aB (c * sb) fb k else rdElem rd aB (k * sb) fb c
    mkTile fun r c =>
      let acc := if tb w 11 then 0 else lane old (64 * r + c)
      if fa.isMX then
        dotMX fa fb (a r) (b c)
          (fun blk => (rd (op.adr.getD 2 0) (r * sa / blkBytes fa + blk)).toNat)
          (fun blk => (rd (op.adr.getD 3 0) (c * sb / blkBytes fb + blk)).toNat) (len / 32) 0 acc
      else if fa = .int8 then dotInt len (a r) (b c) ((len + 31) / 32) 0 acc
      else dotAcc fa fb len (a r) (b c) acc
  | _, _ => old

/-- The alignment of a row's scale bytes (R125). -/
def scaleAlign (n : Nat) : Nat := if n ≤ 1 then 1 else if n = 2 then 2 else if n ≤ 4 then 4 else 8

/-- Faults of an operand range: space, alignment to `al`, bounds of `size` bytes; operands in LOCAL or LANTERN only. -/
def sramFlts (a : DWord) (al size : Nat) : List Flt :=
  match spaceOf a with
  | some .loc => fltIf (offOf a % al != 0) .misalign a ++ fltIf (spaceSize .loc < offOf a + size) .bounds a
  | some .lant => fltIf (offOf a % al != 0) .misalign a ++ fltIf (spaceSize .lant < offOf a + size) .bounds a
  | _ => [⟨.badspace, a⟩]

/-- The size in bytes of an operand of MMA: 64 rows of `len` elements, or `len` rows of 64. -/
def mmaExtent (f : Fmt) (major : Bool) (len stride : Nat) : Nat :=
  if major then (len - 1) * stride + elemBytes f 64 else 63 * stride + elemBytes f len

/-- The faults MMA raises at issue (R125, R151, R152). -/
def mmaFlts (k : Wick) (w : DWord) : List Flt :=
  let len := fld w 36 12
  let st := k.rs (fld w 48 6)
  let sa := fld st 0 32
  let sb := fld st 32 32
  let aA := k.ra (fld w 12 4)
  let aB := k.ra (fld w 16 4)
  match fmtOf w 20, fmtOf w 24 with
  | some fa, some fb =>
    let n := len / 32
    let strideBad (f : Fmt) (s : Nat) : Bool :=
      s % 64 != 0 || ((f == .mx6e3m2 || f == .mx6e2m3) && s % 192 != 0)
    fltIf (!pairOk fa fb) .badfmt
      ++ sramFlts aA 64 (mmaExtent fa (tb w 54) len sa) ++ fltIf (strideBad fa sa) .misalign aA
      ++ sramFlts aB 64 (mmaExtent fb (!tb w 55) len sb) ++ fltIf (strideBad fb sb) .misalign aB
      ++ (if fa.isMX && fb.isMX then
            let cA := k.ra (fld w 28 4)
            let cB := k.ra (fld w 32 4)
            sramFlts cA (scaleAlign n) (63 * sa / blkBytes fa + n)
              ++ fltIf (sa / blkBytes fa % scaleAlign n != 0) .misalign cA
              ++ sramFlts cB (scaleAlign n) (63 * sb / blkBytes fb + n)
              ++ fltIf (sb / blkBytes fb % scaleAlign n != 0) .misalign cB
          else [])
  | _, _ => [⟨.badfmt, 0⟩]

/-- The advances of POST (R125). -/
def mmaPost (k : Wick) (w : DWord) : List Act :=
  if tb w 56 then
    let len := fld w 36 12
    let st := k.rs (fld w 48 6)
    match fmtOf w 20, fmtOf w 24 with
    | some fa, some fb =>
      let dA : Nat := if tb w 54 then len * fld st 0 32 else elemBytes fa len
      let dB : Nat := if tb w 55 then elemBytes fb len else len * fld st 32 32
      [.a (fld w 12 4) (addOff (k.ra (fld w 12 4)) dA), .a (fld w 16 4) (addOff (k.ra (fld w 16 4)) dB)]
        ++ (if fa.isMX && fb.isMX then
              [.a (fld w 28 4) (addOff (k.ra (fld w 28 4)) (len / 32 : Nat)),
               .a (fld w 32 4) (addOff (k.ra (fld w 32 4)) (len / 32 : Nat))]
            else [])
    | _, _ => []
  else []

/-! ### Hazards with queued operations (R148, R152) -/

/-- Tiles a queued operation reads or writes. -/
def MatOp.tiles (o : MatOp) : List Nat :=
  let td := fld o.word 8 3
  if opOf o.word = 0x09 then [td, td + 1, td + 2] else [td]

/-- The vector register a queued attention block reads (and, forward, writes). -/
def MatOp.vecs (o : MatOp) : List Nat := if opOf o.word = 0x01 then [] else [fld o.word 21 5]

/-- A tile is named by a queued operation. -/
def Wick.tileBusy (k : Wick) (t : Nat) : Bool := k.mq.any fun o => o.tiles.contains t
/-- A vector register is named by a queued attention block. -/
def Wick.vecBusy (k : Wick) (v : Nat) : Bool := k.mq.any fun o => o.vecs.contains v
/-- The matrix queue is full (R148). -/
def Wick.mqFull (k : Wick) : Bool := 2 ≤ k.mq.length

/-! ### The M slot -/

/-- MMA at issue (R150, R152). -/
def mMma (k : Wick) (w : DWord) : SlotR :=
  { flts := mmaFlts k w
    acts := .mat { word := w, pc := k.pc
                   adr := [k.ra (fld w 12 4), k.ra (fld w 16 4), k.ra (fld w 28 4), k.ra (fld w 32 4)]
                   sc := [k.rs (fld w 48 6)] } :: mmaPost k w
    stall := k.mqFull }

/-- TZERO (R153). -/
def mTzero (k : Wick) (w : DWord) : SlotR :=
  { acts := [.t (fld w 8 3) zeroTile], stall := k.tileBusy (fld w 8 3) }
/-- TCOPY (R153). -/
def mTcopy (k : Wick) (w : DWord) : SlotR :=
  { acts := [.t (fld w 8 3) (k.rt (fld w 11 3))], stall := k.tileBusy (fld w 8 3) || k.tileBusy (fld w 11 3) }
/-- TGET: rows 4 RG to 4 RG + 3 (R153). -/
def mTget (k : Wick) (w : DWord) : SlotR :=
  { acts := [.v (fld w 14 5) (mkVec fun i => lane (k.rt (fld w 11 3)) (256 * fld w 19 4 + i))]
    stall := k.tileBusy (fld w 11 3) || k.vecBusy (fld w 14 5) }
/-- TPUT (R153). -/
def mTput (k : Wick) (w : DWord) : SlotR :=
  let g := fld w 19 4
  let old := k.rt (fld w 8 3)
  let src := k.rv (fld w 14 5)
  { acts := [.t (fld w 8 3) ((List.range 4096).map fun i => if i / 256 = g then lane src (i % 256) else lane old i)]
    stall := k.tileBusy (fld w 8 3) || k.vecBusy (fld w 14 5) }

/-- The formats of attention blocks (R127). -/
def attnFmt (f : Option Fmt) : Bool :=
  match f with
  | some .bf16 | some .fp16 | some .e4m3 | some .e5m2 => true
  | _ => false

/-- The checks of an attention block at issue (R154); `n` address registers are read. The stride is sSC[31:0]: R154 has
sSC[63:32] zero and names no fault, and the model ignores those bits (DESIGN CHOICE, log 56). -/
def attnFlts (k : Wick) (w : DWord) (n : Nat) : List Flt :=
  let ab := fld w 11 4
  let sc := fld w 15 6
  let st := fld (k.rs sc) 0 32
  let kl := fld (k.rs (sc + 1)) 0 16
  let fq := fmtOf w 26
  let fv := fmtOf w 30
  let esz (f : Option Fmt) : Nat := match f with | some g => g.bits / 8 | none => 1
  let ext (rows : Nat) (f : Option Fmt) : Nat := (rows - 1) * st + 64 * esz f
  fltIf (!attnFmt fq || !attnFmt fv) .badfmt
    ++ sramFlts (k.ra ab) 64 (ext 64 fq) ++ sramFlts (k.ra (ab + 1)) 64 (ext kl fq)
    ++ sramFlts (k.ra (ab + 2)) 64 (ext kl fv)
    ++ (if n = 4 then sramFlts (k.ra (ab + 3)) 64 (ext 64 fv) else [])
    ++ fltIf (st % 64 != 0) .misalign (k.ra ab)
    ++ fltIf (kl == 0 || 64 < kl) .bounds (k.ra (ab + 1))

/-- The queue entry of an attention block: its four address and three scalar registers, read at issue. -/
def attnOp (k : Wick) (w : DWord) : MatOp :=
  let ab := fld w 11 4
  let sc := fld w 15 6
  { word := w, pc := k.pc, adr := [k.ra ab, k.ra (ab + 1), k.ra (ab + 2), k.ra (ab + 3)]
    sc := [k.rs sc, k.rs (sc + 1), k.rs (sc + 2)] }

/-- ATTN_BLK_FWD at issue (R154). -/
def mAttnFwd (k : Wick) (w : DWord) : SlotR :=
  { flts := attnFlts k w 3, acts := [.mat (attnOp k w)], stall := k.mqFull }
/-- ATTN_BLK_BWD at issue (R154). -/
def mAttnBwd (k : Wick) (w : DWord) : SlotR :=
  { flts := attnFlts k w 4, acts := [.mat (attnOp k w)], stall := k.mqFull }

/-- The M slot (R141). -/
def slotM (k : Wick) (w : DWord) : SlotR :=
  match opOf w with
  | 0x01 => mMma k w
  | 0x02 => mTzero k w
  | 0x03 => mTcopy k w
  | 0x04 => mTget k w
  | 0x05 => mTput k w
  | 0x08 => mAttnFwd k w
  | 0x09 => mAttnBwd k w
  | _ => {}

/-! ### Attention blocks (R155 to R157) -/

/-- The operands of an attention block as read when it executes. -/
structure AttnIn where
  fq : Fmt
  fv : Fmt
  kl : Nat
  off : Int
  scale : Word
  mask : Nat
  q : Nat → Nat → Nat
  key : Nat → Nat → Nat
  v : Nat → Nat → Nat
  dout : Nat → Nat → Nat

/-- Read the operands of a queued attention block. -/
def attnIn (rd : Rd) (op : MatOp) : AttnIn :=
  let w := op.word
  let fq := (fmtOf w 26).getD .bf16
  let fv := (fmtOf w 30).getD .bf16
  let st := fld (op.sc.getD 0 0) 0 32
  let s1 := op.sc.getD 1 0
  { fq := fq, fv := fv, kl := fld s1 0 16, off := sx 16 (fld s1 16 16)
    scale := (op.sc.getD 2 0).extractLsb' 0 32, mask := fld w 34 2
    q := fun i h => rdElem rd (op.adr.getD 0 0) (i * st) fq h
    key := fun j h => rdElem rd (op.adr.getD 1 0) (j * st) fq h
    v := fun j h => rdElem rd (op.adr.getD 2 0) (j * st) fv h
    dout := fun i h => rdElem rd (op.adr.getD 3 0) (i * st) fv h }

/-- A score (R155). -/
def score (x : AttnIn) (i j : Nat) : Word :=
  if x.kl ≤ j then ninf32
  else if x.mask = 1 ∧ x.off + (i : Int) - (j : Int) < 0 then ninf32
  else fmul .rne x.scale (dotAcc x.fq x.fq 64 (x.q i) (x.key j) 0)

/-- One row of ATTN_BLK_FWD: new running maximum, new log-sum-exp, and the output row; none where the row has
contributed nothing (R69, R156). -/
def attnFwdRow (x : AttnIn) (mOld lOld : Word) (o : Nat → Word) (i : Nat) : Option (Word × Word × List Word) :=
  let sc := (List.range 64).map (score x i)
  let mNew := fmax mOld (pairTree fmax 6 sc)
  if mNew = ninf32 then none
  else
    let ex := fun j => vexp2 (fsub .rne (sc.getD j ninf32) mNew)
    let sum := fadd .rne (vexp2 (fsub .rne lOld mNew))
      (pairTree (fadd .rne) 6 ((List.range 64).map fun j => if j < x.kl then ex j else 0))
    let lNew := fadd .rne mNew (vlog2 sum)
    let a := vexp2 (fsub .rne lOld lNew)
    let p := (List.range 64).map fun j => x.fv.narrow .rne (vexp2 (fsub .rne (sc.getD j ninf32) lNew))
    let row := (List.range 64).map fun c =>
      ffma .rne a (o c) (dotAcc x.fv x.fv x.kl (fun j => p.getD j 0) (fun j => x.v j c) 0)
    some (mNew, lNew, row)

/-- ATTN_BLK_FWD: the output tile and the state vector after the block (R156). -/
def attnFwd (rd : Rd) (op : MatOp) (tile vs : List Word) : List Word × List Word :=
  let x := attnIn rd op
  let rows := (List.range 64).map fun i =>
    attnFwdRow x (lane vs i) (lane vs (64 + i)) (fun c => lane tile (64 * i + c)) i
  (mkTile fun r c => match rows.getD r none with
      | some (_, _, row) => lane row c
      | none => lane tile (64 * r + c),
   mkVec fun i =>
      if i < 64 then (match rows.getD i none with | some (m, _, _) => m | none => lane vs i)
      else if i < 128 then (match rows.getD (i - 64) none with | some (_, l, _) => l | none => lane vs i)
      else lane vs i)

/-- The constant LN2 of R157. -/
def ln2_32 : Word := 0x3F317218#32

/-- A sum along an index of length 64 added to `acc` in the chunk order of format `f`; products where `live` is false
are +0.0 (R69: a row with log-sum-exp −∞ contributes +0). -/
def bwdAcc (f : Fmt) (live : Nat → Bool) (a b : Nat → Nat) (acc : Word) : Word :=
  let ch := chunkOf f
  accChunks ch (chunkLv f) (fun k => if live k then prod32 f f (a k) (b k) else 0) (64 / ch) 0 acc

/-- ATTN_BLK_BWD: dQ, dK and dV after the block (R157). -/
def attnBwd (rd : Rd) (op : MatOp) (tq tk tv vs : List Word) : List Word × List Word × List Word :=
  let x := attnIn rd op
  let c2 := fmul .rne x.scale ln2_32
  let dead (i : Nat) : Bool := lane vs (64 + i) == ninf32
  let p (i j : Nat) : Word := if dead i then 0 else vexp2 (fsub .rne (score x i j) (lane vs (64 + i)))
  let dp (i j : Nat) : Word := dotAcc x.fv x.fv 64 (x.dout i) (x.v j) 0
  let ps := (List.range 4096).map fun n => if n % 64 < x.kl then p (n / 64) (n % 64) else 0
  let ds := (List.range 4096).map fun n =>
    if n % 64 < x.kl ∧ ¬ dead (n / 64) then
      fmul .rne (lane ps n) (fsub .rne (dp (n / 64) (n % 64)) (lane vs (128 + n / 64)))
    else 0
  let pv := ps.map fun y => x.fv.narrow .rne y
  let dq := ds.map fun y => x.fq.narrow .rne (fmul .rne c2 y)
  let code (l : List Nat) (i j : Nat) : Nat := l.getD (64 * i + j) 0
  (mkTile fun i h =>
      bwdAcc x.fq (fun j => decide (j < x.kl) && !dead i) (fun j => code dq i j) (fun j => x.key j h)
        (lane tq (64 * i + h)),
   mkTile fun j h =>
      if j < x.kl then bwdAcc x.fq (fun i => !dead i) (fun i => code dq i j) (fun i => x.q i h) (lane tk (64 * j + h))
      else lane tk (64 * j + h),
   mkTile fun j h =>
      if j < x.kl then
        bwdAcc x.fv (fun i => !dead i) (fun i => code pv i j) (fun i => x.dout i h) (lane tv (64 * j + h))
      else lane tv (64 * j + h))

/-- A queued operation executed on a Wick's registers with reader `rd` (R148). -/
def matExec (rd : Rd) (op : MatOp) (k : Wick) : Wick :=
  let td := fld op.word 8 3
  let vs := fld op.word 21 5
  match opOf op.word with
  | 0x01 => k.setT td (mmaTile rd op (k.rt td))
  | 0x08 =>
    let r := attnFwd rd op (k.rt td) (k.rv vs)
    (k.setT td r.1).setV vs r.2
  | 0x09 =>
    let r := attnBwd rd op (k.rt td) (k.rt (td + 1)) (k.rt (td + 2)) (k.rv vs)
    ((k.setT td r.1).setT (td + 1) r.2.1).setT (td + 2) r.2.2
  | _ => k

end Sys2Proof.Machine
end

