-- ==== Sys2Proof/Machine/Puf.lean ====
section
/-! DEFINITION. The two PUFs' helper records and the fuzzy extractor (R375 to R378): the stability selection, majority and repetition,
the BCH(127,64) code, the check value. Bits of an array and responses by challenge are bits of one number. -/

namespace Sys2Proof.Machine

/-- Cells of the SRAM array, and challenges of the delay-line bank (R375, R376). -/
def pufCells : Nat := 65536
/-- Response bits that a record takes (R376): 4 blocks of 127 code bits, each 7 times. -/
def pufBits : Nat := 3556

/-! ### The field of 128 elements and BCH(127,64) (R376; polynomials and bit order PRESUMED, log 68) -/

/-- Powers 0 to 126 of a root of x^7 + x^3 + 1. -/
def gfExp : List Nat :=
  (List.range 126).foldl (fun l _ => let v := 2 * l.getLastD 1; l ++ [if 128 ≤ v then v ^^^ 0x89 else v]) [1]

def gfPow (k : Nat) : Nat := gfExp.getD (k % 127) 0
def gfLog (a : Nat) : Nat := gfExp.idxOf a
def gfMul (a b : Nat) : Nat := if a = 0 ∨ b = 0 then 0 else gfPow (gfLog a + gfLog b)
def gfDiv (a b : Nat) : Nat := if a = 0 then 0 else gfPow (gfLog a + 127 - gfLog b)

/-- The generator polynomial, of degree 63: its roots are the powers 1 to 20 and their conjugates. -/
def bchGen : Nat := 0xA1AB815BC7EC8025

/-- The remainder of a polynomial of 127 coefficients by the generator. -/
def bchRem (a : Nat) : Nat :=
  (List.range 64).foldl (fun (r i : Nat) => if r.testBit (126 - i) then r ^^^ bchGen * 2 ^ (63 - i) else r) a

/-- The codeword of 64 data bits: the data above, the remainder below. -/
def bchEncode (d : Nat) : Nat := d * 2 ^ 63 + bchRem (d * 2 ^ 63)

/-- The syndromes 1 to 20 of a received word. -/
def bchSyndromes (w : Nat) : List Nat :=
  let ones := (List.range 127).filter w.testBit
  (List.range 20).map fun j => ones.foldl (fun s i => s ^^^ gfPow (i * (j + 1))) 0

/-- The state of the Berlekamp–Massey recursion: the locator, the last one of smaller length, its discrepancy, the length and the
shift. -/
structure BmSt where
  c : List Nat := [1]
  b : List Nat := [1]
  d : Nat := 1
  len : Nat := 0
  m : Nat := 1

/-- `c` less `k` times `x^m` times `b`. -/
def polySub (c b : List Nat) (k m : Nat) : List Nat :=
  (List.range (max c.length (b.length + m))).map fun i =>
    c.getD i 0 ^^^ (if i < m then 0 else gfMul k (b.getD (i - m) 0))

/-- One step of the recursion, on syndrome `n + 1`. -/
def BmSt.next (x : BmSt) (syn : List Nat) (n : Nat) : BmSt :=
  let d := (List.range (x.len + 1)).foldl (fun v i => v ^^^ gfMul (x.c.getD i 0) (syn.getD (n - i) 0)) 0
  if d = 0 then { x with m := x.m + 1 }
  else
    let c := polySub x.c x.b (gfDiv d x.d) x.m
    if 2 * x.len ≤ n then { c := c, b := x.c, d := d, len := n + 1 - x.len, m := 1 } else { x with c := c, m := x.m + 1 }

/-- The positions in error: where the locator has its roots; none when they are more than 10 or do not match its length. -/
def bchErrors (w : Nat) : Option (List Nat) :=
  if bchRem w = 0 then some []
  else
    let syn := bchSyndromes w
    let x := (List.range 20).foldl (fun x n => BmSt.next x syn n) {}
    let at_ (i : Nat) : Nat :=
      (List.range x.c.length).foldl (fun v j => v ^^^ gfMul (x.c.getD j 0) (gfPow (j * (127 - i)))) 0
    let l := (List.range 127).filter fun i => at_ i == 0
    if l.length = x.len ∧ x.len ≤ 10 then some l else none

/-- Decode a block: the data and the number of errors corrected. -/
def bchDecode (w : Nat) : Option (Nat × Nat) :=
  (bchErrors w).map fun l => (l.foldl (fun v i => v ^^^ 2 ^ i) w / 2 ^ 63, l.length)

/-! ### The code-offset construction (R376) -/

/-- The number whose bits, lowest first, these are. -/
def natOfBits : List Bool → Nat
  | [] => 0
  | b :: l => (if b then 1 else 0) + 2 * natOfBits l

/-- The 508 code bits of S: four 64-bit blocks, encoded. -/
def codeBits (seed : List Byte) : List Bool :=
  ((List.range 4).map fun k =>
    let w := bchEncode (leNat ((seed.drop (8 * k)).take 8))
    (List.range 127).map w.testBit).flatten

/-- Each code bit 7 times: 3,556 bits. -/
def pufCode (seed : List Byte) : List Bool := ((codeBits seed).map (List.replicate 7)).flatten

/-- Bitwise XOR. -/
def xorBits (a b : List Bool) : List Bool := List.zipWith (· != ·) a b

/-- The majority of each of the first `n` groups of 7. -/
def majority7 : Nat → List Bool → List Bool
  | 0, _ => []
  | n + 1, l => decide (4 ≤ (l.take 7).count true) :: majority7 n (l.drop 7)

/-- Decode four blocks: S and the largest number of errors corrected in a block. -/
def pufBlocks : Nat → List Bool → Option (List Byte × Nat)
  | 0, _ => some ([], 0)
  | n + 1, l =>
    match bchDecode (natOfBits (l.take 127)), pufBlocks n (l.drop 127) with
    | some (d, e), some (b, e') => some (leBytes 8 d ++ b, max e e')
    | _, _ => none

/-- Decode the offset under a response. -/
def pufDecode (offset response : List Bool) : Option (List Byte × Nat) := pufBlocks 4 (majority7 508 (xorBits offset response))

/-- The check value of S. -/
def pufCheck (seed : List Byte) : List Byte := sha384 (ascii "Siloft PUF check" ++ seed)

/-! ### Selection (R376, R377) -/

/-- The first `n` bits set in `m`, ascending from position `i`, of the next `fuel`. -/
def marked : Nat → Nat → Nat → Nat → List Nat
  | 0, _, _, _ => []
  | fuel + 1, i, n, m =>
    if n = 0 then []
    else if m % 2 = 1 then i :: marked fuel (i + 1) (n - 1) (m / 2)
    else marked fuel (i + 1) n (m / 2)

/-- What a record selects: the SRAM array's stable cells, or challenges of 16 bits. -/
inductive PufSel where
  | mask (stable : Nat)
  | challenges (l : List Nat)
  deriving DecidableEq, Repr

/-- The cells or challenges whose bits are used, in order. -/
def PufSel.used : PufSel → List Nat
  | .mask m => marked pufCells 0 pufBits m
  | .challenges l => l.take pufBits

/-- A helper record (R376). -/
structure PufRec where
  sel : PufSel
  offset : List Bool
  check : List Byte
  seq : Nat
  crc : Word
  deriving DecidableEq, Repr

/-- Bits in bytes, the last one filled with zeros. -/
def bitBytes (n : Nat) (l : List Bool) : List Byte := leBytes n (natOfBits l)

def PufSel.bytes : PufSel → List Byte
  | .mask m => leBytes 8192 m
  | .challenges l => (l.map (leBytes 2)).flatten

/-- The record's fields in the table's order, before its CRC. -/
def PufRec.body (r : PufRec) : List Byte := r.sel.bytes ++ bitBytes 445 r.offset ++ r.check ++ leBytes 4 r.seq

/-- Its CRC-32C holds. -/
def PufRec.ok (r : PufRec) : Bool := r.crc == crc32c r.body

/-- A response of the PUF, as the bits of a number by cell or challenge, at what the record selects. -/
def PufSel.response (x : PufSel) (bits : Nat) : List Bool := x.used.map bits.testBit

/-- A record that encodes S over a response. -/
def PufRec.make (sel : PufSel) (seed : List Byte) (bits seq : Nat) : PufRec :=
  let r : PufRec := { sel := sel, offset := xorBits (pufCode seed) (sel.response bits), check := pufCheck seed, seq := seq, crc := 0 }
  { r with crc := crc32c r.body }

/-- Regenerate S from a record: the decode is accepted only when the check matches (R376). -/
def PufRec.open_ (r : PufRec) (bits : Nat) : Option (List Byte × Nat) :=
  match pufDecode r.offset (r.sel.response bits) with
  | some (seed, e) => if pufCheck seed = r.check then some (seed, e) else none
  | none => none

/-- The cells that read the same in all of 64 reads of the array (R377). -/
def stableCells (reads : List Nat) : Nat :=
  let r := fun i => reads.getD i 0
  (2 ^ pufCells - 1) ^^^ ((List.range 64).foldl (fun v i => v ||| (r i ^^^ r 0)) 0) % 2 ^ pufCells

/-- The majority of 15 evaluations of a challenge (R375). -/
def majority15 (evals : List Nat) (c : Nat) : Bool := decide (8 ≤ ((List.range 15).filter fun i => (evals.getD i 0).testBit c).length)

/-- The first 3,556 challenges, ascending, whose 15 evaluations all agree (R377). -/
def steadyChallenges (evals : List Nat) : List Nat :=
  marked pufCells 0 pufBits
    ((2 ^ pufCells - 1) ^^^ ((List.range 15).foldl (fun v i => v ||| (evals.getD i 0 ^^^ evals.getD 0 0)) 0) % 2 ^ pufCells)

/-- The bits of the challenges by majority, as the bits of a number. -/
def delayBits (evals cs : List Nat) : Nat := cs.foldl (fun v c => if majority15 evals c then v ||| 2 ^ c else v) 0

/-- The helper records at reset of an enrolled part (DESIGN CHOICE, log 12): S and every response bit zero, the first 3,556 cells and
challenges, SRAM slots 0 and 1, delay-line slots 2 and 3. -/
def pufReset : List (Nat × PufRec) :=
  [(0, .make (.mask (2 ^ pufBits - 1)) (List.replicate 32 0) 0 1),
   (2, .make (.challenges (List.range pufBits)) (List.replicate 32 0) 0 1)]

end Sys2Proof.Machine
end

