-- ==== Sys2Proof/Machine/StateSec.lean ====
section
/-! DEFINITION. The state of the security core (spec/11_security_roots.md, 12_attestation_joint.md): the OTP, the life
cycle, key slots, policies and joint sessions, SPDM, security events. -/

namespace Sys2Proof.Machine

/-- One Soot entry (R459). -/
structure SootE where
  time : Nat := 0
  seq : Nat := 0
  point : Nat := 0
  core : Nat := 0
  level : Nat := 0
  loss : Bool := false
  dom : Nat := 0xFFFF
  args : List Nat := []
  deriving DecidableEq, Repr

/-- Life-cycle states (R387). -/
inductive Lc where
  | blank | test | mfg | prov | field | rma | scrap | invalid
  deriving DecidableEq, Repr

/-- SEC_STATUS.LCSTATE. -/
def Lc.num : Lc → Nat
  | .blank => 0 | .test => 1 | .mfg => 2 | .prov => 3 | .field => 4 | .rma => 5 | .scrap => 6 | .invalid => 15

/-- The code of a state in the OTP (R387). -/
def Lc.code : Lc → Nat
  | .blank => 0 | .test => 0xF | .mfg => 0xFF | .prov => 0xFFF | .field => 0xFFFF | .rma => 0xFFFFF
  | .scrap => 0xFFFFFFFF | .invalid => 0

/-- The state of a code; any unlisted reading is INVALID. -/
def Lc.ofCode (c : Nat) : Lc :=
  if c = 0 then .blank else if c = 0xF then .test else if c = 0xFF then .mfg else if c = 0xFFF then .prov
  else if c = 0xFFFF then .field else if c = 0xFFFFF then .rma else if c = 0xFFFFFFFF then .scrap else .invalid

/-- The state of a LCSTATE number. -/
def Lc.ofNum : Nat → Option Lc
  | 0 => some .blank | 1 => some .test | 2 => some .mfg | 3 => some .prov | 4 => some .field | 5 => some .rma
  | 6 => some .scrap | _ => none

/-- A key slot in its two shares, K XOR M and M (R383). -/
structure KeySlot where
  /-- Owner index, or 0xFE for the model key. -/
  owner : Nat
  a : List Byte
  m : List Byte
  /-- KEY_ERASE has named it; it goes when the COPYs that started before are complete (R423). -/
  dying : Bool := false
  deriving DecidableEq, Repr

/-- Joint-session states (R425). -/
inductive Joint where
  | none | forming | active | finished
  deriving DecidableEq, Repr

def Joint.num : Joint → Nat
  | .none => 0 | .forming => 1 | .active => 2 | .finished => 3

/-- What the security core holds for a domain (R384, R417 to R431). -/
structure DomSec where
  /-- The device's own copy of the policy table. -/
  policy : Option (List Byte) := none
  joint : Joint := .none
  /-- Bits by owner index. -/
  joined : Nat := 0
  done : Nat := 0
  slots : FMap KeySlot := []
  shares : FMap KeySlot := []
  /-- Program measurement (R431); empty stands for 48 zero bytes. -/
  pmr : List Byte := []
  /-- Chips confirmed under R430. -/
  confirmed : List Nat := []
  deriving DecidableEq, Repr

/-- A secured session (R413, R414). -/
structure Session where
  /-- The requester authenticated with an ECDSA P-384 chain: its leaf key. -/
  leaf : Option (List Byte) := none
  dom : Option Nat := none
  /-- The requester's identity digest. -/
  ident : List Byte := []
  /-- A Zyndowin message was received. -/
  zyn : Bool := false
  /-- Mutual authentication was requested of the requester. -/
  auth : Bool := false
  /-- The session's transcript hash TH2, and the slot of its export master secret (R414, R421): free values, log 31. -/
  th2 : List Byte := []
  secret : Option Masked := none
  /-- FINISH was accepted. -/
  open_ : Bool := false
  /-- Beacon time of the last heartbeat. -/
  beat : Nat := 0
  deriving DecidableEq, Repr

/-- SPDM error codes the manual names. -/
inductive SErr where
  | unsupportedRequest | unexpectedRequest | busy | invalidRequest | sessionLimitExceeded | responseNotReady
  | decryptError | largeResponse
  deriving DecidableEq, Repr

/-- What the responder answers (R409, R331, R420). -/
inductive SRsp where
  | version | capabilities (csr : Bool) | algorithms
  | digests (slots : List Nat)
  | certificate (chain : List Byte)
  | challengeAuth
  | measurements (signed : Bool) (blocks : List (Nat × List Byte))
  | keyExchangeRsp (session : Nat) (mutAuth : Bool)
  | finishRsp | heartbeatAck | keyUpdateAck | endSessionAck
  | encapsulatedRequest | encapsulatedAck
  | chunkSendAck | chunkResponse
  | csr (slot : Nat) | setCertificateRsp
  | tdispVersion | tdispCapabilities | lockRsp | report (bytes : List Byte) | interfaceState (st : Nat)
  | startRsp | stopRsp | tdispError (code : Nat)
  | ideKm
  | vendor (op status : Nat) (body : List Byte)
  | error (e : SErr)
  deriving DecidableEq, Repr

/-- The flows of R415: 0 to 255 are the domains', 256 is PF0's. -/
abbrev FlowId := Nat

/-- The SPDM responder (R409 to R415). -/
structure SpdmSt where
  /-- GET_VERSION, GET_CAPABILITIES, NEGOTIATE_ALGORITHMS done, in order: 0 to 3. -/
  neg : Nat := 0
  /-- The requester advertised MUT_AUTH. -/
  mutAuth : Bool := false
  sessions : FMap Session := []
  nextSession : Nat := 1
  /-- Certificate chains in NVS, slots 0 and 1 (R407). -/
  chains : FMap (List Byte) := []
  /-- Slots for which GET_CSR has returned a request. -/
  csrs : List Nat := []
  /-- Responses that wait to be collected, by flow (R415). -/
  ready : FMap (List SRsp) := []
  /-- Bytes of a large message arriving in chunks, and a large response with the chunks it still takes (R409). -/
  chunkIn : List Byte := []
  chunkOut : Option (SRsp × Nat) := none
  /-- The last response the responder put into the mailbox. -/
  last : Option SRsp := none
  deriving DecidableEq, Repr

/-- IDE and stream state of PF0 and the streams (R329): streams 0 (Link) and 1 to 8 (Selective). -/
structure IdeStream where
  secure : Bool := false
  /-- Function associated: 0 PF0, n VF n. -/
  fn : Nat := 0
  /-- The stream key, AES-256-GCM (R380), and the two address association blocks, base and limit (R329). -/
  key : Option Masked := none
  blocks : List (DWord × DWord) := []
  pcrc : Bool := false
  deriving DecidableEq, Repr

/-- The OTP array at reset of a FIELD part (DESIGN CHOICE, log 12): identity, MODULE with all Wicks good, the three
life-cycle copies; listed bytes rise, none is zero. -/
def otpReset : Memory :=
  [(0, 0x53), (1, 0x49), (2, 0x4C), (3, 0x4F), (4, 0x46), (5, 0x54), (6, 0x30), (7, 0x30), (8, 1),
   (0x1C, 0xBC), (0x1D, 0xCE), (0x1E, 0xA4), (0x1F, 0xD0), (0x41, 0x60), (0x42, 0x0C), (0x43, 0x80),
   (0x44, 0x16), (0x45, 0xA9), (0x46, 0x2E), (0x47, 0x3F), (0x100, 0xFF), (0x101, 0xFF), (0x900, 0xFF), (0x901, 0xFF),
   (0x1100, 0xFF), (0x1101, 0xFF)]

/-- The security core. -/
structure SecSt where
  /-- Cells programmed at normal margin, those of them that read programmed at tightened margin, and the values cached at
  the last sense (R386, R389). -/
  otp : Memory := otpReset
  otpTight : Memory := otpReset
  otpCache : Memory := otpReset
  /-- The cache is invalid (R542). -/
  otpStale : Bool := false
  lc : Lc := .field
  /-- The start has decided the life-cycle state (R394). -/
  lcKnown : Bool := true
  /-- SEC_LC_COPIES at this start, and whether a mark was found. -/
  copies : Lc × Lc × Lc := (.field, .field, .field)
  markFound : Bool := false
  /-- The progress mark in NVS: source, target, sequence (R392). -/
  mark : Option (Lc × Lc × Nat) := none
  markSeq : Nat := 0
  pend : Bool := false
  lcStatus : Nat := 0
  rootSrc : Nat := 1
  authAddr : DWord := 0
  /-- SEC_NONCE, four 64-bit draws (R391). -/
  nonce : List DWord := [0, 0, 0, 0]
  otpStatus : Nat := 0
  otpAddr : Nat := 0
  otpData : Word := 0
  /-- Guarded registers as last accepted: SEC_LC_REQ, SEC_ERASE, SEC_OTP_PROG. -/
  lcReq : Nat := 0
  erase : Nat := 0
  otpOp : Nat := 0
  /-- Owner-seed records are present (banks 8 and 9). -/
  ownSeeds : Bool := false
  /-- The SRAM PUF's array (R375): its supply, and its 8 KiB, which hold DRBG output once it has been read; empty without the
  supply. -/
  pufOn : Bool := false
  pufArray : List Byte := []
  /-- The working slot of S (R379), and the slots of the life-cycle or TEST root, the identity seed and the NVS sealing key
  (R380). -/
  seed : Option Masked := none
  root : Option Masked := none
  idSeed : Option Masked := none
  nvsKey : Option Masked := none
  /-- The package keys in the engines of the die-to-die ports, by port · 2 + direction (R24, R380): ports 0 to 3 join CT0–CT3 to IO0,
  4 to 7 to IO1, port 8 joins IO0 and IO1; direction 0 leaves the tile named first. -/
  d2d : FMap Masked := []
  /-- Domains' keys, policies and joint sessions. -/
  doms : FMap DomSec := []
  /-- The last re-masking of every slot (device clock, ns) (R383). -/
  remaskAt : Nat := 0
  /-- Key generation has stopped after RNGFAIL (R374). -/
  rngDead : Bool := false
  spdm : SpdmSt := {}
  streams : FMap IdeStream := []
  /-- Streams bound to a TDI, by VF. -/
  tdiStream : FMap Nat := []
  /-- SEC_EVCNT, SEC_ALARM (R405). -/
  evCnt : Nat := 0
  last : Nat := 0
  level : Nat := 0
  a1seen : Bool := false
  snuffed : Bool := false
  /-- An A1 that names no domain blocks PF0's SECURITY writes until the next start (R400, R582). -/
  a1block : Bool := false
  /-- SEC_ALARM_CFGe by event code (R399); unlisted: the default. -/
  cfg : FMap Nat := []
  /-- Counts within one Beacon second (R399): by domain for INTEG_MEM, and for locked writes: (second, count). -/
  integ : FMap (Nat × Nat) := []
  burst : Nat × Nat := (0, 0)
  /-- SEC_SNUF_ARM (R404). -/
  armEncl : Bool := false
  armEsc : Bool := false
  /-- The tamper mark in NVS (R403), and what SEC_STATUS.TAMPER reports. -/
  tamper : Bool := false
  tamperSeen : Bool := false
  deriving DecidableEq, Repr

def SecSt.dom (x : SecSt) (d : Nat) : DomSec := FMap.get {} x.doms d
def SecSt.setDom (x : SecSt) (d : Nat) (y : DomSec) : SecSt := { x with doms := FMap.set {} x.doms d y }

/-! ### The key ladder (R380, R381) -/

/-- The salt of every derivation: SHA-384 of the identity block. -/
def otpSalt (otp : Memory) : List Byte := sha384 ((List.range 32).map fun i => FMap.get 0 otp i)

/-- The info string that the hardware accepts in a state (R381): none where no PUF root is selected. -/
def Lc.rootInfo : Lc → Option (List Byte)
  | .mfg => some (ascii "Siloft root MFG")
  | .prov | .field => some (ascii "Siloft root FIELD")
  | .rma => some (ascii "Siloft root RMA")
  | _ => none

/-- The life-cycle root of a state (R380, R387): the constant in TEST, else derived from S; 48 bytes, as the TEST root (log 69). -/
def lcRoot (otp : Memory) (lc : Lc) (seed : List Byte) : Option (List Byte) :=
  if lc = .test then some Config.testRoot
  else lc.rootInfo.map fun info => hkdf (otpSalt otp) seed info 48

/-- The identity seed and the NVS sealing key of a root (R380; 48 and 32 bytes, log 69). -/
def identitySeed (otp : Memory) (root : List Byte) : List Byte := hkdf (otpSalt otp) root (ascii "Siloft identity") 48
def sealKey (otp : Memory) (root : List Byte) : List Byte := hkdf (otpSalt otp) root (ascii "Siloft nvs seal") 32

/-- The secret of the identity key pair of an SPDM slot (R406). -/
def SecSt.idSecret (x : SecSt) (slot : Nat) : List Byte :=
  let seed := (x.idSeed.map Masked.key).getD []
  if slot = 0 then hkdfExpand seed (ascii "Siloft id ecdsa") 64 else hkdfExpand seed (ascii "Siloft id mldsa") 32

/-- The name of a state, as R387 gives it. -/
def Lc.name : Lc → List Byte
  | .blank => ascii "BLANK" | .test => ascii "TEST" | .mfg => ascii "MFG" | .prov => ascii "PROV" | .field => ascii "FIELD"
  | .rma => ascii "RMA" | .scrap => ascii "SCRAP" | .invalid => ascii "INVALID"

/-- Destruction erases a domain's keys, policy and joint session, and ends every session bound to it (R334, R414,
R425). -/
def SecSt.forgetDom (x : SecSt) (d : Nat) : SecSt :=
  { (x.setDom d {}) with spdm := { x.spdm with
      sessions := x.spdm.sessions.filter fun p => p.2.dom != some d
      ready := FMap.set [] x.spdm.ready d [] } }

/-- Erase every key slot of the security core, the die-to-die ports and the IDE engine, and every session (R385, R401). -/
def SecSt.eraseAllKeys (x : SecSt) : SecSt :=
  { x with
    seed := none, root := none, idSeed := none, nvsKey := none, d2d := []
    doms := x.doms.map fun p => (p.1, { p.2 with slots := [], shares := [] })
    streams := [], tdiStream := []
    spdm := { x.spdm with sessions := [], neg := 0, ready := [], chunkIn := [], chunkOut := none } }

end Sys2Proof.Machine
end

