-- ==== Sys2Proof/Machine/StateMgmt.lean ====
section
/-! DEFINITION. The state of firmware management, mailboxes, NVS and the service port (spec/13), power and ageing (16),
the register interface (17) and the pins (18). -/

namespace Sys2Proof.Machine

/-! ### Firmware and mailboxes -/

/-- A component of the loaded bundle (R436). -/
structure Comp where
  type : Nat
  svn : Nat
  digest : List Byte
  deriving DecidableEq, Repr

/-- Firmware (R433 to R439, R472). -/
structure FwSt where
  loaded : Bool := false
  loading : Bool := false
  monitorOk : Bool := true
  source : Nat := 0
  addr : DWord := 0
  len : Nat := 0
  status : Nat := 0
  comp : Nat := 0
  bsvn : Nat := 0
  comps : List Comp := []
  /-- Running cores: security runtime, scheduler, power, monitor, ROM recovery. -/
  sec : Bool := false
  sched : Bool := false
  power : Bool := false
  monitor : Bool := true
  romrec : Bool := false
  ccc : BitVec 64 := 0
  /-- Released cluster control cores that have reported ready. -/
  cccReady : BitVec 64 := 0
  /-- BSVN of a bundle whose cores are being released. -/
  newBsvn : Nat := 0
  /-- Phase 2: the core group whose ready report is awaited, 1 power to 4 security runtime; 0 none. -/
  await : Nat := 0
  /-- Device clock at which it was released. -/
  since : Nat := 0
  deriving DecidableEq, Repr

/-- A mailbox (R440 to R444). -/
structure Mbx where
  /-- Host-to-firmware window bytes. -/
  win : Memory := []
  /-- Firmware-to-host window. -/
  rep : Memory := []
  go : Bool := false
  ready : Bool := false
  frame : Nat := 0
  /-- Negotiated feature bits, once HELLO has completed. -/
  hello : Option Nat := none
  deriving DecidableEq, Repr

/-! ### NVS (R447 to R457) -/

/-- A counter slot (R455). -/
inductive CtrSlot where
  | erased | bad
  | valid (value : DWord) (seq : Nat)
  deriving DecidableEq, Repr

/-- A record sealed with AES-256-GCM under the NVS sealing key in force when it was written (R380, R457). Its tag verifies under that
key alone (log 69). -/
structure Sealed where
  nonce : List Byte
  key : List Byte
  bytes : List Byte
  deriving DecidableEq, Repr

/-- The record as its sector holds it: nonce, ciphertext, tag. -/
def Sealed.cells (x : Sealed) : List Byte :=
  let ct := Config.gcmEnc x.key x.nonce x.bytes
  x.nonce ++ ct ++ (Config.gcmTag x.key x.nonce ct).take 16

/-- Open a record under a key; none when the seal fails. -/
def Sealed.unseal (x : Sealed) (key : List Byte) : Option (List Byte) := if x.key = key then some x.bytes else none

/-- A user record (R457). -/
inductive UserRec where
  | erased | bad
  | data (rec : Sealed)
  deriving DecidableEq, Repr

/-- Who waits for a request's status. -/
inductive NvsFor where
  | nobody
  | mailbox
  | usb
  deriving DecidableEq, Repr

/-- What a queued program or erase does when it completes. -/
inductive NvsWork where
  | bcr (copyB : Bool) (bytes : List Byte)
  | userWrite (id : Nat) (rec : Sealed)
  | userErase (id : Nat)
  /-- Add one to a counter (R456). -/
  | ctr (id : Nat)
  | eraseUser
  | eraseSeeds
  | tamper (on : Bool)
  deriving DecidableEq, Repr

/-- Who asks for a program or erase (R447): the ROM update routine, and the three cores. -/
inductive NvsBy where
  | rom | security | scheduler | power
  deriving DecidableEq, Repr

structure NvsReq where
  work : NvsWork
  who : NvsFor := .nobody
  deriving DecidableEq, Repr

/-- The Board Configuration Record copy A held at reset (R546; DESIGN CHOICE, log 13): chip 0, FOLLOW, caps 2,800 W, every
link enabled, no link map. -/
def bcrReset : List (BitVec 8) :=
  [0x53, 0x42, 0x43, 0x52, 0, 1, 0xD0, 0, 1, 0, 0, 0, 0xF6, 0xF1, 4, 8, 0, 0, 0, 0, 0xF0, 0xA, 0xF0, 0xA, 0xFF, 0xFF, 0xFF, 0xFF, 0xF, 0, 0, 0]
    ++ List.replicate 176 0

/-- The NVS and its controller. -/
structure NvsSt where
  queue : List NvsReq := []
  last : Nat := 0
  tight : Bool := false
  bcrA : List Byte := bcrReset
  bcrB : List Byte := []
  ctrs : FMap (List CtrSlot) := []
  /-- The PUF helper slots of bank 4 (R376, R447): SRAM slots 0 and 1, delay-line slots 2 and 3; unlisted: erased. -/
  puf : FMap PufRec := pufReset
  user : FMap UserRec := []
  /-- Fence records of bank 5: (kind 0 Wick, 1 Lantern, 2 lane, 3 frame; physical index) (R507). -/
  fences : List (Nat × Nat) := []
  /-- The recovery monitor of banks 0 and 1 is valid. -/
  monitor : Bool := true
  /-- The security core's execute set (R450): banks 0 and 1 from the hand-off to the recovery monitor on. -/
  exec : List Nat := [0, 1]
  /-- Sectors, by bank and sector, with a word that its ECC corrects (R448). -/
  struck : List (Nat × Nat) := []
  deriving DecidableEq, Repr

/-- The valid record with the higher sequence number in slots `k` and `k + 1`, with its slot (R376). -/
def NvsSt.helper (n : NvsSt) (k : Nat) : Option (Nat × PufRec) :=
  let r (i : Nat) : Option (Nat × PufRec) := ((FMap.find? n.puf i).filter PufRec.ok).map fun x => (i, x)
  match r k, r (k + 1) with
  | some x, some y => if x.2.seq < y.2.seq then some y else some x
  | some x, none => some x
  | none, y => y

/-- A PUF has a valid helper record. -/
def NvsSt.enrolled (n : NvsSt) : Bool := (n.helper 0).isSome || (n.helper 2).isSome

/-- A counter's value and sequence number: the VALID slot with the highest SEQ, 0 when all are erased, none for NOVALUE
(R456). -/
def NvsSt.ctr (n : NvsSt) (i : Nat) : Option (DWord × Nat) :=
  let l := FMap.get [.erased, .erased, .erased] n.ctrs i
  let best := l.foldl (fun (b : Option (DWord × Nat)) x => match x, b with
    | .valid v q, some (v', q') => if q' < q ∨ (q' = q ∧ v'.toNat < v.toNat) then some (v, q) else some (v', q')
    | .valid v q, none => some (v, q)
    | _, b => b) none
  match best with
  | some r => some r
  | none => if l.all (· == .erased) then some (0, 0) else none

/-- Two VALID slots of a counter hold equal SEQ (R456). -/
def NvsSt.tied (n : NvsSt) (i : Nat) : Bool :=
  match FMap.get [.erased, .erased, .erased] n.ctrs i with
  | [.valid _ a, .valid _ b, .valid _ c] => a == b || a == c || b == c
  | [.valid _ a, .valid _ b, _] => a == b
  | [.valid _ a, _, .valid _ c] => a == c
  | [_, .valid _ b, .valid _ c] => b == c
  | _ => false

/-- The slot an update of a counter goes to (R456): the lowest ERASED or BAD slot other than the current one, else the
VALID slot with the lowest SEQ; among equals the current one is that with the highest VALUE, so the target has the lowest. -/
def NvsSt.ctrTarget (n : NvsSt) (i : Nat) : Nat :=
  let l := FMap.get [.erased, .erased, .erased] n.ctrs i
  match (List.range 3).find? (fun k => match l.getD k .erased with | .valid _ _ => false | _ => true) with
  | some k => k
  | none =>
    let sq (k : Nat) : Nat := match l.getD k .erased with | .valid v q => q * 2 ^ 64 + v.toNat | _ => 0
    (List.range 3).foldl (fun b k => if sq k < sq b then k else b) 0

/-- Program a counter slot. -/
def NvsSt.setCtr (n : NvsSt) (i k : Nat) (x : CtrSlot) : NvsSt :=
  let l := FMap.get [.erased, .erased, .erased] n.ctrs i
  { n with ctrs := FMap.set [.erased, .erased, .erased] n.ctrs i (l.set k x) }

/-- Firmware sets one of its counters (R457): the next slot with the next sequence number. -/
def NvsSt.put (n : NvsSt) (i : Nat) (v : DWord) : NvsSt :=
  match n.ctr i with
  | some (_, q) => n.setCtr i (n.ctrTarget i) (.valid v (q + 1))
  | none => n.setCtr i (n.ctrTarget i) (.valid v 1)

/-- Firmware adds one to a counter; NOVALUE is taken as 0 (R543). -/
def NvsSt.bump (n : NvsSt) (i : Nat) : NvsSt := n.put i (((n.ctr i).getD (0, 0)).1 + 1)
def NvsSt.val (n : NvsSt) (i : Nat) : Nat := ((n.ctr i).getD (0, 0)).1.toNat

/-- An update of a counter that did not complete leaves its target slot BAD (R456). -/
def NvsSt.ctrTorn (n : NvsSt) (i : Nat) : NvsSt := n.setCtr i (n.ctrTarget i) .bad

/-- What a program or erase leaves when it completes. -/
def NvsSt.apply (n : NvsSt) : NvsWork → NvsSt
  | .bcr b bs => if b then { n with bcrB := bs } else { n with bcrA := bs }
  | .userWrite i bs => { n with user := FMap.set .erased n.user i (.data bs) }
  | .userErase i => { n with user := FMap.set .erased n.user i .erased }
  | .ctr i => n.bump i
  | .eraseUser => { n with user := [], ctrs := n.ctrs.filter fun p => p.1 < 10 }
  | _ => n

/-- What it leaves when it is stopped or fails to verify: the target of a write is lost (R456, R457, R549). -/
def NvsSt.tear (n : NvsSt) : NvsWork → NvsSt
  | .bcr b _ => if b then { n with bcrB := [] } else { n with bcrA := [] }
  | .userWrite i _ | .userErase i => { n with user := FMap.set .erased n.user i .bad }
  | .ctr i => n.ctrTorn i
  | _ => n

/-- The banks and first sectors that a piece of NVS work programs (R447, R457). -/
def NvsSt.places (n : NvsSt) : NvsWork → List (Nat × Nat)
  | .bcr b _ => [(if b then 3 else 2, 0)]
  | .userWrite i _ | .userErase i => [(10 + i / 128, i % 128)]
  | .ctr i => [(7, 3 * i + n.ctrTarget i)]
  | .eraseUser => (List.range 6).map (fun b => (10 + b, 0)) ++ [(7, 30)]
  | .eraseSeeds => [(8, 0), (9, 0)]
  | .tamper _ => [(4, 9)]

/-- The writer of a bank (R447). -/
def bankWriter (b : Nat) : NvsBy := if b < 2 then .rom else if b = 5 then .scheduler else if b = 6 then .power else .security

/-- A requester's execute set (R450): the update routine runs on the security core; every other core's is empty. -/
def NvsSt.execSet (n : NvsSt) : NvsBy → List Nat
  | .rom | .security => n.exec
  | _ => []

/-- The checks of a program or erase request, in order (R450): 3 ADDR, 1 SELF_BANK, 2 PROTECT, 0 when it passes. -/
def NvsSt.check (n : NvsSt) (by_ : NvsBy) (p : Nat × Nat) : Nat :=
  if 16 ≤ p.1 ∨ 128 ≤ p.2 then 3
  else if (n.execSet by_).contains p.1 then 1
  else if bankWriter p.1 ≠ by_ then 2 else 0

/-- The first status other than 0 among a work's places. -/
def NvsSt.checkAll (n : NvsSt) (by_ : NvsBy) (w : NvsWork) : Nat := (((n.places w).map (n.check by_)).find? (· ≠ 0)).getD 0

/-- Sectors that have been programmed or erased hold no wrong bit; the user area is erased whole. -/
def NvsSt.fresh (n : NvsSt) (w : NvsWork) : NvsSt :=
  { n with struck := n.struck.filter fun p => !((n.places w).contains p || (w == .eraseUser && decide (10 ≤ p.1))) }

/-- Work at the head that is stopped: torn, but a counter update cut short after its third step has taken effect (R456). -/
def NvsSt.cut (n : NvsSt) (took : Bool) : NvsWork → NvsSt
  | .ctr i => if took then n.bump i else n.ctrTorn i
  | w => n.tear w

/-- Everything in progress stops (R402, R538): the program at the head is cut, what waits behind it is dropped. -/
def NvsSt.interrupt (n : NvsSt) (took : Bool) : NvsSt :=
  match n.queue with
  | [] => n
  | r :: _ => { n.cut took r.work with queue := [], last := 5 }

/-! ### USB, JTAG, telemetry -/

/-- A USB result (R464). -/
structure UsbRes where
  seq : Nat
  op : Nat
  status : Nat
  body : List Byte := []
  deriving DecidableEq, Repr

/-- The service port (R461 to R466). -/
structure UsbSt where
  disable : Bool := false
  configured : Bool := false
  high : Bool := false
  /-- Device address (SET_ADDRESS). -/
  addr : Nat := 0
  session : Option Nat := none
  lastSeq : Nat := 0
  /-- A staged block whose status stage is not acknowledged: session, sequence, opcode, flags, payload. -/
  staged : Option (Nat × Nat × Nat × Nat × List Byte) := none
  /-- The command that runs: sequence, opcode, payload, device clock of its last bulk data. -/
  running : Option (Nat × Nat × List Byte × Nat) := none
  results : List UsbRes := []
  /-- Device clock of the last request. -/
  at_ : Nat := 0
  /-- What the last IN request returned; none: STALL. -/
  reply : Option (List Byte) := none
  deriving DecidableEq, Repr

/-- Telemetry (R469 to R471). -/
structure SmbSt where
  mask : BitVec 8 := 0x1F
  status : BitVec 8 := 0
  /-- SMB_ALERT_N is held low. -/
  alert : Bool := false
  /-- I3C dynamic address. -/
  dyn : Option Nat := none
  /-- Registers as last refreshed, by code. -/
  regs : FMap (List Byte) := []
  /-- What the last Block Read returned. -/
  reply : List Byte := []
  /-- In-band interrupts raised (mandatory byte 0xA0). -/
  ibi : Nat := 0
  deriving DecidableEq, Repr

/-- JTAG (R467, R468): the instruction in force and what was last captured. -/
structure JtagSt where
  ir : Nat := 1
  dr : List Nat := []
  deriving DecidableEq, Repr

/-! ### Power and ageing (R551 to R567), Gutter score (R509 to R512) -/

/-- A Lantern's plan and margin (R558, R559, R567). -/
structure Plan where
  mhz : Nat := 1900
  dv : Nat := 0
  margin : Nat := 0
  min : Nat := 0
  trend : Nat := 0
  /-- Its monitors have been read since the start. -/
  seen : Bool := false
  deriving DecidableEq, Repr

structure PwrSt where
  cap : Nat := 2800
  board : Nat := 2800
  capRefused : Bool := false
  ageRefused : Bool := false
  calRefused : Bool := false
  capped : Bool := false
  /-- Throttled sensor groups: 0–3 CT, 4–5 IO, 6–17 HBM, 18 LPDDR, 19 regulators. -/
  throttled : List Nat := []
  brake : Bool := false
  pin : Nat := 0
  peak : Nat := 0
  energy : Nat := 0
  capNs : Nat := 0
  /-- Beacon time since which CAPPED or BRAKE is set. -/
  capAt : Option Nat := none
  brakes : Nat := 0
  vovr : Nat := 0
  target : Nat := 40
  floor : Nat := 25
  ageTime : Nat := 0
  linkThr : Nat := 12
  linkUrg : Nat := 6
  hbmThr : Nat := 8
  hbmUrg : Nat := 12
  calWin : Nat := 0
  calUrg : Nat := 0
  plans : FMap Plan := []
  /-- Matrix-engine issue duty and HBM command rate, in sixteenths (R555). -/
  duty : Nat := 16
  rate : Nat := 16
  /-- WCLK ceiling of the cap loop, MHz. -/
  clkCap : Nat := 2100
  /-- WCLK ceiling and issue duty of a throttled compute tile (R556). -/
  tiles : FMap (Nat × Nat) := []
  /-- Degrees by which the module regulators are above their throttle limit (R556). -/
  regOver : Nat := 0
  /-- The input current holds the brake (R554). -/
  brakeI : Bool := false
  /-- A plan was made since this start, and Beacon time of the last scheduled one (R559). -/
  planned : Bool := false
  planAt : Nat := 0
  /-- REPLAN was written and the plan is not yet made. -/
  planning : Bool := false
  /-- Consecutive windows below LINK_URG by link (R563); eye margin by link as last read. -/
  lowWins : FMap Nat := []
  eyes : FMap Nat := []
  /-- Quiet windows wanted, by unit · 256 + channel, and whether urgently (R490). -/
  wanted : FMap Bool := []
  /-- Strobe drift since the last calibration (8 bits, signed) and calibrations run, by controller · 256 + channel (R564, R589). -/
  drift : FMap Nat := []
  cals : FMap Nat := []
  /-- Quiet windows open on memory channels, by controller · 256 + channel: Beacon time of opening (R39). -/
  quiet : FMap (Option Nat) := []
  /-- Ageing log: (Beacon time, starts, Lantern, dv, f, margin, least margin, trend), oldest first. -/
  ageLog : List (List Nat) := []
  /-- Training records refreshed at this Beacon time. -/
  trainAt : Nat := 0
  trained : FMap Nat := []
  deriving DecidableEq, Repr

structure GutSt where
  score : Nat := 0
  top : Nat := 0
  armed : Bool := true
  warned : Bool := false
  warnAt : Nat := 0
  thresh : Nat := 0x1F4
  en : Bool := true
  /-- GUT_Wc, GUT_Lc, GUT_Xc. -/
  w : List Nat := [100, 100, 2000000, 0, 40, 2]
  l : List Nat := [10000, 10000, 20000000, 300, 15, 64]
  x : List Nat := [0, 0, 0, 0, 0, 0]
  warn : Nat := 0
  recv : Nat := 0
  /-- Beacon times of the last day at which frames were fenced, and Beacon seconds of the last hour with a throttle limit passed. -/
  frames : List Nat := []
  hot : List Nat := []
  /-- Samples, oldest first: Beacon time, MEM_CORR + MEM_RETRY by controller, FAB_LFECCORR by link (R509). -/
  hist : List (Nat × List Nat × List Nat) := []
  deriving DecidableEq, Repr

/-! ### Registers (R568 to R594) -/

/-- How the last access ended: data, Unsupported Request, Completer Abort. -/
inductive AccRsp where
  | data (words : List Word)
  | done
  | ur
  | ca
  deriving DecidableEq, Repr

structure RegSt where
  /-- PF0's pair latches (R575, R576): register offset and word. -/
  rlatch : Option (Nat × Word) := none
  wlatch : Option (Nat × Word) := none
  /-- Guard window: register offset, value, device clock at opening (R583). -/
  guard : Option (Nat × Word × Nat) := none
  indAddr : Word := 0
  ainc : Bool := false
  tight : Bool := false
  indErr : Bool := false
  accCnt : Nat := 0
  accOff : Nat := 0
  accFn : Nat := 0
  accKind : Nat := 0
  accWr : Bool := false
  lockCnt : Nat := 0
  lockOff : Nat := 0
  lockFn : Nat := 0
  lockSec : Bool := false
  /-- BLK_ERR by block index, VF_ERR by 1000 + VF. -/
  err : FMap Nat := []
  /-- Holding registers by BAR0 offset of the counter, SNAP_TIME by block index (R590). -/
  holds : FMap Nat := []
  snapAt : FMap Nat := []
  /-- PF0's MSI-X table words. -/
  msix : FMap Word := []
  /-- Pending bits, by function · 128 + vector. -/
  pba : FMap Bool := []
  /-- SERDES and MEMPHY override fields as written (R588, R589), by space · 2^28 + offset. -/
  phy : FMap Word := []
  /-- HOST_LINK's fields; speed 0 while the host link is down (R370). -/
  linkSpeed : Nat := 0
  linkWidth : Nat := 0
  linkFlit : Bool := false
  /-- PF0's Max Payload Size and Max Read Request Size in bytes, AER uncorrectable status, and functions in D3hot (R326). -/
  mps : Nat := 128
  mrrs : Nat := 512
  aer : Word := 0
  d3 : FMap Bool := []
  rsp : Option AccRsp := none
  deriving DecidableEq, Repr

/-! ### The Soot ring (R458 to R460) -/

structure SootSt where
  base : DWord := 0
  log2 : Nat := 0
  en : Bool := false
  prod : BitVec 32 := 0
  cons : BitVec 32 := 0
  lost : Nat := 0
  seq : Nat := 0
  lossFlag : Bool := false
  /-- The on-die buffer, oldest first. -/
  buf : List SootE := []
  /-- Entries were written since the last interrupt, and Beacon time of it. -/
  fresh : Bool := false
  irqAt : Nat := 0
  /-- TRACE_ENn, n = 2 to 31. -/
  trace : FMap Word := []
  deriving DecidableEq, Repr

/-! ### Starting and pins -/

/-- Board inputs and the module's outputs (R550, R596 to R610). -/
structure PinSt where
  standby : Bool := true
  main : Bool := true
  /-- Main fell below 38 V since the last successful cold start (R537). -/
  mainFell : Bool := false
  perst : Bool := false
  /-- PERST_N was asserted while the device was in HOLD or RUN (R608). -/
  perstRun : Bool := false
  pwrbrk : Bool := false
  vbus : Bool := true
  thermtrip : Bool := false
  /-- HOLD_N is driven low (R610). -/
  holdLow : Bool := true
  /-- GLOBAL_STRAPS as sampled, and the pins now: ADDR_SEL, SVC_DIS, COLD_ONLY. -/
  straps : Nat := 0
  strapPins : Nat := 0
  deriving DecidableEq, Repr

/-- The start in progress or last made (R537 to R544). -/
structure StartSt where
  kind : Nat := 1
  /-- A retry after a counted failure is due at this device clock. -/
  retry : Option Nat := none
  /-- GLOBAL_BCR. -/
  copy : Nat := 1
  aValid : Bool := true
  bValid : Bool := false
  bcrSeq : Nat := 1
  deriving DecidableEq, Repr

/-- Firmware management and what follows it. -/
structure MgmtSt where
  fw : FwSt := {}
  mbx : FMap Mbx := []
  nvs : NvsSt := {}
  usb : UsbSt := {}
  smb : SmbSt := {}
  jtag : JtagSt := {}
  pwr : PwrSt := {}
  gut : GutSt := {}
  regs : RegSt := {}
  soot : SootSt := {}
  pins : PinSt := {}
  start : StartSt := {}
  deriving DecidableEq, Repr

/-- A domain's mailbox, VF error bits and pending bits end with it. -/
def MgmtSt.forgetDom (x : MgmtSt) (d : Nat) : MgmtSt :=
  { x with
    mbx := FMap.set {} x.mbx (d + 1) {}
    regs := { x.regs with err := FMap.set 0 x.regs.err (1001 + d) 0
                          pba := x.regs.pba.filter fun p => p.1 / 128 != d + 1 } }

/-- Erase the NVS user area and the operator's counters (R400, R457). -/
def MgmtSt.eraseUserArea (x : MgmtSt) : MgmtSt :=
  { x with nvs := { x.nvs with user := [], ctrs := x.nvs.ctrs.filter fun p => p.1 < 10 } }

end Sys2Proof.Machine
end

