-- ==== Sys2Proof/Machine/StateBcn.lean ====
section
/-! DEFINITION. The state of Beacon time, the trigger slots and arbitration (spec/14_beacon_arbitration.md), and of
checkpoints (spec/15_checkpoint_containment.md). -/

namespace Sys2Proof.Machine

/-- Beacon states (R474). -/
inductive BcnState where
  | free | acquire | locked | holdover | local_
  deriving DecidableEq, Repr

def BcnState.num : BcnState → Nat
  | .free => 0 | .acquire => 1 | .locked => 2 | .holdover => 3 | .local_ => 4

/-- A trigger slot (R482 to R486). -/
structure Trig where
  time : DWord := 0
  period : DWord := 0
  arg : DWord := 0
  action : Nat := 0
  mode : Bool := false
  en : Bool := false
  fired : Bool := false
  late : Bool := false
  /-- Owning domain of a domain slot. -/
  dom : Nat := 0
  count : Nat := 0
  word : Nat := 0
  inc : Nat := 0
  missed : Nat := 0
  /-- Step-relative: the reference step time this slot has not yet fired for (R486). -/
  due : Option Nat := none
  /-- Firings so far (R483). -/
  k : Nat := 0
  /-- A QUIET trigger that fires before TIME once its link or channel has been idle for 1 µs (R490 step 2). -/
  idle : Bool := false
  deriving DecidableEq, Repr

/-- ARB_DOMd and ARB_DOM_TOKd (R504). -/
structure ArbDom where
  weight : Nat := 16
  pceil : Nat := 7
  tokFloor : Nat := 0
  tokOver : Nat := 0
  max : Nat := 0
  deriving DecidableEq, Repr

/-- What a link neighbour last announced (R478). -/
structure Neigh where
  chip : Nat
  stratum : Nat
  state : Nat
  /-- Beacon time since which it has qualified with a lower stratum than the upstream. -/
  lower : Option Nat := none
  deriving DecidableEq, Repr

/-- Beacon, triggers, arbitration. -/
structure BcnSt where
  st : BcnState := .free
  mode : Nat := 0
  epoch : DWord := 0
  first : Bool := false
  /-- REF_100M is present. -/
  ref : Bool := false
  /-- Beacon time of the last accepted SYNC_IN edge. -/
  syncAt : Option Nat := none
  stratum : Nat := 15
  uplink : Option Nat := none
  /-- Correction still to be absorbed, in 1/16 ns, signed (R479). -/
  absorb : Int := 0
  off : Word := 0
  dly : Word := 0
  /-- HOLDOVER since this Beacon time. -/
  holdAt : Option Nat := none
  /-- Offsets of the other dies' copies from IO1's, CT0 to CT3 and IO0 (R473). -/
  copies : List Int := [0, 0, 0, 0, 0]
  syncMiss : Nat := 0
  trefused : Bool := false
  qrefused : Bool := false
  mrefused : Bool := false
  tfrefused : Bool := false
  /-- Next exchange number, and the outstanding request's number and t1 (R477). -/
  seq : BitVec 32 := 0
  asked : Option (BitVec 32 × DWord) := none
  /-- Consecutive exchanges below 2 ns (R476). -/
  good : Nat := 0
  neigh : FMap Neigh := []
  quantum : Nat := 2000
  /-- A quantum written and not yet in effect (R492). -/
  newQuantum : Option Nat := none
  paceDom : Nat := 0
  paceCtx : Nat := 0
  paceSet : Bool := false
  /-- The first context to retire STEP since the start (R488). -/
  auto : Option (Nat × Nat) := none
  /-- Beacon times of the pacing context's last 17 STEPs, oldest first. -/
  steps : List Nat := []
  /-- The idle scores of the 64 phase bins (R489), by link · 256 or (0x40 + controller) · 256 + channel; unlisted: all 0. -/
  bins : FMap (List Nat) := []
  trigs : FMap Trig := []
  arb : FMap ArbDom := []
  deriving DecidableEq, Repr

/-- A checkpoint section (R514). -/
structure CkSect where
  kind : Nat
  llant : Nat
  len : Nat
  sadr : DWord
  deriving DecidableEq, Repr

/-- A chip's report to the coordinator (R519). -/
structure CkRep where
  code : Nat
  step : DWord
  floor : DWord
  deriving DecidableEq, Repr

/-- Checkpoints of one domain (R513 to R534). -/
structure Ckpt where
  conf : Bool := false
  /-- The step context. -/
  ctx : Nat := 0
  sects : List CkSect := []
  rgn : DWord := 0
  rgnLen : Nat := 0
  base : DWord := 0
  limitMs : Nat := 60000
  /-- A SIZE was sent since the CKPT_CONFIG (R515). -/
  sized : Bool := false
  buddyOk : Bool := false
  /-- The partner's last SIZE: image length, BUDDY_LEN. -/
  psize : Option (Nat × Nat) := none
  /-- Latched cursor bytes (R516). -/
  latch : List Byte := []
  latchBad : Bool := false
  /-- A request is on hand (R518), and its reason. -/
  req : Bool := false
  reason : Nat := 0
  /-- The step context is held at a recorded step since a Beacon time (R519). -/
  heldAt : Option (DWord × Nat) := none
  /-- Beacon ns of the holds of this cut that are over (R534). -/
  heldNs : Nat := 0
  /-- The cut step and epoch, once known. -/
  cut : Option (DWord × DWord) := none
  /-- Frozen and copying since a Beacon time (R521). -/
  copying : Option Nat := none
  /-- Packets of the image not yet acknowledged, and a write refused at the partner. -/
  left : Nat := 0
  bad : Bool := false
  /-- This chip's copy is done and reported. -/
  done : Bool := false
  /-- The partner's region state (R526). -/
  rgnState : Nat := 0
  /-- Highest epoch seen in any CUT_SET or image label (R519). -/
  seen : DWord := 0
  cause : Nat := 0
  epoch : DWord := 0
  step : DWord := 0
  held : DWord := 0
  freeze : Nat := 0
  cuts : Nat := 0
  fails : Nat := 0
  /-- Coordinator: reports by chip, Beacon time of the first, step and epoch set, CUT_DONEs by chip, Beacon time of the
  first, last epoch issued (R519, R522). -/
  reps : FMap CkRep := []
  repAt : Option Nat := none
  set : Option (DWord × DWord) := none
  dones : FMap Bool := []
  doneAt : Option Nat := none
  lastEpoch : DWord := 0
  deriving DecidableEq, Repr

end Sys2Proof.Machine
end

