-- ==== Sys2Proof/Machine/State.lean ====
section
/-! DEFINITION. The whole state of the device as plain data, the reasons a step can stop, and the state after reset. -/

namespace Sys2Proof.Machine

/-- Why the machine stops with a fault. -/
inductive Fault where
  /-- Never raised by a meaning: kept so that the type is inhabited. Safe. -/
  | none
  deriving DecidableEq, Repr

/-- Why a command has no next state. -/
inductive Refusal where
  /-- Raised by `exec` alone, for a row that has no meaning yet. Safe. -/
  | notModelled (mnemonic : String)
  deriving DecidableEq, Repr

/-- The device states (R535). -/
inductive DevSt where
  | off | standby | start | hold | run
  deriving DecidableEq, Repr

/-- Device-wide state. -/
structure Dev where
  st : DevSt := .hold
  /-- GLOBAL_START.CAUSE and LASTFAIL (R545): NOBUNDLE after phase 1 of a start. -/
  cause : Nat := 1
  lastFail : Nat := 0
  /-- SR-IOV VF Enable and NumVFs (R333). -/
  vfEnable : Bool := false
  numVfs : Nat := 0
  /-- The part is the ZSM-9636-L (R220). -/
  small : Bool := false
  deriving DecidableEq, Repr

/-- The device. -/
structure State where
  /-- Commands waiting, first in, first out. -/
  pending : List Instr := []
  /-- Nanoseconds of device clock: what is timed by MGCLK, FWCLK or a link's own clock. -/
  clk : Nat := 0
  /-- Beacon time in ns (R21). -/
  beacon : Nat := 0
  /-- The model's own counter of free values drawn. -/
  free : Nat := 0
  /-- Requests the DRBG has served since it was last reseeded (R374). -/
  drbg : Nat := 0
  dev : Dev := {}
  lanterns : FMap Lantern := []
  doms : FMap Dom := []
  mem : MemSt := {}
  eng : EngSt := {}
  fab : FabSt := {}
  sec : SecSt := {}
  mgmt : MgmtSt := {}
  bcn : BcnSt := {}
  /-- Checkpoints by domain. -/
  ckpt : FMap Ckpt := []
  /-- Host memory bytes written by the device. -/
  hostMem : Memory := []
  /-- MSI-X messages sent, by function · 128 + vector (R328). -/
  irq : FMap Nat := []
  deriving DecidableEq, Repr

/-! ### After reset (log 12): phase 1 of a cold start has drawn or derived every key (R380), the first 1,648 draws of the generator -/

/-- The FIELD root of the reset part, whose S is zero. -/
def resetRoot : List Byte := (lcRoot otpReset .field (List.replicate 32 0)).getD []

/-- The security core after reset. -/
def SecSt.reset : SecSt :=
  { pufOn := true
    pufArray := drawAt 0 8192
    root := some (.of resetRoot (drawAt 1024 48))
    idSeed := some (.of (identitySeed otpReset resetRoot) (drawAt 1030 48))
    nvsKey := some (.of (sealKey otpReset resetRoot) (drawAt 1036 32))
    d2d := (List.range 18).map fun k => (k, .of (drawAt (1040 + 8 * k) 32) (drawAt (1044 + 8 * k) 32)) }

/-- The memory after reset: nothing written, every controller with the device memory key set. -/
def MemSt.reset : MemSt :=
  { ctls := (List.range 28).map fun c => (c, { devKey := some (.of (drawAt 1300 96) (drawAt (1312 + 12 * c) 96)) }) }

/-- The device right after reset. -/
def State.reset : State := { free := 1648, sec := SecSt.reset, mem := MemSt.reset }

end Sys2Proof.Machine
end

