-- ==== Sys2Proof/Machine/Ops.lean ====
section
/-! DEFINITION. The named operations every command is made of: reading and writing the parts of State, translation and
memory access (R88 to R90, R230 to R244), fence words (R94, R99), the error log (R369), messages, and the teardown of a
context (R359). -/

namespace Sys2Proof.Machine

/-! ### Parts of the state -/

def State.dom (s : State) (d : Nat) : Dom := FMap.get {} s.doms d
def State.setDom (s : State) (d : Nat) (x : Dom) : State := { s with doms := FMap.set {} s.doms d x }
def State.modDom (s : State) (d : Nat) (f : Dom → Dom) : State := s.setDom d (f (s.dom d))

/-- A live tag's context (R357). -/
def State.ctx? (s : State) (d c : Nat) : Option Ctx := FMap.find? (s.dom d).ctxs c
def State.setCtx (s : State) (d c : Nat) (x : Ctx) : State :=
  s.modDom d fun m => { m with ctxs := FMap.insert m.ctxs c x }
def State.dropCtx (s : State) (d c : Nat) : State :=
  s.modDom d fun m => { m with ctxs := FMap.erase m.ctxs c }
def State.modCtx (s : State) (d c : Nat) (f : Ctx → Ctx) : State :=
  match s.ctx? d c with
  | some x => s.setCtx d c (f x)
  | none => s

def Ctx.wick (x : Ctx) (k : Nat) : Wick := FMap.get {} x.wicks k
def Ctx.setWick (x : Ctx) (k : Nat) (w : Wick) : Ctx := { x with wicks := FMap.set {} x.wicks k w }

/-- The key of a logical Wick in its context: llant · 8 + lwick. -/
def WickRef.key (w : WickRef) : Nat := w.llant.toNat * 8 + w.lwick.toNat
def WickRef.d (w : WickRef) : Nat := w.dom.toNat
def WickRef.c (w : WickRef) : Nat := w.ctx.toNat

def State.wickAt (s : State) (d c k : Nat) : Wick :=
  match s.ctx? d c with
  | some x => x.wick k
  | none => {}
/-- Change a Wick of a live context; a context torn down has none. -/
def State.setWickAt (s : State) (d c k : Nat) (w : Wick) : State :=
  s.modCtx d c fun x => if x.status = .live then x.setWick k w else x

def State.lantern (s : State) (l : Nat) : Lantern := FMap.get {} s.lanterns l
def State.setLantern (s : State) (l : Nat) (x : Lantern) : State := { s with lanterns := FMap.set {} s.lanterns l x }
def State.modLantern (s : State) (l : Nat) (f : Lantern → Lantern) : State := s.setLantern l (f (s.lantern l))

def State.queue (s : State) (d q : Nat) : SQueue := FMap.get {} (s.dom d).qs q
def State.setQueue (s : State) (d q : Nat) (x : SQueue) : State :=
  s.modDom d fun m => { m with qs := FMap.set {} m.qs q x }

def State.ctl (s : State) (c : Nat) : MemCtl := FMap.get {} s.mem.ctls c
def State.setCtl (s : State) (c : Nat) (x : MemCtl) : State :=
  { s with mem := { s.mem with ctls := FMap.set {} s.mem.ctls c x } }
def State.modCtl (s : State) (c : Nat) (f : MemCtl → MemCtl) : State := s.setCtl c (f (s.ctl c))
def State.memDom (s : State) (d : Nat) : MemDom := FMap.get {} s.mem.doms d
def State.setMemDom (s : State) (d : Nat) (x : MemDom) : State :=
  { s with mem := { s.mem with doms := FMap.set {} s.mem.doms d x } }

def State.comm? (s : State) (d i : Nat) : Option Comm := FMap.find? (FMap.get [] s.eng.comms d) i
def State.setComm (s : State) (d i : Nat) (x : Comm) : State :=
  { s with eng := { s.eng with comms := FMap.set [] s.eng.comms d (FMap.insert (FMap.get [] s.eng.comms d) i x) } }
def State.dropComm (s : State) (d i : Nat) : State :=
  { s with eng := { s.eng with comms := FMap.set [] s.eng.comms d (FMap.erase (FMap.get [] s.eng.comms d) i) } }
def State.modColl (s : State) (n : Nat) (f : CollEng → CollEng) : State :=
  { s with eng := { s.eng with coll := FMap.modify {} s.eng.coll n f } }
def State.updEng (s : State) (n : Nat) : UpdEng := FMap.get {} s.eng.upd n
def State.modUpdEng (s : State) (n : Nat) (f : UpdEng → UpdEng) : State :=
  { s with eng := { s.eng with upd := FMap.modify {} s.eng.upd n f } }

/-- Draw a free 64-bit value (R374). -/
def State.rnd (s : State) : DWord := Config.freeValue s.free
/-- The generator has served a request of `n` 64-bit values; it is reseeded every 2^20 requests (R374). -/
def State.drew (s : State) (n : Nat) : State := { s with free := s.free + n, drbg := (s.drbg + 1) % 2 ^ 20 }

/-- The next `n` bytes of the generator (R374). -/
def State.rndBytes (s : State) (n : Nat) : List Byte := drawAt s.free n

/-- Advance the generator past `n` bytes. -/
def State.drewBytes (s : State) (n : Nat) : State := s.drew ((n + 7) / 8)

/-- Write a key into a slot under a fresh mask (R383). -/
def State.maskKey (s : State) (key : List Byte) : Masked := Masked.of key (s.rndBytes key.length)

/-- A fresh key of `n` bytes under a fresh mask; none after a health-test failure has stopped key generation (R374, R380). -/
def State.newKey (s : State) (n : Nat) : Option Masked :=
  if s.sec.rngDead then none else some ((s.drewBytes n).maskKey (s.rndBytes n))

/-- Advance the generator past a fresh key and its mask. -/
def State.drewKey (s : State) (n : Nat) : State := (s.drewBytes n).drewBytes n

/-- A saturating counter of `n` bits. -/
def satAdd (n c d : Nat) : Nat := if 2 ^ n ≤ c + d then 2 ^ n - 1 else c + d

/-! ### Byte memories -/

def Memory.rd (m : Memory) (a : Nat) : Byte := FMap.get 0 m a
def Memory.wr (m : Memory) (a : Nat) (b : Byte) : Memory := FMap.set 0 m a b
/-- The canonical form of a memory. -/
def Memory.wf (m : Memory) : Bool := FMap.wf 0 m

def Memory.rdN (m : Memory) (a n : Nat) : List Byte := (List.range n).map fun i => Memory.rd m (a + i)
def Memory.wrN (m : Memory) (a : Nat) : List Byte → Memory
  | [] => m
  | b :: l => Memory.wrN (Memory.wr m a b) (a + 1) l

/-- GLOBAL_MODULE (R6, R16): the OTP's MODULE with its reserved bits [7:4] and [21:20] reading 0. -/
def State.moduleWord (s : State) : Nat := leNat (Memory.rdN s.sec.otpCache 0x40 4) &&& 0xFFCFFF0F

/-! ### Messages to the outside -/

/-- The vector-control mask of an MSI-X table entry; entries are masked until written (R328, and the PCI Express
specification, log 34). Function 0 is PF0, n is VF n. -/
def State.msixMasked (s : State) (fn vec : Nat) : Bool :=
  ((FMap.find? (if fn = 0 then s.mgmt.regs.msix else (s.dom (fn - 1)).msix) (4 * vec + 3)).getD 1).getLsbD 0

/-- Send an MSI-X message of function `fn`, or set its pending bit while the entry is masked (R328). -/
def State.raiseIrq (s : State) (fn vec : Nat) : State :=
  if s.msixMasked fn vec then
    { s with mgmt := { s.mgmt with regs := { s.mgmt.regs with pba := FMap.set false s.mgmt.regs.pba (fn * 128 + vec) true } } }
  else { s with irq := FMap.modify 0 s.irq (fn * 128 + vec) (· + 1) }

/-- An entry as it lies in the ring (R459). -/
def SootE.bytes (e : SootE) : List Byte :=
  leBytes 8 e.time ++ leBytes 4 e.seq ++ leBytes 2 e.point ++ leBytes 2 e.core ++ leBytes 1 e.level
    ++ leBytes 1 (if e.loss then 1 else 0) ++ leBytes 2 e.dom ++ leBytes 4 0
    ++ ((List.range 5).map fun i => leBytes 8 (e.args.getD i 0)).flatten

/-- Write an entry to the ring, or count it lost when the ring is full (R458). -/
def State.sootWrite (s : State) (e : SootE) : State :=
  let r := s.mgmt.soot
  if (r.prod - r.cons).toNat < 2 ^ r.log2 then
    let e := { e with loss := r.lossFlag }
    let a := r.base.toNat + 64 * (r.prod.toNat % 2 ^ r.log2)
    let due := decide (r.irqAt + 100000 ≤ s.beacon) || r.irqAt == 0
    let r := { r with prod := r.prod + 1, lossFlag := false
                      fresh := !due, irqAt := if due then s.beacon else r.irqAt }
    let s := { s with hostMem := Memory.wrN s.hostMem a e.bytes, mgmt := { s.mgmt with soot := r } }
    if due then s.raiseIrq 0 1 else s
  else { s with mgmt := { s.mgmt with soot := { r with lost := satAdd 32 r.lost 1, lossFlag := true } } }

/-- A trace point is enabled; points 0x000 to 0x03F are mandatory (R460). -/
def SootSt.enabled (r : SootSt) (t : Nat) : Bool :=
  decide (t < 64) || (FMap.get 0 r.trace (t / 32)).getLsbD (t % 32)

/-- Generate a Soot entry: to the ring, or to the on-die buffer while EN is 0 (R458, R460). -/
def State.sootLog (s : State) (core level point : Nat) (args : List Nat) (dom : Nat := 0xFFFF) : State :=
  let r := s.mgmt.soot
  if !r.enabled point then s
  else
    let e : SootE := { time := s.beacon, seq := r.seq, point := point, core := core, level := level, dom := dom, args := args }
    let s := { s with mgmt := { s.mgmt with soot := { r with seq := (r.seq + 1) % 2 ^ 32 } } }
    if r.en then s.sootWrite e
    else if r.buf.length < 256 then { s with mgmt := { s.mgmt with soot := { s.mgmt.soot with buf := r.buf ++ [e] } } }
    else { s with mgmt := { s.mgmt with soot :=
      { s.mgmt.soot with buf := r.buf.drop 1 ++ [e], lost := satAdd 32 r.lost 1, lossFlag := true } } }

/-- Reading a counter with two VALID slots of equal SEQ writes an NVS trace entry (R456). -/
def State.ctrTie (s : State) (i : Nat) : State := if s.mgmt.nvs.tied i then s.sootLog 0 2 6 [0, 7, 3 * i] else s

/-- Write an error-log record, or count it lost (R369). -/
def State.logErr (s : State) (d : Nat) (r : ERec) : State :=
  let m := s.dom d
  if (m.elog.prod - m.elog.cons).toNat < 256 then
    (s.setDom d { m with elog := { m.elog with
      prod := m.elog.prod + 1, recs := FMap.insert m.elog.recs (m.elog.prod.toNat % 256) r } }).raiseIrq (d + 1) 0
  else s.setDom d { m with elog := { m.elog with lost := satAdd 32 m.elog.lost 1 } }

/-- The board record in force (R548). -/
def State.bcr (s : State) : List Byte :=
  if s.mgmt.start.copy = 1 then s.mgmt.nvs.bcrA else if s.mgmt.start.copy = 2 then s.mgmt.nvs.bcrB else []

/-- Change the fabric and send what then waits at the egresses. -/
def State.onFab (s : State) (f : FabSt → FabSt) : State := { s with fab := (f s.fab).pump s.clk }

/-- Hand a packet to the fabric (R271). A CTRL_MSG is held until its ACK like any other packet but ACK and NAK (R280, R323;
DEDUCED, log 44). -/
def State.send (s : State) (p : Pkt) : State :=
  s.onFab fun f => if p.ptype = 8 then f.putHeld p .ctrl else f.put p

/-! ### Device physical addresses (R219 to R221) -/

def hbmData : Nat := 0xBA0000000
def rsvData (small : Bool) : Nat := if small then 0xBA0000000 else 0x1740000000

/-- The controller of a DPA: HBM stack 0 to 11, or 12 + package (R250). -/
def ctlOf (dpa : Nat) : Nat := if dpa / 2 ^ 41 % 2 = 1 then 12 + dpa / 2 ^ 37 % 16 else dpa / 2 ^ 37 % 16
/-- The epoch page of a DPA on its controller (R230). -/
def pageOf (dpa : Nat) : Nat :=
  if dpa / 2 ^ 41 % 2 = 1 then dpa % 2 ^ 37 / 2 ^ 18 else dpa % 2 ^ 37 / 2 ^ 16
/-- The frame that holds a DPA. -/
def frameOf (dpa : Nat) : Nat :=
  if dpa / 2 ^ 41 % 2 = 1 then dpa / 2 ^ 18 * 2 ^ 18 else dpa / 2 ^ 21 * 2 ^ 21
/-- Bytes of a frame: 2 MiB in HBM, 256 KiB in the Reservoir. -/
def frameSize (rsv : Bool) : Nat := if rsv then 2 ^ 18 else 2 ^ 21
/-- The DPA of frame `f` of stack or package `u`. -/
def mkDpa (rsv : Bool) (u off : Nat) : Nat := (if rsv then 2 ^ 41 else 0) + u * 2 ^ 37 + off
/-- A frame inside a device region (R221). -/
def isDevice (dpa : Nat) : Bool :=
  let off := dpa % 2 ^ 37
  if dpa / 2 ^ 41 % 2 = 1 then off < 128 * 2 ^ 20 else ctlOf dpa % 3 == 0 && off < 128 * 2 ^ 20

def State.frame (s : State) (f : Nat) : FrameSt := FMap.get .free s.mem.frames f

/-! ### Translation (R89, R90) -/

/-- The page size of the tier of a DOMAIN offset. -/
def pageSize (off : Nat) : Nat := if 2 ^ 56 ≤ off then 2 ^ 18 else 2 ^ 21

/-- The leaf entry of a DOMAIN offset. -/
def Dom.pte (m : Dom) (off : Nat) : Option Pte :=
  if 2 ^ 56 ≤ off then FMap.find? m.ptR ((off - 2 ^ 56) / 2 ^ 18) else FMap.find? m.ptH (off / 2 ^ 21)

/-- The DPA of a DOMAIN offset. -/
def Dom.dpa (m : Dom) (off : Nat) : Option Nat := (m.pte off).map fun p => p.frame + off % pageSize off

/-- Starts of the pages of size `ps` that a range touches; the first entry is the range's own start. -/
def startsIn (ps off n : Nat) : List Nat :=
  off :: ((List.range ((off + n - 1) / ps - off / ps)).map fun i => (off / ps + i + 1) * ps)

/-- Page starts of a range; one that crosses from the HBM half to the Reservoir half has the pages of each (R89). -/
def pageStarts (off n : Nat) : List Nat :=
  if off < 2 ^ 56 ∧ 2 ^ 56 < off + n then startsIn (2 ^ 21) off (2 ^ 56 - off) ++ startsIn (2 ^ 18) (2 ^ 56) (off + n - 2 ^ 56)
  else startsIn (pageSize off) off n

/-- The permissions an access needs (R90). -/
structure Need where
  r : Bool := false
  w : Bool := false
  x : Bool := false
  k : Bool := true

def Pte.allows (p : Pte) (q : Need) : Bool := (!q.r || p.r) && (!q.w || p.w) && (!q.x || p.x) && (!q.k || p.k)

/-- NOMAP or PERM faults of a DOMAIN range. -/
def Dom.mapFlts (m : Dom) (adr : DWord) (off n : Nat) (q : Need) : List Flt :=
  if n = 0 then []
  else
    let ps := pageStarts off n
    fltIf (ps.any fun a => (m.pte a).isNone) .nomap adr
      ++ fltIf (ps.any fun a => match m.pte a with | some p => !p.allows q | none => false) .perm adr

/-- A range is mapped with the permissions needed. -/
def Dom.mapOk (m : Dom) (off n : Nat) (q : Need) : Bool := (m.mapFlts 0 off n q).isEmpty

/-- A read of the line that holds a DPA meets poison: the line is poisoned, or its stored bits fail their check (R233, R243). -/
def State.badLine (s : State) (dpa : Nat) : Bool :=
  FMap.get false s.mem.bad (dpa / 256) || FMap.get 0 s.mem.noise (dpa / 256) == 2

/-- The DPA of the first poisoned line in a DOMAIN range (R243). -/
def State.poisonAt (s : State) (d off n : Nat) : Option Nat :=
  if n = 0 then none
  else
    ((List.range ((off + n - 1) / 256 - off / 256 + 1)).filterMap fun i =>
      match (s.dom d).dpa ((off / 256 + i) * 256) with
      | some a => if s.badLine a then some a else none
      | none => none).head?

/-- Bytes of a mapped DOMAIN range. -/
def State.rdDom (s : State) (d off n : Nat) : List Byte :=
  (List.range n).map fun i =>
    match (s.dom d).dpa (off + i) with
    | some a => Memory.rd s.mem.data a
    | none => 0

/-! ### Seal buffers and page counters (R232, R237, R238) -/

/-- Bytes of a tag block. -/
def tagBlock (c : Nat) : Nat := if 12 ≤ c then 8192 else 2048
/-- Lines of an epoch page (R230). -/
def pageLines (c : Nat) : Nat := if 12 ≤ c then 1024 else 256
/-- Seal-buffer entries of a controller, the most one domain may hold, and those guaranteed to a domain with a floor (R232). -/
def sealCap (c : Nat) : Nat := if 12 ≤ c then 16 else 64
def sealDom (c : Nat) : Nat := if 12 ≤ c then 4 else 16
def sealOwn (c : Nat) : Nat := if 12 ≤ c then 1 else 4
/-- 512 cycles of a controller's clock, 1.0 GHz in HBM and 1.2 GHz in the Reservoir, in ns rounded up, and 256 cycles (R232). -/
def sealIdle (c : Nat) : Nat := if 12 ≤ c then 427 else 512
def sealMin (c : Nat) : Nat := if 12 ≤ c then 214 else 256

/-- A domain's floor in a tier (R245). -/
def floorOf (rsv : Bool) (m : MemDom) : Nat := m.bw.toNat / (if rsv then 2 ^ 16 else 1) % 256
/-- A domain's slice of every counter cache of a tier (R248). -/
def sliceOf (rsv : Bool) (m : MemDom) : Nat := if rsv then m.cc.toNat / 2 ^ 16 % 2 ^ 10 else m.cc.toNat % 2 ^ 12

/-- What a controller knows of the domains: its number, who has a floor in its tier, and the slices of its counter cache. -/
structure CtlEnv where
  c : Nat
  res : Nat → Bool
  slice : Nat → Nat
  slices : Nat

def State.env (s : State) (c : Nat) : CtlEnv :=
  let rsv := decide (12 ≤ c)
  { c := c, res := fun d => floorOf rsv (s.memDom d) != 0, slice := fun d => sliceOf rsv (s.memDom d)
    slices := s.mem.doms.foldl (fun n p => n + sliceOf rsv p.2) 0 }

/-! ### The counter cache (R236, R248) -/

/-- Lines of a counter cache (R236). -/
def ccCap (c : Nat) : Nat := if 12 ≤ c then 1024 else 4096
/-- The cache line of page `p`'s counter, and that of the tag chunk of its line `j`. -/
def ctrLine (p : Nat) : Nat := 2 * (p / 16)
def tagLine (p j : Nat) : Nat := 2 * (p * 128 + j / 8) + 1
/-- The pages that a cache line covers include page `p`. -/
def coversPage (k p : Nat) : Bool := if k % 2 = 0 then k / 2 == p / 16 else k / 2 / 128 == p

/-- Lines that domain `d` occupies. -/
def ccHeld (l : List (Nat × Nat)) (d : Nat) : Nat := (l.filter fun e => e.2 == d).length
/-- Lines in use that no slice holds: every owner's beyond its slice. -/
def ccBeyond (l : List (Nat × Nat)) (slice : Nat → Nat) : Nat :=
  ((l.map Prod.snd).eraseDups.map fun d => ccHeld l d - slice d).foldl (· + ·) 0

/-- Bring a line in for domain `d` (R248): into its slice, or a line that no slice holds; else in place of its own least recently used
line of the set (which of the two comes first, and what a set is: log 60). -/
def ccFill (v : CtlEnv) (l : List (Nat × Nat)) (d k : Nat) : List (Nat × Nat) :=
  if l.length < ccCap v.c ∧ (ccHeld l d < v.slice d ∨ ccBeyond l v.slice < ccCap v.c - v.slices) then (k, d) :: l
  else match l.reverse.find? fun e => e.2 == d && Config.ccSet v.c e.1 == Config.ccSet v.c k with
    | some e => (k, d) :: l.filter fun x => x.1 != e.1
    | none => l

/-- A lookup: a line that is held moves to the front; another is brought in. -/
def ccUse (v : CtlEnv) (l : List (Nat × Nat)) (d k : Nat) : List (Nat × Nat) :=
  match l.find? fun e => e.1 == k with
  | some e => e :: l.filter fun x => x.1 != k
  | none => ccFill v l d k

/-- A line read of page `p` by its owner `d` (R234, R236): the counter's line; and the tag chunk, from memory unless the cache holds it.
A line that the open batch has written is verified against the seal buffer (R232). -/
def MemCtl.slotRead (x : MemCtl) (v : CtlEnv) (d p j : Nat) : MemCtl :=
  let cc := ccUse v x.cc d (ctrLine p)
  if x.seals.any (fun e => e.page == p && e.lines.getLsbD j) then { x with cc := cc }
  else { x with
    cc := ccUse v cc d (tagLine p j)
    tagb := x.tagb + (if cc.any fun e => e.1 == tagLine p j then 0 else 64) }

/-! ### Seal buffers -/

/-- The least recently written entry that satisfies a test. -/
def oldestSeal (p : Seal → Bool) (l : List Seal) : Option Seal :=
  l.foldl (fun best e => if p e then (match best with
    | none => some e
    | some b => if e.last < b.last then some e else some b) else best) none

/-- The first entry that may be evicted, of those that satisfy a test. -/
def earliestSeal (p : Seal → Bool) (l : List Seal) : Option Seal :=
  l.foldl (fun best e => if p e then (match best with
    | none => some e
    | some b => if e.opened < b.opened then some e else some b) else best) none

/-- Tag bytes that closing an entry moves: the block out, and the tag chunks in that the batch did not rewrite completely
(R234). -/
def Seal.bytes (e : Seal) (c : Nat) : Nat :=
  let n := tagBlock c / 64
  let full := ((List.range n).filter fun i => e.lines.toNat / 2 ^ (8 * i) % 256 == 255).length
  tagBlock c + 64 * (n - full)

/-- Close the entry of a page (R232). -/
def MemCtl.closeSeal (x : MemCtl) (c p : Nat) : MemCtl :=
  match x.seals.find? fun e => e.page == p with
  | some e => { x with seals := x.seals.filter (fun e => e.page != p), tagb := x.tagb + e.bytes c }
  | none => x

/-- Domain `d` may evict an entry (R232, R247): at its limit only its own; else none that is guaranteed to another. -/
def MemCtl.mayEvict (x : MemCtl) (v : CtlEnv) (d : Nat) (e : Seal) : Bool :=
  let held (o : Nat) := (x.seals.filter fun y => y.dom == o).length
  e.dom == d || (decide (held d < sealDom v.c) && !(v.res e.dom && decide (held e.dom ≤ sealOwn v.c)))

/-- Make room in a seal buffer for domain `d`, and the time at which there is room (R232): an entry open for 256 cycles is evicted, the
least recently written first; a write that finds none waits for the first that becomes so, or for an idle close. -/
def MemCtl.evict (x : MemCtl) (v : CtlEnv) (d now : Nat) : MemCtl × Nat :=
  if (x.seals.filter fun e => e.dom == d).length < sealDom v.c ∧ x.seals.length < sealCap v.c then (x, now)
  else match oldestSeal (fun e => x.mayEvict v d e && decide (e.opened + sealMin v.c ≤ now)) x.seals with
    | some e => (x.closeSeal v.c e.page, now)
    | none => match earliestSeal (x.mayEvict v d) x.seals with
      | some e => (x.closeSeal v.c e.page, e.opened + sealMin v.c)
      | none => match oldestSeal (fun _ => true) x.seals with
        | some e => (x.closeSeal v.c e.page, max now (e.last + sealIdle v.c))
        | none => (x, now)

/-- The generation of a page: current when its parity bit is that of G_d (R237). -/
def MemCtl.inCur (x : MemCtl) (d p : Nat) : Bool :=
  FMap.get false x.parity p == ((FMap.get {} x.gens d).g % 2 == 1)

/-- An advance of C raises the high-water mark of the page's generation (R237). -/
def MemCtl.raiseH (x : MemCtl) (d p c : Nat) : MemCtl :=
  let g := FMap.get {} x.gens d
  let g' := if x.inCur d p then { g with h := max g.h c } else { g with hOld := max g.hOld c }
  { x with gens := FMap.set {} x.gens d g' }

/-- Lines `lo` to `hi` of page `p` get E := C, the value set when the page was opened (R232). -/
def MemCtl.stamp (x : MemCtl) (p lo hi : Nat) : MemCtl :=
  { x with e := (List.range (hi + 1 - lo)).foldl (fun (m : FMap Nat) i => FMap.set 0 m (p * 1024 + lo + i) (FMap.get 0 x.c p)) x.e }

/-- A page's data lines from `lo` up to but not `hi` take new epochs (R238), or the ZERO marker (R224). -/
def MemCtl.restamp (x : MemCtl) (p lo hi : Nat) (v : Option Nat) : MemCtl :=
  { x with e := x.e.filterMap fun (q : Nat × Nat) =>
    if p * 1024 + lo ≤ q.1 ∧ q.1 < p * 1024 + hi then v.map fun n => (q.1, n) else some q }

/-- A batch that opens a page with C ≥ 0xC000_0000 queues it for re-key, while the queue has room (R238). -/
def MemCtl.queueAt (x : MemCtl) (p c : Nat) : MemCtl :=
  if decide (0xC0000000 ≤ c) && decide (x.rkq.length < 256) && !x.rkq.contains p then { x with rkq := x.rkq ++ [p] } else x

/-- The page of a write is open (R232): an open page stays open, a closed one opens with C + 1. -/
def MemCtl.openPage (x : MemCtl) (v : CtlEnv) (d p now lo hi : Nat) : MemCtl :=
  let m : BitVec 1024 := BitVec.ofNat 1024 ((2 ^ (hi + 1 - lo) - 1) * 2 ^ lo)
  if x.seals.any (fun e => e.page == p) then
    { x with seals := x.seals.map fun e => if e.page = p then { e with last := now, lines := e.lines ||| m } else e }
  else
    let r := x.evict v d now
    let y := r.1
    let cc := FMap.get 0 y.c p + 1
    ({ (y.raiseH d p cc) with
      c := FMap.set 0 y.c p cc, cc := ccUse v y.cc d (ctrLine p)
      seals := y.seals ++ [{ page := p, dom := d, opened := r.2, last := r.2, lines := m }] } : MemCtl).queueAt p cc

/-- A write to lines `lo` to `hi` of epoch page `p` (R230, R232): the lines of `part`, not covered whole, are first read. -/
def MemCtl.touch (x : MemCtl) (v : CtlEnv) (d p now lo hi : Nat) (part : List Nat) : MemCtl :=
  ((part.foldl (fun (y : MemCtl) j => y.slotRead v d p j) x).openPage v d p now lo hi).stamp p lo hi

/-- A new write to the page of a DPA waits: the page is being re-keyed (R238), or is closed with its C at 0xFFFF_FFFD (R240). -/
def State.mustHold (s : State) (dpa : Nat) : Bool :=
  let x := s.ctl (ctlOf dpa)
  (match x.rk with | some r => r.page == pageOf dpa | none => false)
    || (!x.seals.any (fun e => e.page == pageOf dpa) && decide (0xFFFFFFFD ≤ FMap.get 0 x.c (pageOf dpa)))

/-- Bytes of the epoch page of a DPA. -/
def epochSize (dpa : Nat) : Nat := if dpa / 2 ^ 41 % 2 = 1 then 2 ^ 18 else 2 ^ 16

/-- The first DPAs that a write of `n` bytes has in each epoch page. -/
def epochStarts (dpa n : Nat) : List Nat := startsIn (epochSize dpa) dpa n

/-- The lines at the ends of a run of bytes that it does not cover whole, by number in their epoch page. -/
def partLines (a n : Nat) : List Nat :=
  let lo := a % epochSize a / 256
  let hi := (a % epochSize a + n - 1) / 256
  (if a % 256 ≠ 0 ∨ n < 256 then [lo] else []) ++ (if (a + n) % 256 ≠ 0 ∧ lo ≠ hi then [hi] else [])

/-- The epoch pages of a write of `n` bytes at a DPA are opened, and its lines take their epoch (R232). -/
def State.touchDpa (s : State) (d dpa n : Nat) : State :=
  if n = 0 then s
  else (epochStarts dpa n).foldl (fun t a =>
    let m := min (dpa + n) ((a / epochSize a + 1) * epochSize a) - a
    t.modCtl (ctlOf a) fun x =>
      x.touch (t.env (ctlOf a)) d (pageOf a) t.clk (a % epochSize a / 256) ((a % epochSize a + m - 1) / 256) (partLines a m)) s

/-- The lines that a run of `n` bytes at a DPA covers whole. -/
def wholeLines (dpa n : Nat) : List Nat :=
  (List.range (n / 256)).filterMap fun i =>
    let l := (dpa + 255) / 256 + i
    if (l + 1) * 256 ≤ dpa + n then some l else none

/-- A corrected event on a frame: the 8th within 24 h of Beacon time marks it RETIRE (R244). -/
def State.corrected (s : State) (dpa : Nat) : State :=
  let f := frameOf dpa
  let day := 24 * 3600 * 1000000000
  let l := (FMap.get [] s.mem.corrs f).filter (fun t => decide (s.beacon < t + day)) ++ [s.beacon]
  let fr := match s.frame f with
    | .domain d => if 8 ≤ l.length then FrameSt.retire d else .domain d
    | x => x
  { s with mem := { s.mem with corrs := FMap.set [] s.mem.corrs f l, frames := FMap.set .free s.mem.frames f fr } }

/-- The code corrects a line: the event is counted, its bits are sound again (R241, R242). -/
def State.mendLine (s : State) (line : Nat) : State :=
  let s := { s with mem := { s.mem with noise := FMap.set 0 s.mem.noise line 0 } }
  (s.modCtl (ctlOf (256 * line)) fun x => { x with corr := x.corr + 1 }).corrected (256 * line)

/-- Write bytes at a DPA on behalf of domain `d`: the bytes, the page's counter, and the poison and the damage of lines covered whole
(R243). A line covered in part is merged with what it held: what the code corrects is rewritten sound (log 61). -/
def State.wrNow (s : State) (d dpa : Nat) (bs : List Byte) : State :=
  let n := bs.length
  let full := wholeLines dpa n
  let ends := ([dpa / 256, (dpa + n - 1) / 256].eraseDups).filter fun l => !full.contains l && FMap.get 0 s.mem.noise l == 1
  let s0 := ends.foldl State.mendLine s
  let s1 := { s0 with mem := { s0.mem with
    data := Memory.wrN s.mem.data dpa bs
    bad := full.foldl (fun b l => FMap.set false b l false) s.mem.bad
    noise := full.foldl (fun b l => FMap.set 0 b l 0) s0.mem.noise } }
  s1.touchDpa d dpa n

/-- A write of some epoch page of which must wait. -/
def State.holds (s : State) (dpa n : Nat) : Bool := (epochStarts dpa n).any s.mustHold

/-- Write bytes at a DPA on behalf of domain `d`; a write that must wait is held at the controller (R238, R240, log 21). -/
def State.wrDpa (s : State) (d dpa : Nat) (bs : List Byte) : State :=
  if s.holds dpa bs.length then { s with mem := { s.mem with heldW := s.mem.heldW ++ [(d, dpa, bs)] } }
  else s.wrNow d dpa bs

/-- Cut a byte run at page boundaries: pairs of an offset and its bytes. -/
def cutPages (off : Nat) (bs : List Byte) : List (Nat × List Byte) :=
  if bs.isEmpty then []
  else (pageStarts off bs.length).map fun a =>
    (a, (bs.drop (a - off)).take ((a / pageSize a + 1) * pageSize a - a))

/-- Write bytes to a mapped DOMAIN range. -/
def State.wrDom (s : State) (d off : Nat) (bs : List Byte) : State :=
  (cutPages off bs).foldl (fun t p => match (t.dom d).dpa p.1 with
    | some a => t.wrDpa d a p.2
    | none => t) s

/-! ### Errors of a line (R242 to R244) -/

/-- Poison a line: the marker, the record, the counter, the frame (R243, R244). -/
def State.poisonLine (s : State) (d dpa : Nat) : State :=
  let f := frameOf dpa
  let fr := match s.frame f with
    | .domain e => FrameSt.retire e
    | x => x
  let s := { s with mem := { s.mem with
    bad := FMap.set false s.mem.bad (dpa / 256) true, frames := FMap.set .free s.mem.frames f fr } }
  let s := s.modCtl (ctlOf dpa) fun x => { x with poison := x.poison + 1 }
  s.logErr d { time := s.beacon, kind := 4, adr := BitVec.ofNat 64 dpa, detail := [BitVec.ofNat 8 (ctlOf dpa)] }

/-! ### Fence words (R94, R99) -/

def bit63 : DWord := 0x8000000000000000#64
/-- The unsigned maximum. -/
def umax (a b : DWord) : DWord := if a.toNat < b.toNat then b else a
/-- A signal with value v. -/
def sigWord (v w : DWord) : DWord := umax w v
/-- The abort of a command with target g. -/
def abortWord (g w : DWord) : DWord := umax w (bit63 ||| g)
/-- The abort of the context owning a FENCE word. -/
def ownerWord (w : DWord) : DWord := umax w (bit63 ||| w)

/-- An increase of the micro-batch word through the fence path ends a micro-batch (R215). -/
def MbSt.mark (m : MbSt) (n : Nat) (old new : DWord) (now : Nat) : MbSt :=
  if m.en ∧ m.word = n ∧ old.toNat < new.toNat then
    let t := now - m.start
    { m with
      start := now, n := m.n + 1, sum := m.sum + t
      max := if m.n = 0 ∨ m.max < t then t else m.max
      argmax := if m.n = 0 ∨ m.max < t then m.n else m.argmax
      min := if m.n = 0 ∨ t < m.min then t else m.min }
  else m

/-- Change FENCE word `n` of domain `d` through the fence path. -/
def State.fenceWord (s : State) (d n : Nat) (f : DWord → DWord) : State :=
  s.modDom d fun m =>
    let old := FMap.get 0 m.fences n
    { m with fences := FMap.set 0 m.fences n (f old), mb := m.mb.mark n old (f old) s.beacon }

/-- The memory a logical Wick's LOCAL space is, and its Lantern's. -/
def State.lmemOf (s : State) (d c k : Nat) (lant : Bool) : Memory :=
  match s.ctx? d c with
  | some x => if lant then FMap.get [] x.lmem (k / 8) else (x.wick k).lmem
  | none => []

def State.setLmem (s : State) (d c k : Nat) (lant : Bool) (m : Memory) : State :=
  s.modCtx d c fun x =>
    if x.status = .aborted then x
    else if lant then { x with lmem := FMap.set [] x.lmem (k / 8) m }
    else x.setWick k { x.wick k with lmem := m }

/-- The value of a fence word (R94); a DOMAIN word is read through the domain's translation. -/
def State.fenceGet (s : State) (d c k : Nat) (adr : DWord) : DWord :=
  let o := offOf adr
  match spaceOf adr with
  | some .fence => FMap.get 0 (s.dom d).fences (o / 8)
  | some .loc => BitVec.ofNat 64 (leNat (Memory.rdN (s.lmemOf d c k false) o 8))
  | some .lant => BitVec.ofNat 64 (leNat (Memory.rdN (s.lmemOf d c k true) o 8))
  | some .dom => BitVec.ofNat 64 (leNat (s.rdDom d o 8))
  | _ => 0

/-- Change a fence word through the fence path; a DOMAIN word must be mapped with write and Wick permission (R615),
otherwise it is not written and the fault is answered. -/
def State.fencePut (s : State) (d c k : Nat) (adr : DWord) (f : DWord → DWord) : State × Option FCode :=
  let o := offOf adr
  let v := f (s.fenceGet d c k adr)
  match spaceOf adr with
  | some .fence => (s.fenceWord d (o / 8) f, none)
  | some .loc => (s.setLmem d c k false (Memory.wrN (s.lmemOf d c k false) o (leBytes 8 v.toNat)), none)
  | some .lant => (s.setLmem d c k true (Memory.wrN (s.lmemOf d c k true) o (leBytes 8 v.toNat)), none)
  | some .dom =>
    match firstFlt ((s.dom d).mapFlts adr o 8 { w := true }) with
    | some e => (s, some e.code)
    | none => (s.wrDom d o (leBytes 8 v.toNat), none)
  | _ => (s, none)

/-- Raise a completion fence as aborted (R94); a word that cannot be written is left (R359). -/
def State.abortFence (s : State) (d c : Nat) (f : Option FenceRef) : State :=
  match f with
  | some r => (s.fencePut d c r.wk r.adr (abortWord r.val)).1
  | none => s

/-- Raise every FENCE word owned by a Wick of a context and clear its owner entry (R99). -/
def State.raiseOwned (s : State) (d c : Nat) : State :=
  ((s.dom d).owners.filter (fun p => p.2.toNat % 2 ^ 16 == c && p.2.toNat / 2 ^ 30 == 1)).foldl
    (fun t p => (t.fenceWord d p.1 ownerWord).modDom d fun m => { m with owners := FMap.set 0 m.owners p.1 0 }) s

/-! ### Breaking a communicator (R322) -/

/-- The COLL packet part of a control message: MSGTYPE, COMM, RANK, VALUE, CAUSE (R316). -/
def collMsg (ty comm rank value cause : Nat) : BitVec 192 :=
  BitVec.ofNat 192 (ty + comm * 2 ^ 16 + rank * 2 ^ 32 + value % 2 ^ 64 * 2 ^ 64 + cause * 2 ^ 128)

/-- The domain a binding lists on a chip. -/
def Binding.domOn (b : Binding) (chip : Nat) : Option Nat := (b.chips.find? fun p => p.1 == chip).map (·.2)

/-- Send a control message of the collective engine to a rank (R316). -/
def State.sendColl (s : State) (d id : Nat) (x : Comm) (rank ty value cause : Nat) : State :=
  let chip := x.ranks.getD rank 0
  let dd := match (s.dom d).binding with | some b => (b.domOn chip).getD 0 | none => 0
  s.send { dst := BitVec.ofNat 13 chip, src := BitVec.ofNat 13 s.fab.chip, tc := 3, ptype := 8
           sdom := BitVec.ofNat 8 d, ddom := BitVec.ofNat 8 dd, pspec := collMsg ty id x.myrank value cause }

/-- The 64 bytes of the status block (R300). -/
def Comm.statusBytes (x : Comm) : List Byte :=
  let miss := x.missing
  leBytes 1 (match x.st with | .creating => 0 | .ready => 1 | .broken => 2) ++ leBytes 1 x.cause ++ leBytes 2 0
    ++ leBytes 4 miss.length ++ leBytes 8 x.issued ++ leBytes 8 x.done
    ++ leBytes 8 (match x.ops with | [] => 0 | o :: _ => o.issued)
    ++ leBytes 4 (match miss with | [] => 0xFFFFFFFF | r :: _ => r) ++ leBytes 4 x.waits ++ leBytes 4 x.breakRank
    ++ leBytes 20 0

/-- Write the status block; skipped when the page is unmapped or not writable (R300). -/
def State.writeStatus (s : State) (d : Nat) (x : Comm) : State :=
  let o := offOf x.status
  if (s.dom d).mapOk o 64 { w := true, k := false } then s.wrDom d o x.statusBytes else s

/-- Drop an update and raise its fence as aborted; it writes no record (R322, R359). -/
def State.stopUpd (s : State) (u : Upd) : State :=
  let s := { s with eng := { s.eng with upds := s.eng.upds.filter fun (v : Upd) => v.num != u.num } }
  s.abortFence u.dom u.ctx u.fence

/-- A communicator breaks on this member (R322): BREAK to every other member once, every outstanding collective's fence
raised in issue order, its fused updates stopped, the status block written. -/
def State.breakComm (s : State) (d id cause rank : Nat) : State :=
  match s.comm? d id with
  | none => s
  | some x =>
    if x.st = .broken then s
    else
      let seq := match x.ops with | [] => x.issued | o :: _ => o.seq
      let s := x.others.foldl (fun t r => t.sendColl d id x r 0x0102 seq cause) s
      let s := x.ops.foldl (fun t o =>
        let t := t.abortFence d o.ctx o.fence
        match o.upd with
        | some n => (t.eng.upds.filter fun (u : Upd) => u.num == n).foldl (fun u v => u.stopUpd v) t
        | none => t) s
      let y := { x with st := .broken, cause := cause, breakRank := rank, done := x.done + x.ops.length, ops := [] }
      let s := s.setComm d id y
      let s := { s with
        eng := { s.eng with broken := FMap.modify 0 s.eng.broken d fun c => satAdd 32 c 1 }
        fab := { s.fab with held := s.fab.held.map fun (h : Held) =>
          match h.owner with
          | .coll d' i _ => if d' = d ∧ i = id then { h with owner := .nobody } else h
          | _ => h } }
      s.writeStatus d y

/-! ### Releasing frames (R244, R334, R364) -/

/-- A frame is released by its owner: FREE, or FENCED when it was marked RETIRE (R244). -/
def State.releaseFrame (s : State) (f : Nat) : State :=
  let rsv := f / 2 ^ 41 % 2 = 1
  let d? : Option Nat := match s.frame f with
    | .domain d => some d
    | .retire d => some d
    | _ => none
  let s := match d? with
    | some d =>
      let m := s.memDom d
      s.setMemDom d (if rsv then { m with usedR := m.usedR - 1 } else { m with usedH := m.usedH - 1 })
    | none => s
  match s.frame f with
  | .retire _ =>
    let n := s.mgmt.nvs
    let s := { s with
      mem := { s.mem with frames := FMap.set .free s.mem.frames f .fenced }
      mgmt := { s.mgmt with nvs := { n with fences := if n.fences.contains (3, f) then n.fences else n.fences ++ [(3, f)] }
                            gut := { s.mgmt.gut with frames := s.mgmt.gut.frames ++ [s.beacon] } } }
    (s.modCtl (ctlOf f) fun x => { x with fencedFrames := x.fencedFrames + 1 }).sootLog 1 2 8 [3, f]
  | .domain _ => { s with mem := { s.mem with frames := FMap.set .free s.mem.frames f .free } }
  | _ => s

/-- The first DPA of an epoch page. -/
def dpaOfPage (c p : Nat) : Nat := if 12 ≤ c then mkDpa true (c - 12) (p * 2 ^ 18) else mkDpa false c (p * 2 ^ 16)

/-- The domain that owns a page. -/
def State.pageOwner (s : State) (c p : Nat) : Option Nat :=
  match s.frame (frameOf (dpaOfPage c p)) with
  | .domain d => some d
  | .retire d => some d
  | _ => none

/-- The controller's scan queues pages past the threshold while places are free (R238). -/
def State.refillRkq (s : State) (c : Nat) : State :=
  let x := s.ctl c
  let found := (x.c.filter fun (q : Nat × Nat) =>
    decide (0xC0000000 ≤ q.2) && !x.rkq.contains q.1 && (s.pageOwner c q.1).isSome).map Prod.fst
  let new := found.take (256 - x.rkq.length)
  if new.isEmpty then s else s.setCtl c { x with rkq := x.rkq ++ new }

/-- A frame leaves its owner: its open pages, its places in the re-key queue (R238), its cache lines and its held writes go. -/
def State.forgetSeals (s : State) (f : Nat) : State :=
  let n := if f / 2 ^ 41 % 2 = 1 then 1 else 32
  let mine (p : Nat) : Bool := decide (pageOf f ≤ p) && decide (p < pageOf f + n)
  let s := s.modCtl (ctlOf f) fun x =>
    { x with
      seals := x.seals.filter fun (e : Seal) => !mine e.page
      rkq := x.rkq.filter fun p => !mine p
      rk := x.rk.filter fun r => !mine r.page
      cc := x.cc.filter fun e =>
        !((decide (ctlOf f < 12) || e.1 % 2 == 1) && (List.range n).any fun i => coversPage e.1 (pageOf f + i)) }
  { s with mem := { s.mem with
    waiting := s.mem.waiting.filter fun w => !(w / 2 ^ 32 == ctlOf f && mine (w % 2 ^ 32))
    heldW := s.mem.heldW.filter fun w => frameOf w.2.1 != f } }

/-- A frame returns to the device; the controller's scan takes the places it frees in the re-key queue. -/
def State.dropFrame (s : State) (f : Nat) : State := ((s.forgetSeals f).releaseFrame f).refillRkq (ctlOf f)

/-- The frames of a program's save slots and fold areas return to the domain's quota (R359 step 7). -/
def State.releaseSlots (s : State) (p : Prog) : State := p.slots.flatten.foldl (fun t f => t.dropFrame f) s

/-! ### Tearing a context down (R359) -/

/-- How a teardown ends the program: a fault code, or destruction. -/
inductive EndCause where
  | fault (c : FCode)
  | destroyed
  deriving DecidableEq, Repr

/-- What a started or waiting command of the context completes with: LAUNCH with FAULT and its code, or ABORTED. -/
def abortCmd (cause : EndCause) (r : RunCmd) : RunCmd :=
  match cause with
  | .fault c =>
    if r.cmd.opcode = 0x10 then { r with st := some 0x10, result := BitVec.ofNat 64 c.num, raised := true }
    else { r with st := some 6, result := 0, raised := true }
  | .destroyed => { r with st := some 6, result := 0, raised := true }

/-- A command's completion fence is signalled or raised (R347). A DOMAIN word that cannot be written by now is left, with one
BADFENCE record (R615). -/
def State.cmdFence (s : State) (d : Nat) (c : Cmd) (ok : Bool) : State :=
  let o := offOf c.sref
  let f := if ok then sigWord c.sval else abortWord c.sval
  if c.flags.getLsbD 1 || o % 8 != 0 then s
  else match spaceOf c.sref with
    | some .fence => if o < 4096 then s.fenceWord d (o / 8) f else s
    | some .dom =>
      if (s.dom d).mapOk o 8 { r := true, w := true, k := false } then
        s.wrDom d o (leBytes 8 (f (s.fenceGet d 0 0 c.sref)).toNat)
      else s.logErr d { time := s.beacon, kind := 5, adr := c.sref, detail := leBytes 2 0xFFFF }
    | _ => s

/-- A command that carries a tag. -/
def Cmd.carries (cmd : Cmd) (c : Nat) : Bool := cmd.ctx.toNat == c
/-- A started command of a tag that has not completed, apart from CTX_DESTROY itself (R359). -/
def RunCmd.runs (r : RunCmd) (c : Nat) : Bool := r.cmd.carries c && r.cmd.opcode != 0x11 && !r.raised

/-- Step 3 for one queue: the started commands of the tag, and the waiting command at the queue's head, are aborted. -/
def SQueue.abortCtx (q : SQueue) (cause : EndCause) (c : Nat) : SQueue :=
  let q := { q with started := q.started.map fun (r : RunCmd) => if r.runs c then abortCmd cause r else r }
  match q.fetched with
  | h :: t =>
    if h.carries c && h.opcode != 0x11 && h.flags.getLsbD 0 then
      { q with fetched := t, started := q.started ++ [{ cmd := h, st := some 6, raised := true : RunCmd }] }
    else q
  | [] => q

/-- The commands of a queue that step 3 aborts. -/
def SQueue.abortees (q : SQueue) (c : Nat) : List Cmd :=
  (q.started.filter fun (r : RunCmd) => r.runs c).map (·.cmd)
    ++ (match q.fetched with
        | h :: _ => if h.carries c && h.opcode != 0x11 && h.flags.getLsbD 0 then [h] else []
        | [] => [])

/-- Is the Lantern free of the context (R359 step 7)? -/
def Lantern.release (x : Lantern) (d c : Nat) : Lantern :=
  if x.owner = some (d, c) then { x with owner := none, off := 0 } else x

/-- The checkpoint state of a domain. -/
def State.ck (s : State) (d : Nat) : Ckpt := FMap.get {} s.ckpt d
def State.setCk (s : State) (d : Nat) (x : Ckpt) : State := { s with ckpt := FMap.set {} s.ckpt d x }
def State.modCk (s : State) (d : Nat) (f : Ckpt → Ckpt) : State := s.setCk d (f (s.ck d))

/-- The PSPEC of a checkpoint message (R520). -/
def cutMsg (ty code : Nat) (a b : DWord) : BitVec 192 :=
  BitVec.ofNat 192 (ty + code * 2 ^ 16 + a.toNat * 2 ^ 64 + b.toNat * 2 ^ 128)

/-- Send a checkpoint message to a chip of the domain's binding (R520). -/
def State.sendCut (s : State) (d chip ty code : Nat) (a b : DWord) : State :=
  let dd := match (s.dom d).binding with | some x => (x.domOn chip).getD 0 | none => 0
  s.send { dst := BitVec.ofNat 13 chip, src := BitVec.ofNat 13 s.fab.chip, tc := 3, ptype := 8
           sdom := BitVec.ofNat 8 d, ddom := BitVec.ofNat 8 dd, pspec := cutMsg ty code a b }

/-- The coordinator of a domain's job: the lowest chip of its binding. -/
def State.coordOf (s : State) (d : Nat) : Nat :=
  match (s.dom d).binding with
  | some x => (x.chips.head?.map (·.1)).getD s.fab.chip
  | none => s.fab.chip

/-- The chip's epoch floor (R519). -/
def Ckpt.floor (x : Ckpt) : DWord := umax x.base x.seen

/-- The last recorded step of the domain's step context. -/
def State.ckStep (s : State) (d : Nat) : DWord :=
  match s.ctx? d (s.ck d).ctx with | some x => x.step | none => (s.dom d).stepNum

/-- CUT_STAT to the coordinator (R518, R520). -/
def State.cutStat (s : State) (d code : Nat) (step : DWord) : State :=
  s.sendCut d (s.coordOf d) 0x0501 code step (s.ck d).floor

/-- A request was on hand for a step context that is aborted (R523). -/
def State.cutLost (s : State) (d c : Nat) : State :=
  let k := s.ck d
  if k.conf && k.req && k.ctx == c then s.cutStat d 4 (s.ckStep d) else s

/-- A token of a context that has not been sent: its destination is unreachable or not confirmed (R276, R359). -/
def Held.unsentTok (h : Held) (d c : Nat) : Bool :=
  (match h.owner with | .tok d' c' _ => d' == d && c' == c | _ => false) && (h.st == .unreach || h.st == .unconf)

/-- What a held packet of context `x` becomes when that is torn down: a token keeps what its bounce record needs (R292, R359). -/
def Held.orphan (x : Ctx) (d c : Nat) (h : Held) : Held :=
  match h.owner with
  | .dma d' c' _ _ | .readReq d' c' _ _ => if d' = d ∧ c' = c then { h with owner := .nobody } else h
  | .tok d' c' k =>
    if d' = d ∧ c' = c then
      match (FMap.get {} x.wicks k : Wick).tokd.find? fun t => t.xtag == h.pkt.xtag.toNat with
      | some t => { h with owner := .lateTok d c t }
      | none => { h with owner := .nobody }
    else h
  | _ => h

/-- The abort of a context, whatever its cause (R359, steps 1 to 7), without the record of step 8; a tag that is not
LIVE is left as it is (R360). -/
def State.teardown (s : State) (d c : Nat) (cause : EndCause) : State :=
  match s.ctx? d c with
  | none => s
  | some x =>
    if x.status = .aborted then s
    else
      let s := s.cutLost d c
      -- 3: commands
      let cmds := ((s.dom d).qs.map fun p => p.2.abortees c).flatten
      let s := s.modDom d fun m => { m with qs := m.qs.map fun p => (p.1, p.2.abortCtx cause c) }
      let s := cmds.foldl (fun t cmd => t.cmdFence d cmd false) s
      -- 4: transfers
      let s := x.wicks.foldl (fun t p =>
        let t := p.2.dma.foldl (fun u q => q.2.foldl (fun v ds => v.abortFence d c ds.fence) u) t
        p.2.tokd.foldl (fun u tk => u.abortFence d c tk.fence) t) s
      let s := { s with fab := { s.fab with held := (s.fab.held.filter fun (h : Held) => !h.unsentTok d c).map (Held.orphan x d c) } }
      -- 5: communicators and updates
      let s := (FMap.get [] s.eng.comms d).foldl (fun t p =>
        if p.2.ops.any (fun o => o.ctx == c) then t.breakComm d p.1 1 p.2.myrank else t) s
      let s := (s.eng.upds.filter fun (u : Upd) => u.dom == d && u.ctx == c).foldl (fun t u => t.stopUpd u) s
      -- 6: owned fence words
      let s := s.raiseOwned d c
      -- 1, 2, 7: the tag, the Wicks, the Lanterns, the save slots
      let code := match cause with | .fault f => f | .destroyed => .aborted
      let s := { s with lanterns := s.lanterns.map fun (p : Nat × Lantern) => (p.1, p.2.release d c) }
      let s := match x.prog with | some p => s.releaseSlots p | none => s
      s.setCtx d c { x with status := .aborted, prog := none, wicks := [], lmem := [], held := false, retire := false
                            ended := some code }

/-- How many commands a teardown aborts (R358). -/
def State.abortCount (s : State) (d c : Nat) : Nat :=
  (((s.dom d).qs.map fun p => p.2.abortees c).flatten).length

/-- A fault of a context: the teardown, and one record (R81, R369). `k` is the Wick, `loc` the PC, `adr` the address. -/
def State.ctxFault (s : State) (d c k : Nat) (code : FCode) (loc adr : DWord) (detail : List Byte := []) : State :=
  match s.ctx? d c with
  | none => s
  | some x =>
    if x.status = .aborted then s
    else (s.teardown d c (.fault code)).logErr d
      { time := s.beacon, kind := 1, code := code.num, ctx := c, llant := k / 8, lwick := k % 8, loc := loc, adr := adr
        detail := detail }

/-- An asynchronous fault: the PC of the issuing bundle with bit 0 set (R80, R369). -/
def State.asyncFault (s : State) (d c k : Nat) (code : FCode) (pc adr : DWord) (detail : List Byte := []) : State :=
  s.ctxFault d c k code (pc ||| 1#64) adr detail

/-- A completion fence signalled with its value; a word that cannot be written faults the operation (R615), whose record holds `detail`
(R369: a collective's or update's sequence number). -/
def State.signalFence (s : State) (d c : Nat) (f : Option FenceRef) (pc : DWord) (detail : List Byte := []) : State :=
  match f with
  | none => s
  | some r =>
    match s.fencePut d c r.wk r.adr (sigWord r.val) with
    | (t, none) => t
    | (t, some e) => t.asyncFault d c r.wk e pc r.adr detail

end Sys2Proof.Machine
end

