-- ==== Sys2Proof/Machine/Domain.lean ====
section
/-! DEFINITION. Domains and the device as a whole: creating, destroying and fencing a domain (R333 to R336), releasing
frames (R244, R334), entering HOLD (R536), Soot entries, and the security events of R399 with their responses. -/

namespace Sys2Proof.Machine

/-! ### Frames -/

/-- Unmap the virtual pages of an allocation record and release their frames (R364). -/
def State.releaseRec (s : State) (d : Nat) (r : AllocRec) : State :=
  let rsv := 2 ^ 56 ≤ r.base
  let first := if rsv then (r.base - 2 ^ 56) / 2 ^ 18 else r.base / 2 ^ 21
  (List.range r.pages).foldl (fun t i =>
    let m := t.dom d
    match FMap.find? (if rsv then m.ptR else m.ptH) (first + i) with
    | some p =>
      let m' := if rsv then { m with ptR := FMap.erase m.ptR (first + i) }
                else { m with ptH := FMap.erase m.ptH (first + i) }
      let t := t.setDom d m'
      t.dropFrame p.frame
    | none => t) (s.modDom d fun m => { m with recs := m.recs.filter fun x => x != r })

/-- Release everything a domain has allocated; nothing is written to the frames (R334 step 5). -/
def State.releaseAll (s : State) (d : Nat) : State :=
  (s.dom d).recs.foldl (fun t r => t.releaseRec d r) s

/-! ### Destroying and creating a domain (R333 to R335) -/

/-- Remove the binding, leaving a closing binding (R335). -/
def State.unbind (s : State) (d : Nat) : State :=
  let m := s.dom d
  match m.binding with
  | some b => s.setDom d { m with binding := none, closing := some (b, s.beacon) }
  | none => s

/-- Return a communicator's reservations to its engine (R298). -/
def State.freeComm (s : State) (id : Nat) (x : Comm) : State :=
  let lv := if x.nranks ≤ 1 then 0 else Nat.log2 (x.nranks - 1) + 1
  s.modColl (id % 2) fun e =>
    { e with sums := e.sums - (if x.algo then 0 else x.depth), comb := e.comb - (if x.algo then x.depth * lv else 0) }

/-- Remove a communicator (R356). -/
def State.removeComm (s : State) (d id : Nat) : State :=
  match s.comm? d id with
  | some x => (s.freeComm id x).dropComm d id
  | none => s

/-- Every context of a domain is torn down (R334 step 2, R336). -/
def State.teardownAll (s : State) (d : Nat) (cause : EndCause) : State :=
  (s.dom d).ctxs.foldl (fun t p => t.teardown d p.1 cause) s

/-- Zero a domain's segment of both banks (R334 step 4). -/
def State.zeroEht (s : State) (d : Nat) : State :=
  let seg := FMap.get {} s.fab.segs d
  let keep := fun (p : Nat × BitVec 128) =>
    !(decide (seg.base * 256 ≤ p.1) && decide (p.1 < (seg.base + seg.len) * 256))
  { s with fab := { s.fab with
    bankA := s.fab.bankA.filter keep, bankB := s.fab.bankB.filter keep
    segs := FMap.set {} s.fab.segs d { seg with active := false, commit := none, copying := false } } }

/-- A memory key set: a 512-bit XTS data key pair and a 256-bit tag key (R380). -/
def memKeyLen : Nat := 96

/-- Every controller gets a fresh memory key set for a domain, whose first generation begins (R237, R333, R380). -/
def State.freshMemKeys (s : State) (d : Nat) : State :=
  (List.range 28).foldl (fun t c =>
    (t.modCtl c fun x => { x with gens := FMap.set {} x.gens d { key := t.newKey memKeyLen } }).drewKey memKeyLen) s

/-- The memory keys of a domain are erased (R334, R385). -/
def State.dropMemKeys (s : State) (d : Nat) : State :=
  { s with mem := { s.mem with ctls := s.mem.ctls.map fun (p : Nat × MemCtl) => (p.1, { p.2 with
      gens := FMap.modify {} p.2.gens d fun (g : GenSt) => { g with key := none, keyOld := none } }) } }

/-- The keys and sessions of a domain end with it (R334 step 5, R424, R432). -/
def State.eraseDomKeys (s : State) (d : Nat) : State :=
  ({ s with sec := s.sec.forgetDom d } : State).dropMemKeys d

/-- Disarm a domain's trigger slots (R487). -/
def State.disarm (s : State) (d : Nat) : State :=
  { s with bcn := { s.bcn with trigs := s.bcn.trigs.filter fun p => !(decide (128 ≤ p.1) && p.2.dom == d) } }

/-- Per-domain registers and engine state outside the domain return to their reset values (R333). -/
def State.clearDomRegs (s : State) (d : Nat) : State :=
  { s with
    bcn := { s.bcn with arb := FMap.set {} s.bcn.arb d {} }
    ckpt := FMap.set {} s.ckpt d {}
    fab := { s.fab with doms := FMap.set {} s.fab.doms d {} }
    eng := { s.eng with wait := FMap.set 0 s.eng.wait d 0, broken := FMap.set 0 s.eng.broken d 0 } }

/-- Destruction of a domain (R334): no completion entry and no record is written. The domain no longer exists. -/
def State.destroyDom (s : State) (d : Nat) : State :=
  let s := s.teardownAll d .destroyed
  let s := (FMap.get [] s.eng.comms d).foldl (fun t p => (t.breakComm d p.1 3 p.2.myrank).removeComm d p.1) s
  let s := s.unbind d
  let s := s.zeroEht d
  let s := s.releaseAll d
  let s := s.eraseDomKeys d
  let s := { s with mgmt := s.mgmt.forgetDom d }
  let s := (s.disarm d).clearDomRegs d
  let closing := (s.dom d).closing
  (s.setMemDom d {}).setDom d { closing := closing }

/-- Creation of a domain (R333): every per-domain register at its reset value, fresh memory keys. -/
def State.createDom (s : State) (d : Nat) : State :=
  let closing := (s.dom d).closing
  (((s.setMemDom d {}).setDom d { there := true, closing := closing }).clearDomRegs d).freshMemKeys d

/-- Destroy every domain that exists. -/
def State.destroyAll (s : State) : State :=
  s.doms.foldl (fun t p => if p.2.there then t.destroyDom p.1 else t) s

/-- Fence a domain (R336). -/
def State.fenceDom (s : State) (d cause : Nat) : State :=
  let m := s.dom d
  if !m.there || m.fenced then s
  else
    let s := s.teardownAll d .destroyed
    let s := ((s.modDom d fun m => { m with fenced := true, fcause := cause }).disarm d).raiseIrq (d + 1) 0
    s.logErr d { time := s.beacon, kind := 8, code := cause }

/-- An ALERT_STATUS bit is set: SMB_ALERT_N goes low, and under I3C one in-band interrupt is raised (R470, R471). -/
def State.setAlert (s : State) (bit : Nat) : State :=
  let t := s.mgmt.smb
  let b : BitVec 8 := 1#8 <<< bit
  let new := t.status &&& b == 0
  let t := { t with status := t.status ||| b
                    alert := t.alert || (new && (t.mask &&& b != 0))
                    ibi := t.ibi + (if new && (t.mask &&& b != 0) && t.dyn.isSome then 1 else 0) }
  { s with mgmt := { s.mgmt with smb := t } }

/-! ### HOLD (R536, R544, R545) -/

/-- Enter HOLD with a cause: VF Enable reads 0, so every domain is destroyed; links are OFF; no engine runs. -/
def State.enterHold (s : State) (cause : Nat) : State :=
  let s := (s.destroyAll.sootLog 0 3 2 [cause]).setAlert 3
  { s with
    dev := { s.dev with st := .hold, cause := cause, vfEnable := false, numVfs := 0 }
    mgmt := { s.mgmt with pins := { s.mgmt.pins with holdLow := true } }
    fab := s.fab.linksOff }

/-! ### The service port's command -/

def State.modUsb (s : State) (f : UsbSt → UsbSt) : State := { s with mgmt := { s.mgmt with usb := f s.mgmt.usb } }

/-- The running command completes (R463, R465): the result is retained among the last 16. -/
def State.usbDone (s : State) (st : Nat) (body : List Byte := []) : State :=
  match s.mgmt.usb.running with
  | none => s
  | some (seq, op, _, _) =>
    let r : UsbRes := { seq := seq, op := op, status := st, body := body }
    let s := s.modUsb fun u => { u with
      running := none, at_ := s.clk, results := (u.results ++ [r]).drop ((u.results.length + 1) - 16) }
    s.sootLog 0 1 0xA [s.mgmt.usb.session.getD 0, seq, st]

/-- A USB bundle load whose cores are stopped ends with LOADFAIL, STARTFAIL (R438, R466). -/
def State.loadCut (s : State) : State :=
  if s.mgmt.fw.await ≠ 0 ∧ s.mgmt.fw.source = 2 then s.usbDone 8 (leBytes 1 9) else s

/-! ### Security events (R399 to R402) -/

/-- Floor, default and ceiling of a configurable event (R399). -/
def alarmRange : Nat → Option (Nat × Nat × Nat)
  | 0x01 => some (0, 0, 1) | 0x02 => some (1, 1, 2) | 0x03 => some (0, 0, 1) | 0x04 => some (1, 1, 2)
  | 0x05 => some (0, 0, 2) | 0x06 => some (2, 2, 2) | 0x07 => some (2, 2, 3) | 0x08 => some (2, 2, 3)
  | 0x09 => some (2, 2, 3) | 0x0A => some (2, 2, 3) | 0x0B => some (3, 3, 3) | 0x0C => some (3, 3, 3)
  | 0x0D => some (2, 3, 3) | 0x0E => some (0, 0, 1) | 0x0F => some (0, 0, 0) | 0x10 => some (0, 0, 0)
  | 0x11 => some (2, 2, 2) | 0x12 => some (2, 2, 2)
  | _ => none

/-- The level of an event now: its configured level, raised to A3 by ESC where the ceiling is A3 (R404). -/
def SecSt.levelOf (x : SecSt) (e : Nat) : Nat :=
  match alarmRange e with
  | some (_, df, ce) => if x.armEsc && ce == 3 then 3 else FMap.get df x.cfg e
  | none => 2

/-- The Snuffer (R401): every key erased, every engine stopped, on-die SRAM zeroised, HOLD with cause SNUFFED. -/
def State.snuffer (s : State) : State :=
  let s := { s with sec := { s.sec.eraseAllKeys with snuffed := true } }
  let s := s.enterHold 0x0D
  let s := if s.mgmt.nvs.queue.any fun r => r.who == .usb then s.usbDone 9 (leBytes 1 5) else s
  let s := s.loadCut
  { s with
    mgmt := { s.mgmt with fw := { s.mgmt.fw with sched := false, power := false, sec := false, ccc := 0, await := 0 }
                          nvs := (s.mgmt.nvs.interrupt (s.rnd.getLsbD 0)).bump 3 }
    free := s.free + 1
    lanterns := s.lanterns.map fun (p : Nat × Lantern) => (p.1, { p.2 with owner := none, off := 0 })
    mem := { s.mem with ctls := s.mem.ctls.map fun (p : Nat × MemCtl) =>
      (p.1, { p.2 with c := [], parity := [], e := [], seals := [], gens := [], rkq := [], rk := none, cc := [], devKey := none }) }
    eng := { s.eng with upd := [], upds := [] }
    fab := { s.fab with held := [] } }

/-- Raise a security event (R399, R400): counted, logged, and answered at its level. `dom` is the domain it names. -/
def State.secEvent (s : State) (e : Nat) (dom : Option Nat) : State :=
  let lv := s.sec.levelOf e
  let s := { s with sec := { s.sec with evCnt := s.sec.evCnt + 1, last := e, level := lv } }
  let s := s.sootLog 0 4 4 [e, lv]
  -- R402: while a response runs, an event of the same or a lower level changes nothing more
  if s.sec.snuffed && decide (lv < 3 ∨ s.sec.tamper) then s
  -- an A2 becomes an A3: the tamper mark, then the user area; the zeroisation has run
  else if s.sec.snuffed then
    let s := ({ s with sec := { s.sec with tamper := true, a1seen := true } } : State).setAlert 1
    { s with mgmt := s.mgmt.eraseUserArea }
  else
    let s := if 1 ≤ lv then
        let s := ({ s with sec := { s.sec with a1seen := true } } : State).setAlert 1
        let s := match dom with
          | some d => s.fenceDom d 1
          | none => { s with sec := { s.sec with a1block := true } }
        s.raiseIrq 0 2
      else s
    if lv = 2 then s.snuffer
    else if lv = 3 then
      let s := { s with sec := { s.sec with tamper := true } }
      let s := s.snuffer
      { s with mgmt := s.mgmt.eraseUserArea }
    else s

/-- An INTEG_MEM event for the owner of a line, and INTEG_MEM_BURST at the 16th within one Beacon second (R399). -/
def State.integEvent (s : State) (d : Nat) : State :=
  let sec := s.beacon / 1000000000
  let p := FMap.get (0, 0) s.sec.integ d
  let n := if p.1 = sec then p.2 + 1 else 1
  let s := { s with sec := { s.sec with integ := FMap.set (0, 0) s.sec.integ d (sec, n) } }
  let s := s.secEvent 3 (some d)
  if n = 16 then s.secEvent 4 (some d) else s

/-! ### Fatal errors (R508) -/

def State.modFw (s : State) (f : FwSt → FwSt) : State := { s with mgmt := { s.mgmt with fw := f s.mgmt.fw } }

/-- Main power is up, so that a start can run. -/
def State.powered (s : State) : Bool := s.dev.st == .start || s.dev.st == .hold || s.dev.st == .run

/-- The firmware cores stop; the recovery monitor keeps serving (R446). -/
def State.stopCores (s : State) : State :=
  s.loadCut.modFw fun f => { f with sec := false, sched := false, power := false, ccc := 0, await := 0, loading := false }

/-- A fatal error: HOLD with a cause (R508). -/
def State.fatal (s : State) (cause : Nat) : State :=
  if s.powered then
    let s := s.stopCores.enterHold cause
    { s with eng := { s.eng with upds := [] }
             fab := { s.fab with held := [], wait := [] }
             lanterns := s.lanterns.map fun (p : Nat × Lantern) => (p.1, { p.2 with owner := none }) }
  else s

/-- What the controller does when an access of domain `d` meets `ev` at a line (R242). -/
def State.lineEvent (s : State) (d dpa : Nat) (ev : LineEv) : State :=
  match ev with
  | .clean => s
  | .corrected => (s.modCtl (ctlOf dpa) fun x => { x with corr := x.corr + 1 }).corrected dpa
  | .retried => (s.modCtl (ctlOf dpa) fun x => { x with retry := x.retry + 1 }).corrected dpa
  | .failed => (s.poisonLine d dpa).integEvent d

/-! ### Reading lines (R230, R233, R234, R241 to R243) -/

/-- A read of one line on behalf of domain `d`: its slot is brought in, and what its stored bits have suffered is met. -/
def State.readLine (s : State) (d dpa : Nat) : State :=
  let c := ctlOf dpa
  let s := s.modCtl c fun x => x.slotRead (s.env c) d (pageOf dpa) (dpa % epochSize dpa / 256)
  match FMap.get 0 s.mem.noise (dpa / 256) with
  | 0 => s
  | 1 => s.mendLine (dpa / 256)
  | _ => ({ s with mem := { s.mem with noise := FMap.set 0 s.mem.noise (dpa / 256) 0 } } : State).lineEvent d dpa .failed

/-- The DPAs of the lines of a DOMAIN range that are mapped. -/
def State.linesAt (s : State) (d off n : Nat) : List Nat :=
  if n = 0 then []
  else (List.range ((off + n - 1) / 256 - off / 256 + 1)).filterMap fun i => (s.dom d).dpa ((off / 256 + i) * 256)

/-- A read of a DOMAIN range on behalf of domain `d`, which its mapping permits: whole lines are read and verified (R230). What it finds
poisoned is then met as poison (R243). -/
def State.reads (s : State) (d off n : Nat) (q : Need := { r := true, k := false }) : State :=
  if (s.dom d).mapOk off n q then (s.linesAt d off n).foldl (fun t a => t.readLine d a) s else s

/-- Noise or tampering strikes stored lines. -/
def State.strike (s : State) (l : List (BitVec 34 × Bool)) : State :=
  { s with mem := { s.mem with noise := l.foldl (fun m p => FMap.set 0 m p.1.toNat (if p.2 then 1 else 2)) s.mem.noise } }

/-- An uncorrectable error in the table line that compute tile `t` walks: rebuilt from another tile's copy, HOLD when all four are bad
(R229, R242). -/
def State.tableEvent (s : State) (t : Nat) (bad : BitVec 4) : State :=
  if bad = 0xF#4 then s.fatal 0xB
  else if bad.getLsbD (t % 4) then s.modCtl (3 * (t % 4)) fun x => { x with retry := x.retry + 1 }
  else s

/-- DOMAIN ranges read one after the other. -/
def State.readAll (s : State) (d : Nat) (l : List (DWord × Nat)) (q : Need := { r := true, k := false }) : State :=
  l.foldl (fun t p => if spaceOf p.1 = some .dom then t.reads d (offOf p.1) p.2 q else t) s

/-- MEM_DOM_LAT (R249, R251): a read of the domain's own tile took `n` HMCLK cycles. -/
def State.readTook (s : State) (d n : Nat) : State :=
  if n ≤ 2000 then s
  else
    let m := s.memDom d
    s.setMemDom d { m with latOver := satAdd 16 m.latOver 1, latMax := min 0xFFFF (max m.latMax (n / 8)) }

/-- What an access of domain `d`, from compute tile `t`, meets at its first line (R241, R242, R249). -/
def State.memEvent (s : State) (d t dpa : Nat) (ev : MemEv) : State :=
  let s := s.strike ev.struck
  let s := s.tableEvent t ev.table
  let s := if ev.store then s.fatal 0xB else s
  let s := if ctlOf dpa < 12 ∧ ctlOf dpa / 3 = t then s.readTook d ev.cycles.toNat else s
  if s.dev.st = .run then s.lineEvent d (dpa / 256 * 256) ev.ev else s

end Sys2Proof.Machine
end

