-- ==== Sys2Proof/Machine/Send.lean ====
section
/-! DEFINITION. Memory access by space (R87, R88, R90), packets a chip sends and holds until their ACK (R271), and the
dispatch of a token (R136, R172, R285, R288). -/

namespace Sys2Proof.Machine

/-! ### Access by space -/

/-- The faults of an access of `n` bytes at `adr`, aligned to `al`, by logical Wick `k`: BADSPACE outside LOCAL, LANTERN
and DOMAIN, MISALIGN, BOUNDS, NOMAP, PERM and, for a read, POISON (R87 to R90, R243). -/
def State.accFlts (s : State) (d : Nat) (adr : DWord) (al n : Nat) (q : Need) : List Flt :=
  let o := offOf adr
  let common (sp : Space) : List Flt :=
    fltIf (o % al != 0) .misalign adr ++ fltIf (decide (spaceSize sp < o + n)) .bounds adr
  match spaceOf adr with
  | some .loc => common .loc
  | some .lant => common .lant
  | some .dom =>
    common .dom ++ (if spaceSize .dom < o + n then [] else (s.dom d).mapFlts adr o n q)
      ++ fltIf (q.r && (s.poisonAt d o n).isSome) .poison (BitVec.ofNat 64 ((s.poisonAt d o n).getD 0))
  | _ => [⟨.badspace, adr⟩]

/-- Read bytes in LOCAL, LANTERN or DOMAIN. -/
def State.rdSpace (s : State) (d c k : Nat) (adr : DWord) (n : Nat) : List Byte :=
  match spaceOf adr with
  | some .loc => Memory.rdN (s.lmemOf d c k false) (offOf adr) n
  | some .lant => Memory.rdN (s.lmemOf d c k true) (offOf adr) n
  | some .dom => s.rdDom d (offOf adr) n
  | _ => []

/-- Write bytes in LOCAL, LANTERN or DOMAIN. -/
def State.wrSpace (s : State) (d c k : Nat) (adr : DWord) (bs : List Byte) : State :=
  match spaceOf adr with
  | some .loc => s.setLmem d c k false (Memory.wrN (s.lmemOf d c k false) (offOf adr) bs)
  | some .lant => s.setLmem d c k true (Memory.wrN (s.lmemOf d c k true) (offOf adr) bs)
  | some .dom => s.wrDom d (offOf adr) bs
  | _ => s

/-- The checks of a completion fence made at issue (R615). -/
def fenceFlts (adr val : DWord) : List Flt :=
  let o := offOf adr
  fltIf (tb val 63) .badfence adr
    ++ (match spaceOf adr with
        | some .fab => [⟨.badspace, adr⟩]
        | none => [⟨.badspace, adr⟩]
        | some sp => fltIf (o % 8 != 0) .misalign adr ++ fltIf (decide (spaceSize sp < o + 8)) .bounds adr)

/-! ### Packets -/

/-- The domain holds a joint session in which the chip is not confirmed (R430). -/
def State.unconfirmed (s : State) (d chip : Nat) : Bool :=
  (s.sec.dom d).joint != .none && chip != s.fab.chip && !(s.sec.dom d).confirmed.contains chip

/-- The packets that R430 confines: WRITE, READ_REQ, TOKEN and REDUCE. -/
def Pkt.confined (p : Pkt) : Bool := [1, 2, 6, 7].contains p.ptype.toNat

/-- Send a packet and hold it until its ACK under the next transfer tag (R271); one for a chip that is not confirmed waits at
the source (R430). A packet of an image goes to the partner over L35 (R521). -/
def State.sendHeld (s : State) (p : Pkt) (o : Owner) : State :=
  if p.confined && s.unconfirmed p.sdom.toNat p.dst.toNat then
    { s with fab := { s.fab with
      nextXtag := s.fab.nextXtag + 1
      held := s.fab.held ++ [{ pkt := { p with xtag := s.fab.nextXtag }, owner := o, st := .unconf }] } }
  else s.onFab fun f => if p.img then f.putBuddy p o else f.putHeld p o

/-- The header a domain's packet to a chip starts from (R271, R285). -/
def State.pktTo (s : State) (d chip : Nat) : Pkt :=
  let b := (s.dom d).binding
  { dst := BitVec.ofNat 13 chip, src := BitVec.ofNat 13 s.fab.chip
    tag := match b with | some x => x.tag | none => 0
    sdom := BitVec.ofNat 8 d
    ddom := BitVec.ofNat 8 (match b with | some x => (x.domOn chip).getD 0 | none => 0) }

/-- The chip is in the domain's binding (R285). -/
def State.bound (s : State) (d chip : Nat) : Bool :=
  match (s.dom d).binding with
  | some b => (b.domOn chip).isSome
  | none => false

/-! ### Token dispatch -/

/-- The entry of an expert in the bank in force (R286, R288). -/
def State.ehtEntry (s : State) (d e : Nat) : BitVec 128 :=
  let seg := FMap.get {} s.fab.segs d
  FMap.get 0 (if seg.active then s.fab.bankB else s.fab.bankA) (seg.base * 256 + e)

/-- The replica a key selects among `n` (R288). -/
def replicaOf (key n : Nat) : Nat := key * 0x9E3779B1 % 2 ^ 32 * n / 2 ^ 32

/-- CHIP and LANT of replica `r` of an entry (R287): 19 bits each, from bit 19 r. -/
def ehtDest (e : BitVec 128) (r : Nat) : Nat × Nat :=
  (e.toNat / 2 ^ (19 * r) % 2 ^ 13, e.toNat / 2 ^ (19 * r + 13) % 2 ^ 6)

/-- Where a token goes: chip and Lantern, or the fault of its resolution (R136, R172, R288). -/
def State.tokDest (s : State) (d : Nat) (t : TokRec) : Except FCode (Nat × Nat) :=
  if t.direct then
    if 2 ^ 19 ≤ t.se.toNat then .error .bounds else .ok (fld t.se 0 13, fld t.se 13 6)
  else if 2 ^ 16 ≤ t.se.toNat then .error .bounds
  else
    let seg := FMap.get {} s.fab.segs d
    if seg.len * 256 ≤ t.se.toNat then .error .bounds
    else
      let e := s.ehtEntry d t.se.toNat
      if !e.getLsbD 78 then .error .nomap
      else .ok (ehtDest e (replicaOf t.key.toNat (e.toNat / 2 ^ 76 % 4 + 1)))

/-- The asynchronous faults of a token dispatch (R172, R285), in the order of R123. -/
def State.tokFlts (s : State) (d : Nat) (t : TokRec) : List Flt :=
  let n := t.len.toNat
  fltIf (n % 64 != 0) .misalign t.src
    ++ fltIf (decide (n < 64 ∨ 16384 < n)) .bounds t.src
    ++ (if 64 ≤ n ∧ n ≤ 16384 then s.accFlts d t.src 1 n { r := true }
        else match spaceOf t.src with
          | some .loc | some .lant | some .dom => []
          | _ => [⟨.badspace, t.src⟩])
    ++ (match s.tokDest d t with
        | .error e => [⟨e, t.se⟩]
        | .ok p => fltIf (!s.bound d p.1) .perm t.se)

/-- A token's source lines are read (R230). -/
def State.tokReads (s : State) (w : WickRef) (t : TokRec) : State :=
  if t.len.toNat ≤ 16384 then s.readAll w.d [(t.src, t.len.toNat)] { r := true } else s

/-- Dispatch a token: the packet is sent and held, or the fault is raised asynchronously. -/
def State.dispatchTok (s₀ : State) (w : WickRef) (t : TokRec) : State :=
  let s := s₀.tokReads w t
  if (s.ctx? w.d w.c).all fun x => x.status != .live then s
  else match firstFlt (s.tokFlts w.d t), s.tokDest w.d t with
  | none, .ok (chip, lant) =>
    let data := s.rdSpace w.d w.c w.key t.src t.len.toNat
    let p : Pkt := { s.pktTo w.d chip with
      tc := 0, ptype := 6, bytes := BitVec.ofNat 32 t.len.toNat, data := data
      adr := BitVec.ofNat 64 (lant + w.c * 2 ^ 16 + w.llant.toNat * 2 ^ 32 + w.lwick.toNat * 2 ^ 38)
      aux := BitVec.ofNat 64 (t.key.toNat + t.ring * 2 ^ 32) }
    let x := s.fab.nextXtag.toNat
    let s := s.sendHeld p (.tok w.d w.c w.key)
    let k := s.wickAt w.d w.c w.key
    s.setWickAt w.d w.c w.key { k with tokd := k.tokd ++ [{ t with xtag := x }] }
  | some f, _ => s.asyncFault w.d w.c w.key f.code t.pc f.adr
  | none, .error e => s.asyncFault w.d w.c w.key e t.pc t.se

end Sys2Proof.Machine
end

