-- ==== Sys2Proof/Machine/Alloc.lean ====
section
/-! DEFINITION. The device-side allocator: frames (R222 to R226, R366), virtual ranges (R365), allocation records (R364),
and the instructions ALLOC and FREE (R177, R367). -/

namespace Sys2Proof.Machine

/-- Status codes (R349). -/
def stOK : Nat := 0
def stBADCMD : Nat := 1
def stBADFENCE : Nat := 2
def stBADCTX : Nat := 3
def stCTXLIMIT : Nat := 4
def stBUSY : Nat := 5
def stABORTED : Nat := 6
def stDEPABORT : Nat := 7
def stFENCED : Nat := 8
def stBADADDR : Nat := 9
def stQUOTA : Nat := 0xA
def stNOFRAME : Nat := 0xB
def stMODE : Nat := 0xC
def stVASPACE : Nat := 0xD
def stBADSIZE : Nat := 0xE
def stBADIMAGE : Nat := 0xF
def stFAULT : Nat := 0x10
def stNOSPACE : Nat := 0x11
def stNOTBOUND : Nat := 0x12
def stEXISTS : Nat := 0x13
def stBADDESC : Nat := 0x14
def stNOCOMM : Nat := 0x15
def stSTALE : Nat := 0x16
def stEGRESS : Nat := 0x17
def stNOIDE : Nat := 0x18
def stPOISON : Nat := 0x19

/-- Frames of a stack or package. -/
def State.unitFrames (s : State) (rsv : Bool) : Nat :=
  if rsv then rsvData s.dev.small / 2 ^ 18 else hbmData / 2 ^ 21

/-- Frames of a unit that belong to the device (R221). -/
def devFrames (rsv : Bool) (u : Nat) : Nat := if rsv then 512 else if u % 3 = 0 then 64 else 0

/-- The lowest FREE frame of a unit. -/
def State.freeFrame (s : State) (rsv : Bool) (u : Nat) : Option Nat :=
  ((List.range (s.mem.frames.length + 1)).map fun i => devFrames rsv u + i).find? (fun i =>
      decide (i < s.unitFrames rsv) && s.frame (mkDpa rsv u (i * frameSize rsv)) == .free)
    |>.map fun i => mkDpa rsv u (i * frameSize rsv)

/-- Frames of a tier that domains may own (R221). -/
def State.tierFrames (s : State) (rsv : Bool) : Nat :=
  if rsv then 16 * (s.unitFrames true - 512) else 12 * s.unitFrames false - 4 * 64

/-- FREE frames of a tier. -/
def State.freeCount (s : State) (rsv : Bool) : Nat :=
  s.tierFrames rsv - (s.mem.frames.filter fun p => decide (p.1 / 2 ^ 41 % 2 = 1) == rsv).length

/-- The units tried for a record's next frame (R366). HBM: the stacks of tile `t`, one frame each in turn after the stack `last` that
gave the frame before, then the next tiles; Reservoir: the packages of I/O tile `t`, then the other tile's, each tile's in turn from the
package that `nxt` gives for it. -/
def unitOrder (rsv : Bool) (t : Nat) (last : Option Nat) (nxt : Nat → Nat) : List Nat :=
  if rsv then [t % 2, 1 - t % 2].flatMap fun u => (List.range 8).map fun j => 8 * u + (nxt u + j) % 8
  else (List.range 4).flatMap fun k =>
    let u := (t + k) % 4
    let from_ := match last with | some x => if x / 3 = u then x % 3 + 1 else 0 | none => 0
    (List.range 3).map fun j => 3 * u + (from_ + j) % 3

/-- The I/O tile with more free frames, IO0 on a tie (R366). -/
def State.rsvTile (s : State) : Nat :=
  let used (t : Nat) : Nat :=
    (s.mem.frames.filter fun p => decide (p.1 / 2 ^ 41 % 2 = 1) && p.1 / 2 ^ 37 % 16 / 8 == t).length
  if used 1 < used 0 then 1 else 0

/-- An epoch page of a new frame: it is opened, enters the current generation with C := max(C, H) + 1, every slot becomes the ZERO marker,
and it closes with its tag block written (R224, R237); it is queued for re-key at the threshold (R238). -/
def MemCtl.zeroPage (x : MemCtl) (v : CtlEnv) (d p : Nat) : MemCtl :=
  let g := FMap.get ({} : GenSt) x.gens d
  let c := max (FMap.get 0 x.c p) g.h + 1
  ({ (x.restamp p 0 1024 none) with
    c := FMap.set 0 x.c p c
    parity := FMap.set false x.parity p (g.g % 2 == 1)
    gens := FMap.set {} x.gens d { g with h := max g.h c }
    cc := ccUse v x.cc d (ctrLine p)
    tagb := x.tagb + tagBlock v.c } : MemCtl).queueAt p c

/-- A frame passes from FREE to DOMAIN: every line is zero-marked (R224, R237). -/
def State.takeFrame (s : State) (d f : Nat) : State :=
  let rsv := decide (f / 2 ^ 41 % 2 = 1)
  let n := if rsv then 1 else 32
  let sz := frameSize rsv
  let s := { s with mem := { s.mem with
    frames := FMap.set .free s.mem.frames f (.domain d)
    corrs := FMap.set [] s.mem.corrs f []
    data := s.mem.data.filter fun p => !(decide (f ≤ p.1) && decide (p.1 < f + sz))
    bad := s.mem.bad.filter fun p => !(decide (f / 256 ≤ p.1) && decide (p.1 < (f + sz) / 256))
    noise := s.mem.noise.filter fun p => !(decide (f / 256 ≤ p.1) && decide (p.1 < (f + sz) / 256)) } }
  let s := s.modCtl (ctlOf f) fun x => (List.range n).foldl (fun y i => y.zeroPage (s.env (ctlOf f)) d (pageOf f + i)) x
  let m := s.memDom d
  s.setMemDom d (if rsv then { m with usedR := m.usedR + 1 } else { m with usedH := m.usedH + 1 })

/-- Take `n` frames, trying the units of each in order; `last` is the stack of the frame before. -/
def State.takeFrames (s : State) (d : Nat) (rsv : Bool) (t : Nat) : Nat → Option Nat → State × List Nat
  | 0, _ => (s, [])
  | n + 1, last =>
    match (unitOrder rsv t last (FMap.get 0 s.mem.lastPkg)).findSome? (fun u => s.freeFrame rsv u) with
    | none => (s, [])
    | some f =>
      let s := s.takeFrame d f
      let s := if rsv then
          { s with mem := { s.mem with
            lastPkg := FMap.set 0 s.mem.lastPkg ((ctlOf f - 12) / 8) (((ctlOf f - 12) % 8 + 1) % 8) } }
        else s
      let r := State.takeFrames s d rsv t n (some (ctlOf f))
      (r.1, f :: r.2)

/-- Take the frames of a context's place: for each Lantern of the list the number beside it, sought from the Lantern's own compute
tile (DESIGN CHOICE, log 55: the spec does not say where a save slot's frames lie). -/
def State.takeSlots (s : State) (d : Nat) : List (Nat × Nat) → State × List (List Nat)
  | [] => (s, [])
  | x :: l =>
    let r := s.takeFrames d false (x.1 / 16) x.2 none
    let q := State.takeSlots r.1 d l
    (q.1, r.2 :: q.2)

/-- The page table of a tier. -/
def Dom.pt (m : Dom) (rsv : Bool) : FMap Pte := if rsv then m.ptR else m.ptH
def Dom.setPt (m : Dom) (rsv : Bool) (x : FMap Pte) : Dom := if rsv then { m with ptR := x } else { m with ptH := x }

/-- The lowest run of `n` unmapped pages at or after page `p` (R365): the mapped pages are walked in rising order. -/
def freeRun (n : Nat) : FMap Pte → Nat → Nat
  | [], p => p
  | e :: l, p => freeRun n l (if p ≤ e.1 ∧ e.1 < p + n then e.1 + 1 else p)

/-- Pages of a tier's virtual space. -/
def tierPages (rsv : Bool) : Nat := if rsv then 2 ^ 38 else 2 ^ 35
/-- First page of a tier that the allocator gives out: offset 0x1_0000_0000. -/
def tierFirst (rsv : Bool) : Nat := if rsv then 2 ^ 14 else 2 ^ 11

/-- The DOMAIN offset of a page of a tier. -/
def pageOff (rsv : Bool) (p : Nat) : Nat := if rsv then 2 ^ 56 + p * 2 ^ 18 else p * 2 ^ 21

/-- Map frames to consecutive pages. -/
def mapFrames (pt : FMap Pte) (p : Nat) (perm : Nat → Pte) : List Nat → FMap Pte
  | [] => pt
  | f :: l => mapFrames (FMap.insert pt p (perm f)) (p + 1) perm l

/-- The quota of a tier, in frames (R226, R251): larger values act as the allocatable count. -/
def State.quota (s : State) (d : Nat) (rsv : Bool) : Nat :=
  min (if rsv then (s.memDom d).qr.toNat else (s.memDom d).qh.toNat) (s.tierFrames rsv)
def MemDom.used (m : MemDom) (rsv : Bool) : Nat := if rsv then m.usedR else m.usedH

/-- Checks 3 to 5 of R367 and the allocation itself: a status, and on success the state and the DOMAIN offset of the
record's first page. `t` is the tile the frames are sought from. -/
def State.allocPages (s : State) (d : Nat) (kind : RecKind) (rsv : Bool) (n t : Nat) (perm : Nat → Pte) (entry : Nat) :
    Except Nat (State × Nat) :=
  let m := s.dom d
  let q := s.memDom d
  let p := freeRun n (m.pt rsv) (tierFirst rsv)
  if s.quota d rsv < q.used rsv + n then .error stQUOTA
  else if tierPages rsv < p + n then .error stVASPACE
  else if s.freeCount rsv < n then .error stNOFRAME
  else
    let r := s.takeFrames d rsv t n none
    .ok (r.1.modDom d fun m =>
      { (m.setPt rsv (mapFrames (m.pt rsv) p perm r.2)) with
        recs := m.recs ++ [{ kind := kind, base := pageOff rsv p, pages := n, entry := entry }] }, pageOff rsv p)

/-- ALLOC: size, hint and flags to a status and the allocated offset (R177, R366, R367). `tile` is the compute tile of the
requesting Wick. -/
def State.allocate (s : State) (d tile size hint : Nat) (rsv x nok : Bool) : Except Nat (State × Nat) :=
  let okHint := if rsv then hint ≤ 2 else hint = 0 ∨ (4 ≤ hint ∧ hint ≤ 7)
  let t := if rsv then (if hint = 0 then s.rsvTile else hint - 1) else if hint = 0 then tile else hint - 4
  if (s.dom d).driver then .error stMODE
  else if size = 0 ∨ ¬ okHint then .error stBADSIZE
  else s.allocPages d .alloc rsv ((size + frameSize rsv - 1) / frameSize rsv) t
    (fun f => { frame := f, r := true, w := true, x := x, k := !nok }) 0

/-- FREE: the status, and the state after the release (R177, R364). -/
def State.freeAlloc (s : State) (d : Nat) (adr : DWord) : State × Nat :=
  match (s.dom d).recs.find? (fun r => r.kind == .alloc && r.base == offOf adr) with
  | some r => if spaceOf adr = some .dom then (s.releaseRec d r, stOK) else (s, stBADADDR)
  | none => (s, stBADADDR)

end Sys2Proof.Machine
end

