-- ==== Sys2Proof/Machine/Fifo.lean ====
section
/-! DEFINITION. The update engines' input FIFO and spill staging (R211, R36), and reads and writes that an engine makes in
a domain's memory. -/

namespace Sys2Proof.Machine

/-- Change an update by its number. -/
def State.modUpd (s : State) (n : Nat) (f : Upd → Upd) : State :=
  { s with eng := { s.eng with upds := s.eng.upds.map fun u => if u.num = n then f u else u } }

def State.upd? (s : State) (n : Nat) : Option Upd := s.eng.upds.find? fun u => u.num == n

/-- Updates of an engine. -/
def State.updsOn (s : State) (e : Nat) : List Upd := s.eng.upds.filter fun u => u.engine == e

/-- A sum over a list. -/
def sumBy {α : Type} (f : α → Nat) (l : List α) : Nat := l.foldl (fun a x => a + f x) 0

/-- Bytes of the FIFO, and of staging, that an update holds or has granted (R211, R318). -/
def Upd.inFifo (u : Upd) : Nat := u.fifo + u.promF
def Upd.inStage (u : Upd) : Nat := u.stage + u.promS

/-- FIFO bytes of a domain, in units of 64 KiB (R211). -/
def State.fifoUnits (s : State) (e d : Nat) : Nat :=
  (sumBy Upd.inFifo ((s.updsOn e).filter fun u => u.dom == d) + 65535) / 65536

/-- The units of the shared 16 MiB in use: what each domain holds beyond its reservation. -/
def State.sharedUnits (s : State) (e : Nat) : Nat :=
  sumBy (fun d => s.fifoUnits e d - (if (s.updEng e).resv.contains d then 32 else 0))
    (((s.updsOn e).map Upd.dom).eraseDups)

/-- Bytes that staging holds. -/
def State.stageBytes (s : State) (e : Nat) : Nat := sumBy Upd.stage (s.updsOn e)

/-- Bytes that domain `d` may still put into a tile's staging: up to 256 MiB of its own and 1 GiB in all (R211). -/
def State.stageRoom (s : State) (e d : Nat) : Nat :=
  min (2 ^ 28 - sumBy Upd.inStage ((s.updsOn e).filter fun u => u.dom == d)) (2 ^ 30 - sumBy Upd.inStage (s.updsOn e))

/-- `n` more bytes of domain `d` fit the FIFO. -/
def State.fifoFits (s : State) (e : Nat) (u : Upd) (n : Nat) : Bool :=
  decide ((s.modUpd u.num fun v => { v with fifo := v.fifo + n }).sharedUnits e ≤ 256)

/-- A chunk of `n` bytes goes to an update's FIFO: none of its gradient waits in staging, it is not parked, and the FIFO has
room (R36, R186, R211). -/
def State.toFifo (s : State) (u : Upd) (n : Nat) : Bool := u.phase != .parked && u.stage == 0 && s.fifoFits u.engine u n

/-- A RESULT chunk of `n` bytes for an update has room (R318). -/
def State.fusedRoom (s : State) (num n : Nat) : Bool :=
  match s.upd? num with
  | some u => s.toFifo u n || decide (n ≤ s.stageRoom u.engine u.dom)
  | none => true

/-- Take a reservation, or join those that wait for one (R211). -/
def UpdEng.reserve (x : UpdEng) (d : Nat) : UpdEng :=
  if x.resv.contains d || x.waiting.contains d then x
  else if x.resv.length < 24 then { x with resv := x.resv ++ [d] }
  else { x with waiting := x.waiting ++ [d] }

/-- A domain with no fused reduction left in a tile gives its reservation up; the first that waits takes it. -/
def UpdEng.unreserve (x : UpdEng) (d : Nat) : UpdEng :=
  let x := { x with waiting := x.waiting.filter (· != d) }
  if x.resv.contains d then
    match x.waiting with
    | n :: l => { x with resv := x.resv.filter (· != d) ++ [n], waiting := l }
    | [] => { x with resv := x.resv.filter (· != d) }
  else x

/-- Is a fused reduction of the domain in progress into the tile? -/
def State.fusedInto (s : State) (e d : Nat) : Bool :=
  (s.updsOn e).any fun u => u.dom == d && u.desc.getLsbD 42

/-- Release the reservation when no fused reduction is left. -/
def State.settleResv (s : State) (e d : Nat) : State :=
  if s.fusedInto e d then s else s.modUpdEng e fun x => x.unreserve d

/-- A RESULT chunk of `n` bytes is granted: its room is reserved, and with a domain's first into the tile a FIFO reservation is taken
(R211, R318). -/
def State.promise (s : State) (num n : Nat) : State :=
  match s.upd? num with
  | none => s
  | some u =>
    let fi := s.toFifo u n
    (s.modUpd num fun v => if fi then { v with promF := n } else { v with promS := n }).modUpdEng u.engine fun x => x.reserve u.dom

/-- The chunk that may come next to an update has been granted. -/
def State.promised (s : State) (num : Nat) : Bool :=
  match s.upd? num with
  | some u => u.promF + u.promS != 0
  | none => true

/-- A chunk of reduced gradient reaches an update: into the FIFO, or to staging when the FIFO has no room, earlier data of the
update already waits there, or the update is parked (R36, R186, R211). -/
def State.feed (s : State) (num : Nat) (ws : List Word) : State :=
  let s := s.modUpd num fun v => { v with promF := 0, promS := 0 }
  match s.upd? num with
  | none => s
  | some u =>
    let n := 4 * ws.length
    let s := s.modUpdEng u.engine fun x => x.reserve u.dom
    if s.toFifo u n || decide (s.stageRoom u.engine u.dom < n) then
      s.modUpd num fun v => { v with grad := v.grad ++ ws, fifo := v.fifo + n }
    else
      (s.modUpd num fun v => { v with grad := v.grad ++ ws, stage := v.stage + n, spilled := v.spilled + n }).modUpdEng
        u.engine fun x => { x with spillTot := x.spillTot + n }

/-- A parked update's gradient is held in staging (R186): what the FIFO holds of it moves there, as much as the limits of R211 let
(DESIGN CHOICE, log 59: what they do not let stays in the FIFO). -/
def State.park (s : State) (u : Upd) : State :=
  let n := min u.fifo (s.stageRoom u.engine u.dom)
  (s.modUpd u.num fun v => { v with
    phase := .parked, stage := v.stage + n, fifo := v.fifo - n
    fifoSp := v.fifoSp - min n v.fifoSp, spilled := v.spilled + (n - min n v.fifoSp) }).modUpdEng
      u.engine fun x => { x with spillTot := x.spillTot + n }

/-- Move staged data of one update into the FIFO, one 4 KiB chunk at a time while there is room. -/
def State.unspill : Nat → State → Nat → State
  | 0, s, _ => s
  | f + 1, s, num =>
    match s.upd? num with
    | none => s
    | some u =>
      let n := min 4096 u.stage
      if n = 0 || u.phase == .parked then s
      else if s.fifoFits u.engine u n then
        State.unspill f (s.modUpd num fun v => { v with fifo := v.fifo + n, fifoSp := v.fifoSp + n, stage := v.stage - n }) num
      else s

/-- Staged data feeds the FIFO in order (R36). -/
def State.drainSpill (s : State) (e : Nat) : State :=
  (s.updsOn e).foldl (fun t u => State.unspill (u.stage / 4096 + 1) t u.num) s

/-! ### Engine accesses to a domain's memory -/

/-- Read bytes in the DOMAIN space as an engine: no Wick permission needed. -/
def State.engRead (s : State) (d : Nat) (adr : DWord) (n : Nat) : Except (FCode × DWord) (List Byte) :=
  match firstFlt ((s.dom d).mapFlts adr (offOf adr) n { r := true, k := false }) with
  | some f => .error (f.code, f.adr)
  | none =>
    match s.poisonAt d (offOf adr) n with
    | some a => .error (.poison, BitVec.ofNat 64 a)
    | none => .ok (s.rdDom d (offOf adr) n)

/-- Write bytes in the DOMAIN space as an engine. -/
def State.engWrite (s : State) (d : Nat) (adr : DWord) (bs : List Byte) : Except (FCode × DWord) State :=
  match firstFlt ((s.dom d).mapFlts adr (offOf adr) bs.length { w := true, k := false }) with
  | some f => .error (f.code, f.adr)
  | none => .ok (s.wrDom d (offOf adr) bs)

/-- FP32 words from bytes. -/
def toWords : List Byte → List Word
  | a :: b :: c :: d :: l => BitVec.ofNat 32 (leNat [a, b, c, d]) :: toWords l
  | _ => []

/-- Bytes of FP32 words. -/
def ofWords (ws : List Word) : List Byte := (ws.map fun w => leBytes 4 w.toNat).flatten

/-- 16-bit values from bytes. -/
def toHalves : List Byte → List Nat
  | a :: b :: l => leNat [a, b] :: toHalves l
  | _ => []

def ofHalves (hs : List Nat) : List Byte := (hs.map fun h => leBytes 2 h).flatten

end Sys2Proof.Machine
end

