-- ==== Sys2Proof/Machine/Collective.lean ====
section
/-! DEFINITION. The collective engine (spec/09_collectives.md): launching a collective, opening and adding chunks,
grants, sending, and the progress a communicator makes whenever something arrives. -/

namespace Sys2Proof.Machine

/-! ### Packets and faults -/

/-- Change one outstanding collective of a communicator. -/
def Comm.modOp (x : Comm) (seq : Nat) (f : CollOp → CollOp) : Comm :=
  { x with ops := x.ops.map fun o => if o.seq = seq then f o else o }
def Comm.op? (x : Comm) (seq : Nat) : Option CollOp := x.ops.find? fun o => o.seq == seq
def State.modComm (s : State) (d id : Nat) (f : Comm → Comm) : State :=
  match s.comm? d id with
  | some x => s.setComm d id (f x)
  | none => s
def State.modOp (s : State) (d id seq : Nat) (f : CollOp → CollOp) : State := s.modComm d id fun x => x.modOp seq f

/-- A fault of a collective (R303): its communicator breaks with cause `cause`, and its context is aborted; the record's
DETAIL holds the sequence number. -/
def State.collFault (s : State) (d id : Nat) (o : CollOp) (cause : Nat) (code : FCode) (adr : DWord) : State :=
  let me := match s.comm? d id with | some x => x.myrank | none => 0
  (s.breakComm d id cause me).asyncFault d o.ctx o.wk code o.pc adr (leBytes 8 o.seq)

/-- The PSPEC of a REDUCE packet (R315). -/
def reduceSpec (id seq rank : Nat) (sig : BitVec 32) (i : Item) : BitVec 192 :=
  BitVec.ofNat 192 (id + i.kind * 2 ^ 16 + i.level * 2 ^ 24 + seq % 2 ^ 32 * 2 ^ 32 + rank * 2 ^ 64 + i.shard * 2 ^ 96
    + i.chunk * 2 ^ 128 + sig.toNat * 2 ^ 160)

/-- Send a REDUCE packet of a collective, held until its ACK. -/
def State.sendReduce (s : State) (d id : Nat) (x : Comm) (o : CollOp) (rank : Nat) (i : Item) (data : List Byte) : State :=
  let p : Pkt := { s.pktTo d (x.ranks.getD rank 0) with
    tc := 1, ptype := 7, bytes := BitVec.ofNat 32 data.length, data := data
    pspec := reduceSpec id o.seq x.myrank o.sig i }
  (s.sendHeld p (.coll d id o.seq)).modOp d id o.seq fun q => { q with unacked := q.unacked + 1 }

/-! ### Data -/

/-- A contribution's elements, promoted exactly to FP32 (R306). -/
def CollOp.promote (o : CollOp) (bs : List Byte) : List Word :=
  if o.fmt = 0 then toWords bs
  else match Fmt.ofCode o.fmt with
    | some f => (toHalves bs).map f.widen
    | none => []

/-- Address `a` moved by `n` bytes. -/
def movAdr (a : DWord) (n : Nat) : DWord := addOff a (n : Int)

/-- The source address of chunk `c` of shard `j`. -/
def CollOp.srcAdr (o : CollOp) (n j c : Nat) : DWord := movAdr o.src ((j * o.shardSize n + 1024 * c) * o.esz)

/-- Where the owner writes chunk `c` of its shard `j`: its DST (R306), or in place over its gradient (R318). -/
def CollOp.resAdr (o : CollOp) (n j c : Nat) : DWord :=
  if o.op = 2 then movAdr o.dst (4 * 1024 * c)
  else movAdr (if o.op = 1 then o.dst else o.src) (4 * (j * o.shardSize n + 1024 * c))

/-- This member's own contribution to a chunk. -/
def State.ownChunk (s : State) (d n j c : Nat) (o : CollOp) : Except (FCode × DWord) (List Byte) :=
  s.engRead d (o.srcAdr n j c) (o.chunkLen n j c * o.esz)

/-- The RBUF slot of rank `r`, place `k` (R298, R308): each rank has DEPTH slots and its token area. -/
def Comm.slotAdr (x : Comm) (r k : Nat) : DWord :=
  movAdr x.rbuf (if x.algo then r * 64 else r * (x.depth * 4096 + 64) + k * 4096)
/-- The token area of rank `r`, entry `e`. -/
def Comm.tokAdr (x : Comm) (r e : Nat) : DWord :=
  movAdr x.rbuf (if x.algo then r * 64 + e * 8 else r * (x.depth * 4096 + 64) + x.depth * 4096 + e * 8)

/-- Elementwise FP32 sum (R65). -/
def addWords (a b : List Word) : List Word := List.zipWith (fadd .rne) a b

/-- The engine of a communicator (R298). -/
def engOf (id : Nat) : Nat := id % 2

/-! ### Rank order (R307, R308) -/

/-- The result of a chunk of the own shard is written, and the chunk is done. -/
def State.finishChunk (s : State) (d id : Nat) (x : Comm) (o : CollOp) (c : Nat) (ws : List Word) : State :=
  match s.engWrite d (o.resAdr x.nranks x.myrank c) (ofWords ws) with
  | .error (e, a) => s.collFault d id o 5 e a
  | .ok t => t.modOp d id o.seq fun q => { q with own := FMap.set false q.own c true, sums := FMap.erase q.sums c }

/-- The lines of the contribution that an open chunk takes next are read (R230). -/
def State.chunkReads (s : State) (d id seq c : Nat) : State :=
  match s.comm? d id with
  | none => s
  | some x => match x.op? seq with
    | none => s
    | some o => match FMap.find? o.sums c with
      | none => s
      | some (k, nx, _) =>
        let n := x.nranks
        if nx = n then s
        else s.readAll d [(if nx = x.myrank then o.srcAdr n x.myrank c else x.slotAdr nx k, o.chunkLen n x.myrank c * o.esz)]

/-- Add contributions to an open chunk while the next rank's is at hand. -/
def State.advChunk : Nat → State → Nat → Nat → Nat → Nat → State
  | 0, s, _, _, _, _ => s
  | fuel + 1, s₀, d, id, seq, c =>
    let s := s₀.chunkReads d id seq c
    match s.comm? d id with
    | none => s
    | some x =>
      match x.op? seq with
      | none => s
      | some o =>
        match FMap.find? o.sums c with
        | none => s
        | some (k, nx, acc) =>
          let n := x.nranks
          if nx = n then s.finishChunk d id x o c acc
          else
            let data :=
              if nx = x.myrank then some (s.ownChunk d n x.myrank c o)
              else if FMap.get false o.stored (c * 8192 + nx) then
                some (s.engRead d (x.slotAdr nx k) (o.chunkLen n x.myrank c * o.esz))
              else none
            match data with
            | none => s
            | some (.error (e, a)) => s.collFault d id o 5 e a
            | some (.ok bs) =>
              let ws := o.promote bs
              let s := s.modColl (engOf id) fun e => { e with adds := e.adds + (if nx = 0 then 0 else ws.length) }
              let s := s.modOp d id seq fun q => { q with
                sums := FMap.insert q.sums c (k, nx + 1, if nx = 0 then ws else addWords acc ws)
                stored := FMap.set false q.stored (c * 8192 + nx) false }
              State.advChunk fuel s d id seq c

/-- Open places in use by a communicator. -/
def Comm.places (x : Comm) : List Nat := (x.ops.map fun o => o.sums.map fun p => p.2.1).flatten

/-- Open the next chunk in sequence and chunk order, if a place is free (R307), and add what is at hand; repeat. -/
def State.openChunks : Nat → State → Nat → Nat → State
  | 0, s, _, _ => s
  | fuel + 1, s, d, id =>
    match s.comm? d id with
    | none => s
    | some x =>
      if x.algo || x.st != .ready then s
      else
        match x.ops.find? (fun o => o.reduces && decide (o.opened < o.chunks x.nranks x.myrank)),
              (List.range x.depth).find? (fun k => !x.places.contains k) with
        | some o, some k =>
          let c := o.opened
          let s := s.modOp d id o.seq fun q => { q with opened := c + 1, sums := FMap.insert q.sums c (k, 0, []) }
          State.openChunks fuel (s.advChunk (x.nranks + 1) d id o.seq c) d id
        | _, _ => s

/-! ### Pairing tree (R309, R310) -/

/-- The node this member forms for chunk `c` of shard `j`, when every child of its position is in: its sum, or its own leaf where
it has no child; none while a child has not come. -/
def State.treeNode (s : State) (d : Nat) (x : Comm) (o : CollOp) (j c : Nat) : Except (FCode × DWord) (Option (List Word)) :=
  let n := x.nranks
  match childPos n (posOf n j x.myrank), FMap.find? o.accs (chunkKey j c) with
  | [], _ => match s.ownChunk d n j c o with
    | .error e => .error e
    | .ok bs => .ok (some (o.promote bs))
  | kids, some (m, acc) => .ok (if m = kids.length then some acc else none)
  | _, none => .ok none

/-- The next children of a chunk, in level order, are added as long as they are at hand (R310): the first child is this chip's own sum so
far, at first its leaf; the second waits in its combine slot. -/
def State.treeMerge : Nat → State → Nat → Nat → Nat → Nat → Nat → State
  | 0, s, _, _, _, _, _ => s
  | fuel + 1, s, d, id, seq, j, c =>
    match s.comm? d id with
    | none => s
    | some x =>
      match x.op? seq with
      | none => s
      | some o =>
        let key := chunkKey j c
        match (childPos x.nranks (posOf x.nranks j x.myrank))[o.merged j c]? with
        | none => s
        | some k =>
          match FMap.find? o.slots (key * 16 + k.1) with
          | none => s
          | some ws =>
            let s := if (FMap.find? o.accs key).isSome then s
              else s.readAll d [(o.srcAdr x.nranks j c, o.chunkLen x.nranks j c * o.esz)]
            let first : Except (FCode × DWord) (List Word) := match FMap.find? o.accs key with
              | some p => .ok p.2
              | none => (s.ownChunk d x.nranks j c o).map o.promote
            match first with
            | .error (e, a) => s.collFault d id o 5 e a
            | .ok acc =>
              let s := s.modColl (engOf id) fun e => { e with combs := e.combs + 1 }
              State.treeMerge fuel (s.modOp d id seq fun q => { q with
                slots := FMap.erase q.slots (key * 16 + k.1)
                accs := FMap.insert q.accs key (o.merged j c + 1, addWords acc ws) }) d id seq j c

/-- A chunk's node has moved on: its sum is forgotten. -/
def CollOp.dropAcc (o : CollOp) (j c : Nat) : CollOp := { o with accs := FMap.erase o.accs (chunkKey j c) }

/-- Write the roots of the own shard whose children are all in. -/
def State.treeRoots (s : State) (d id seq : Nat) : State :=
  match s.comm? d id with
  | none => s
  | some x =>
    if !x.algo || x.st != .ready then s
    else match x.op? seq with
      | none => s
      | some o =>
        if !o.reduces then s
        else (List.range (o.chunks x.nranks x.myrank)).foldl (fun t c =>
          match t.comm? d id with
          | none => t
          | some y => match y.op? seq with
            | none => t
            | some q =>
              if FMap.get false q.own c then t
              else match t.treeNode d y q y.myrank c with
                | .error (e, a) => t.collFault d id q 5 e a
                | .ok none => t
                | .ok (some ws) => (t.finishChunk d id y q c ws).modOp d id seq fun z => z.dropAcc y.myrank c) s

/-! ### Grants (R314) -/

/-- The tree items of an operation that come to this member, in the order of chunk, shard and level. -/
def Comm.treeIn (x : Comm) (o : CollOp) : List Item :=
  ((List.range (o.chunks x.nranks 0)).map fun c => ((List.range x.nranks).map fun j =>
    if c < o.chunks x.nranks j then
      (childPos x.nranks (posOf x.nranks j x.myrank)).map fun k => ({ kind := 2, level := k.1, shard := j, chunk := c } : Item)
    else []).flatten).flatten

/-- The tree items that have a combine slot: of those of all the communicator's collectives that are not yet added in, the first
DEPTH · ⌈log2 N⌉, which are the slots it has reserved (R298, R310, R319). -/
def Comm.treeOpen (x : Comm) : List (Nat × Item) :=
  (((x.ops.map fun o => ((x.treeIn o).filter fun i => !x.treeDone o i).map fun i => (o.seq, i)).flatten).take
    (x.depth * treeLevels x.nranks))

/-- Element order of a fused RESULT chunk: the chunks of every shard before it. -/
def CollOp.resultIndex (o : CollOp) (n j c : Nat) : Nat := sumBy (o.chunks n) (List.range j) + c

/-- An item has a landing place reserved (R314, R318). -/
def State.lands (s : State) (x : Comm) (o : CollOp) (i : Item) : Bool :=
  match i.kind with
  | 1 => decide (i.chunk < o.opened)
  | 2 => x.treeDone o i || x.treeOpen.contains (o.seq, i)
  | 3 => match o.upd with
    | some u => decide (o.resultIndex x.nranks i.shard i.chunk < o.fed) ||
        (o.resultIndex x.nranks i.shard i.chunk == o.fed && s.promised u)
    | none => true
  | 8 => !(x.ops.any fun q => q.op == 6 && decide (q.seq < o.seq) && q.seq % 8 == o.seq % 8)
  | _ => true

/-- The cumulative limit this member can grant rank `r`: the items of completed collectives, and every item up to the first
without a landing place. -/
def State.limitFor (s : State) (x : Comm) (r : Nat) : Nat :=
  let items := (x.ops.map fun o => (x.itemsOf o r x.myrank).map fun i => (o, i)).flatten
  FMap.get 0 x.base r + (items.takeWhile fun p => s.lands x p.1 p.2).length

/-- The first item of rank `r`'s stream that has no landing place here. -/
def State.firstHeld (s : State) (x : Comm) (r : Nat) : Option (CollOp × Item) :=
  ((x.ops.map fun o => (x.itemsOf o r x.myrank).map fun i => (o, i)).flatten).find? fun p => !s.lands x p.1 p.2

/-- The item is the RESULT chunk whose turn it is to enter the FIFO; the update, and the bytes (R318). -/
def Comm.nextResult (x : Comm) (p : CollOp × Item) : Option (Nat × Nat) :=
  match p.1.upd with
  | some u => if p.2.kind = 3 ∧ p.1.resultIndex x.nranks p.2.shard p.2.chunk = p.1.fed then
      some (u, 4 * p.1.chunkLen x.nranks p.2.shard p.2.chunk) else none
  | none => none

/-- Where all that keeps rank `r`'s stream is room for the RESULT chunk whose turn it is, and there is room, the room is reserved. -/
def State.promiseFor (s : State) (x : Comm) (r : Nat) : State :=
  match (s.firstHeld x r).bind x.nextResult with
  | some (u, n) => if s.fusedRoom u n then s.promise u n else s
  | none => s

/-- Send the grants that have grown (R211, R314, R319). -/
def State.grantAll (s : State) (d id : Nat) : State :=
  match s.comm? d id with
  | none => s
  | some x =>
    if x.st != .ready then s
    else
      x.others.foldl (fun t r =>
        let t := t.promiseFor x r
        let l := t.limitFor x r
        if FMap.get 0 x.granted r < l then
          (t.sendColl d id x r 0x0101 l 0).modComm d id fun y => { y with granted := FMap.set 0 y.granted r l }
        else t) s

/-! ### Sending (R304, R306, R310 to R314, R318) -/

/-- The bytes of an item this member sends, when they are ready. -/
def State.itemData (s : State) (d : Nat) (x : Comm) (o : CollOp) (i : Item) : Except (FCode × DWord) (Option (List Byte)) :=
  let n := x.nranks
  let rd (a : DWord) (k : Nat) : Except (FCode × DWord) (Option (List Byte)) :=
    match s.engRead d a k with
    | .error e => .error e
    | .ok bs => .ok (some bs)
  match i.kind with
  | 1 => rd (o.srcAdr n i.shard i.chunk) (o.chunkLen n i.shard i.chunk * o.esz)
  | 2 => match s.treeNode d x o i.shard i.chunk with
    | .error e => .error e
    | .ok none => .ok none
    | .ok (some ws) => .ok (some (ofWords ws))
  | 3 => if FMap.get false o.own i.chunk then rd (o.resAdr n x.myrank i.chunk) (4 * o.chunkLen n i.shard i.chunk) else .ok none
  | 4 => rd (movAdr o.src (4096 * i.chunk)) (o.blockLen i.chunk)
  | 5 =>
    if posOf n o.root x.myrank = 0 then rd (movAdr o.src (4096 * i.chunk)) (o.blockLen i.chunk)
    else if FMap.get false o.got (chunkKey 0 i.chunk * 2) then rd (movAdr o.dst (4096 * i.chunk)) (o.blockLen i.chunk)
    else .ok none
  | 8 => match s.engRead d o.tok 8 with
    | .error e => .error e
    | .ok bs => .ok (some (bs ++ List.replicate 56 0))
  | _ => .ok none

/-- The next item of the stream to rank `r`: the first of the oldest collective that still has one. -/
def Comm.nextItem (x : Comm) (r : Nat) : Option (CollOp × Item) :=
  x.ops.findSome? fun o => ((x.itemsOf o x.myrank r)[FMap.get 0 o.sentN r]?).map fun i => (o, i)

/-- Where an item's bytes lie in DOMAIN, if they do. -/
def Comm.itemAt (x : Comm) (o : CollOp) (i : Item) : List (DWord × Nat) :=
  let n := x.nranks
  match i.kind with
  | 1 => [(o.srcAdr n i.shard i.chunk, o.chunkLen n i.shard i.chunk * o.esz)]
  | 2 => if (childPos n (posOf n i.shard x.myrank)).isEmpty then [(o.srcAdr n i.shard i.chunk, o.chunkLen n i.shard i.chunk * o.esz)]
    else []
  | 3 => if FMap.get false o.own i.chunk then [(o.resAdr n x.myrank i.chunk, 4 * o.chunkLen n i.shard i.chunk)] else []
  | 4 => [(movAdr o.src (4096 * i.chunk), o.blockLen i.chunk)]
  | 5 => if posOf n o.root x.myrank = 0 then [(movAdr o.src (4096 * i.chunk), o.blockLen i.chunk)]
    else if FMap.get false o.got (chunkKey 0 i.chunk * 2) then [(movAdr o.dst (4096 * i.chunk), o.blockLen i.chunk)] else []
  | 8 => [(o.tok, 8)]
  | _ => []

/-- The next item to rank `r`, if it is granted. -/
def Comm.granted? (x : Comm) (r : Nat) : Option (CollOp × Item) :=
  if x.st != .ready || decide (FMap.get 0 x.limit r ≤ FMap.get 0 x.sent r) then none else x.nextItem r

/-- The lines of the next item to rank `r` are read (R230). -/
def State.itemReads (s : State) (d id r : Nat) : State :=
  match s.comm? d id with
  | none => s
  | some x => match x.granted? r with
    | none => s
    | some (o, i) => s.readAll d (x.itemAt o i)

/-- Send the next item to rank `r`, if it is granted and ready. -/
def State.sendItem (s₀ : State) (d id r : Nat) : State :=
  let s := s₀.itemReads d id r
  match s.comm? d id with
  | none => s
  | some x => match x.granted? r with
      | none => s
      | some (o, i) =>
        match s.itemData d x o i with
        | .error (e, a) => s.collFault d id o 5 e a
        | .ok none => s
        | .ok (some bs) =>
          let s := s.sendReduce d id x o r i bs
          let s := if i.kind = 2 then s.modOp d id o.seq fun q =>
              { q.dropAcc i.shard i.chunk with got := FMap.set false q.got (chunkKey i.shard i.chunk * 2 + 1) true }
            else s
          s.modComm d id fun y =>
            { (y.modOp o.seq fun q => { q with sentN := FMap.modify 0 q.sentN r (· + 1) }) with
              sent := FMap.modify 0 y.sent r (· + 1) }

/-- The order in which the ranks are served: a broadcast's children from level L down to 1 (R312), then the others ascending. -/
def Comm.sendOrder (x : Comm) : List Nat :=
  (((x.ops.filter fun o => o.op == 4).map fun o =>
      ((childPos x.nranks (posOf x.nranks o.root x.myrank)).reverse.map fun k => rankAt x.nranks o.root k.2)).flatten
    ++ x.others).eraseDups

/-- Rounds of one item to each rank, so that each chunk goes to every rank before the next chunk goes to any. -/
def State.sendRounds : Nat → State → Nat → Nat → List Nat → State
  | 0, s, _, _, _ => s
  | fuel + 1, s, d, id, l => State.sendRounds fuel (l.foldl (fun t r => t.sendItem d id r) s) d id l

/-! ### Barriers (R313) -/

/-- A barrier moves on: the arrival goes up when every child's has come, the release goes down when it has arrived. -/
def State.barrierRun (s : State) (d id seq : Nat) : State :=
  match s.comm? d id with
  | none => s
  | some x =>
    match x.op? seq with
    | none => s
    | some o =>
      if x.st != .ready then s
      else
        let kids := (childPos x.nranks x.myrank).map (·.2)
        let up (r : Nat) : Option (BitVec 32) := FMap.get none x.ups (seq * 8192 + r)
        let down : Option (BitVec 32) := FMap.get none x.downs seq
        -- a signal whose SIG differs, whatever the own operation is (R305)
        if kids.any (fun r => match up r with | some g => g != o.sig | none => false)
            || (match down with | some g => g != o.sig | none => false) then
          s.collFault d id o 4 (if o.upd.isSome then .badrule else .illegal) 0
        else if o.op != 5 then s
        else
        let all := kids.all fun r => (up r).isSome
        let s := if all && !o.up then
            let s := if x.myrank = 0 then s
              else s.sendReduce d id x o (parentPos x.myrank) { kind := 6 } []
            s.modOp d id seq fun q => { q with up := true }
          else s
        let out := if x.myrank = 0 then all else down.isSome
        if out && !o.released then
          (kids.foldl (fun t r => t.sendReduce d id x o r { kind := 7 } []) s).modOp d id seq
            fun q => { q with released := true, up := true }
        else s

/-! ### Fused reductions (R318) -/

/-- Feed own and received RESULT chunks to the update engine, in ascending element order. -/
def State.feedOwn : Nat → State → Nat → Nat → Nat → State
  | 0, s, _, _, _ => s
  | fuel + 1, s, d, id, seq =>
    match s.comm? d id with
    | none => s
    | some x =>
      match x.op? seq with
      | none => s
      | some o =>
        match o.upd with
        | none => s
        | some u =>
          let n := x.nranks
          let before := sumBy (o.chunks n) (List.range x.myrank)
          let c := o.fed - before
          if before ≤ o.fed ∧ c < o.chunks n x.myrank ∧ FMap.get false o.own c = true
              ∧ s.fusedRoom u (4 * o.chunkLen n x.myrank c) = true then
            let s := s.readAll d [(o.resAdr n x.myrank c, 4 * o.chunkLen n x.myrank c)]
            match s.engRead d (o.resAdr n x.myrank c) (4 * o.chunkLen n x.myrank c) with
            | .error (e, a) => s.collFault d id o 5 e a
            | .ok bs =>
              State.feedOwn fuel ((s.feed u (toWords bs)).modOp d id seq fun q => { q with fed := q.fed + 1 }) d id seq
          else s

/-- The token total, once every word has come (R318). -/
def State.tokTotal (s : State) (d id seq : Nat) : State :=
  match s.comm? d id with
  | none => s
  | some x =>
    match x.op? seq with
    | none => s
    | some o =>
      let s := s.readAll d [(o.tok, 8)]
      match o.upd, s.engRead d o.tok 8 with
      | some u, .ok bs =>
        let mine : DWord := BitVec.ofNat 64 (leNat bs)
        if o.tokmode then s.modUpd u fun v => if v.tok.isNone then { v with tok := some mine } else v
        else if x.others.all fun r => (FMap.get none o.toks r).isSome then
          s.modUpd u fun v => if v.tok.isNone then
            { v with tok := some (x.others.foldl (fun a r => a + (FMap.get none o.toks r).getD 0) mine) } else v
        else s
      | some _, .error (e, a) => s.collFault d id o 5 e a
      | none, _ => s

/-! ### Progress -/

/-- Everything a communicator can do now. -/
def State.collRun (s : State) (d id : Nat) : State :=
  match s.comm? d id with
  | none => s
  | some x =>
    if x.st != .ready then s
    else
      let seqs := x.ops.map (·.seq)
      let n := x.nranks
      let total := sumBy (fun o => o.chunks n x.myrank) x.ops
      let s := s.openChunks (total + 1) d id
      let s := seqs.foldl (fun t q => t.treeRoots d id q) s
      let s := seqs.foldl (fun t q => (t.tokTotal d id q).feedOwn (total + 1) d id q) s
      let s := s.grantAll d id
      let s := s.sendRounds (sumBy (fun r => sumBy (fun o => (x.itemsOf o x.myrank r).length) x.ops) x.others) d id x.sendOrder
      seqs.foldl (fun t q => t.barrierRun d id q) s

/-- An item arrived or a grant grew: add what is now at hand to the open chunks, then run on. -/
def State.collArrive (s : State) (d id seq : Nat) : State :=
  match s.comm? d id with
  | none => s
  | some x =>
    let open_ : List Nat := match x.op? seq with
      | some (o : CollOp) => o.sums.map Prod.fst
      | none => []
    (open_.foldl (fun (t : State) c => t.advChunk (x.nranks + 1) d id seq c) s).collRun d id

/-- All that R304 asks of a collective before its fence is signalled. -/
def Comm.opDone (x : Comm) (o : CollOp) : Bool :=
  x.st == .ready && o.unacked == 0
    && x.others.all (fun r => decide ((x.itemsOf o x.myrank r).length ≤ FMap.get 0 o.sentN r))
    && (if o.op = 5 then o.released
        else x.others.all (fun r => (x.itemsOf o r x.myrank).all fun i => x.arrived o r i)
          && (!o.reduces || (List.range (o.chunks x.nranks x.myrank)).all fun c => FMap.get false o.own c)
          && (o.upd.isNone || decide (sumBy (o.chunks x.nranks) (List.range x.nranks) ≤ o.fed)))

/-- A fused update launched on the communicator before sequence number `seq` has not signalled its fence (R305). -/
def State.fusedBefore (s : State) (d id seq : Nat) : Bool :=
  s.eng.upds.any fun u => u.dom == d && u.desc.getLsbD 42 && u.desc.toNat / 2 ^ 48 % 2 ^ 16 == id && decide (u.seq < seq)

/-- The oldest collective completes: its fence is signalled and its items are counted into the streams' bases. Fences of a communicator's
collectives and fused updates are signalled in sequence order (R305). -/
def State.collComplete (s : State) (d id : Nat) : State :=
  match s.comm? d id with
  | none => s
  | some x =>
    match x.ops with
    | [] => s
    | o :: rest =>
      if !x.opDone o || s.fusedBefore d id o.seq then s
      else
        let base := x.others.foldl (fun b r => FMap.modify 0 b r (· + (x.itemsOf o r x.myrank).length)) x.base
        let ups := x.ups.filter fun p => p.1 / 8192 != o.seq
        let s := s.setComm d id { x with
          ops := rest, done := x.done + 1, base := base, ups := ups, downs := FMap.set none x.downs o.seq none }
        let s := s.signalFence d o.ctx o.fence o.pc (leBytes 8 o.seq)
        s.collRun d id

/-! ### Launch (R179, R301 to R305) -/

/-- Two ranges overlap. -/
def overlaps (a n b m : Nat) : Bool := decide (a < b + m) && decide (b < a + n) && decide (0 < n) && decide (0 < m)

/-- The checks of R303 on a command, given the communicator. -/
def State.collFlts (s : State) (d : Nat) (cmd : BitVec 512) (x : Option Comm) : List Flt :=
  let b (o n : Nat) : Nat := cmd.toNat / 2 ^ (8 * o) % 2 ^ (8 * n)
  let op := b 0 1
  let fmt := b 1 1 % 16
  let root := b 4 4
  let count := b 8 8
  let src : DWord := BitVec.ofNat 64 (b 16 8)
  let dst : DWord := BitVec.ofNat 64 (b 24 8)
  let red := op = 1 ∨ op = 2
  let esz := if fmt = 0 then 4 else 2
  let me := match x with | some c => c.myrank | none => 0
  let n := match x with | some c => c.nranks | none => 1
  let atRoot := op = 4 ∧ me = root
  let srcLen := if red then count * esz else if op = 3 then count else if atRoot then count else 0
  let dstLen := if op = 1 then count * 4 else if op = 2 then count / n * 4 else if op = 3 then n * count
    else if op = 4 ∧ ¬ (atRoot ∧ dst = 0) then count else 0
  let okOp := 1 ≤ op ∧ op ≤ 5
  let useSrc := op ≠ 5 ∧ (op ≠ 4 ∨ atRoot)
  let useDst := op ≠ 5 ∧ ¬ (atRoot ∧ dst = 0)
  let same := dst = src
  let olap := overlaps (offOf src) srcLen (offOf dst) dstLen
  let badOverlap := match op with
    | 1 => olap && !(same && fmt == 0)
    | 2 => olap
    | 3 => olap && !(offOf src == offOf dst + me * count)
    | _ => false
  fltIf (!okOp || b 1 1 / 16 != 0 || b 32 32 != 0 || (op != 4 && root != 0)
      || (op == 5 && (b 1 1 != 0 || count != 0 || src != 0 || dst != 0))
      || (op == 4 && x.isSome && me != root && src != 0) || (decide atRoot && x.isSome && dst != 0 && dst != src)) .illegal
    ++ (if okOp then
      fltIf (decide red && !(fmt == 0 || fmt == 1 || fmt == 2)) .badfmt
        ++ fltIf (!decide red && op != 5 && (Fmt.ofCode fmt).isNone) .badfmt
        ++ fltIf x.isNone .nomap
        ++ (if x.isSome then
          fltIf (op != 5 && (decide (2 ^ 36 < count) || (op == 2 && count % n != 0) || ((op == 3 || op == 4) && count % 64 != 0)
              || (op == 4 && decide (n ≤ root)) || badOverlap)) .bounds
            ++ fltIf (decide useSrc && offOf src % 64 != 0) .misalign src
            ++ fltIf (decide useDst && offOf dst % 64 != 0) .misalign dst
            ++ fltIf (decide useSrc && spaceOf src != some .dom) .badspace src
            ++ fltIf (decide useDst && spaceOf dst != some .dom) .badspace dst
            ++ fltIf (decide (2 ^ 57 < offOf src + srcLen)) .bounds src ++ fltIf (decide (2 ^ 57 < offOf dst + dstLen)) .bounds dst
            ++ (if offOf src + srcLen ≤ 2 ^ 57 ∧ spaceOf src = some .dom then
                  (s.dom d).mapFlts src (offOf src) srcLen { r := true, k := false } else [])
            ++ (if offOf dst + dstLen ≤ 2 ^ 57 ∧ spaceOf dst = some .dom then
                  (s.dom d).mapFlts dst (offOf dst) dstLen { w := true, k := false } else [])
          else [])
      else [])

/-- The first failure in the order of R303's table: ILLEGAL, BADFMT, NOMAP of the communicator, BOUNDS, MISALIGN,
BADSPACE, then the pages. The list is already in that order. -/
def firstListed : List Flt → Option Flt
  | [] => none
  | f :: _ => some f

/-- Copy this member's own block of an ALLGATHER (R311). -/
def State.gatherOwn (s : State) (d id : Nat) (x : Comm) (o : CollOp) : State :=
  let to_ := movAdr o.dst (x.myrank * o.count)
  if o.op != 3 || offOf to_ == offOf o.src then s
  else
    let s := s.readAll d [(o.src, o.count)]
    match s.engRead d o.src o.count with
    | .error (e, a) => s.collFault d id o 5 e a
    | .ok bs => match s.engWrite d to_ bs with
      | .error (e, a) => s.collFault d id o 5 e a
      | .ok t => t

/-- A collective joins its communicator's sequence (R305): a broken one completes it as aborted at once (R322). -/
def State.joinComm (s : State) (d id : Nat) (x : Comm) (o : CollOp) : State :=
  if x.st = .broken then
    (s.setComm d id { x with issued := x.issued + 1, done := x.done + 1 }).abortFence d o.ctx o.fence
  else
    let s := s.setComm d id { x with issued := x.issued + 1, ops := x.ops ++ [o] }
    (s.gatherOwn d id x o).collArrive d id o.seq

/-- A COLL that has retired is checked and launched (R303, R305). `cmd` is its 64-byte command. -/
def State.launchColl (s : State) (d c k : Nat) (pc : DWord) (cmd : BitVec 512) (fence : Option FenceRef) : State :=
  let b (o n : Nat) : Nat := cmd.toNat / 2 ^ (8 * o) % 2 ^ (8 * n)
  let id := b 2 2
  let x? := s.comm? d id
  let seq := match x? with | some x => x.issued | none => 0
  let o : CollOp :=
    { seq := seq, op := b 0 1, fmt := b 1 1 % 16, count := b 8 8, root := b 4 4
      src := BitVec.ofNat 64 (b 16 8), dst := BitVec.ofNat 64 (b 24 8)
      sig := crc32c (leBytes 16 (cmd.toNat % 2 ^ 128)), ctx := c, wk := k, pc := pc, fence := fence, issued := s.beacon }
  match x? with
  | some x =>
    if x.st = .broken then s.joinComm d id x o
    else match firstListed (s.collFlts d cmd (some x)) with
      | some f => (s.abortFence d c fence).collFault d id o 5 f.code f.adr
      | none => s.joinComm d id x o
  | none =>
    match firstListed (s.collFlts d cmd none) with
    | some f => (s.abortFence d c fence).asyncFault d c k f.code pc f.adr (leBytes 8 0)
    | none => s

/-- A communicator cannot take another collective (R305). -/
def State.commFull (s : State) (d id : Nat) : Bool :=
  match s.comm? d id with
  | some x => x.st != .broken && decide (64 ≤ x.ops.length)
  | none => false

end Sys2Proof.Machine
end

