-- ==== Sys2Proof/Machine/Update.lean ====
section
/-! DEFINITION. The update engine (spec/06_training_datapath.md): the tensor descriptor and its checks (R187 to R190), the
eight rules (R200 to R208), parking (R186), the record and the ready signal (R191, R198). -/

namespace Sys2Proof.Machine

/-! ### The descriptor (R187 to R189) -/

/-- The `n` bytes of the descriptor at offset `o`. -/
def Upd.fld (u : Upd) (o n : Nat) : Nat := u.desc.toNat / 2 ^ (8 * o) % 2 ^ (8 * n)
def Upd.adr (u : Upd) (o : Nat) : DWord := BitVec.ofNat 64 (u.fld o 8)
def Upd.f32 (u : Upd) (o : Nat) : Word := BitVec.ofNat 32 (u.fld o 4)

def Upd.tensor (u : Upd) : Nat := u.fld 0 3
def Upd.rule (u : Upd) : Nat := u.fld 4 1 % 16
def Upd.store (u : Upd) : Nat := u.fld 5 1 % 4
def Upd.split (u : Upd) : Bool := u.store == 0
def Upd.gsrc (u : Upd) : Bool := u.fld 5 1 / 4 % 2 == 1
def Upd.tokmode (u : Upd) : Bool := u.fld 5 1 / 8 % 2 == 1
def Upd.zerog (u : Upd) : Bool := u.fld 5 1 / 16 % 2 == 1
def Upd.comm (u : Upd) : Nat := u.fld 6 2
def Upd.nelem (u : Upd) : Nat := u.fld 8 8 % 2 ^ 37
def Upd.ebase (u : Upd) : DWord := u.adr 0x10
def Upd.ncols (u : Upd) : Nat := u.fld 0x18 4
def Upd.clip (u : Upd) : Word := u.f32 0x1C
def Upd.flame (u : Upd) : DWord := u.adr 0x20
def Upd.ember (u : Upd) : DWord := u.adr 0x28
def Upd.m1 (u : Upd) : DWord := u.adr 0x30
def Upd.m2 (u : Upd) : DWord := u.adr 0x38
def Upd.gradA (u : Upd) : DWord := u.adr 0x40
def Upd.tokA (u : Upd) : DWord := u.adr 0x48
def Upd.aux (u : Upd) : DWord := u.adr 0x50
def Upd.recA (u : Upd) : DWord := u.adr 0x58
def Upd.lr (u : Upd) : Word := u.f32 0x60
def Upd.beta1 (u : Upd) : Word := u.f32 0x64
def Upd.beta2 (u : Upd) : Word := u.f32 0x68
def Upd.eps (u : Upd) : Word := u.f32 0x6C
def Upd.wd (u : Upd) : Word := u.f32 0x70
def Upd.gscale (u : Upd) : Word := u.f32 0x74
def Upd.bc1 (u : Upd) : Word := u.f32 0x78
def Upd.bc2 (u : Upd) : Word := u.f32 0x7C

/-- The fields a rule uses (R189). -/
def Upd.usesM1 (u : Upd) : Bool := [2, 3, 4, 5, 7, 8].contains u.rule || (u.rule == 6 && u.beta1 != 0)
def Upd.usesM2 (u : Upd) : Bool := [4, 5, 6, 7].contains u.rule
def Upd.usesAux (u : Upd) : Bool := u.rule == 6 || u.rule == 7
def Upd.twoPass (u : Upd) : Bool := u.usesAux

/-- Rows of the two-dimensional view, and bytes of the factor arrays (R189). -/
def Upd.nrows (u : Upd) : Nat := u.nelem / max u.ncols 1
def Upd.colOff (u : Upd) : Nat := 64 * ((u.nrows + 15) / 16)
def Upd.m2Len (u : Upd) : Nat := if u.rule = 6 then u.colOff + 4 * u.ncols else 4 * u.nelem

/-- Logical Lanterns of LMASK. -/
def Upd.lmask (u : Upd) : List Nat := (List.range 64).filter fun i => u.ember.getLsbD i

/-- A field that the rule does not use is nonzero, or reserved bits are (R187, R189). -/
def Upd.badFields (u : Upd) : Bool :=
  let r := u.rule
  u.fld 3 1 != 0 || u.fld 4 1 / 16 != 0 || u.fld 5 1 / 32 != 0 || u.fld 8 8 / 2 ^ 37 != 0
    || (!u.gsrc && u.comm != 0)
    || (!u.usesM1 && u.m1 != 0) || (!u.usesM2 && u.m2 != 0) || (!u.usesAux && u.aux != 0)
    || (r != 6 && u.ncols != 0) || (r != 7 && u.clip != 0)
    || (r == 1 && u.beta1 != 0) || (!([4, 5, 6, 7, 8].contains r) && u.beta2 != 0)
    || (!([4, 5, 6, 7].contains r) && (u.eps != 0 || u.bc2 != 0)) || (!([4, 5, 7].contains r) && u.bc1 != 0)

/-- The arrays of an update: address, length, whether it must be in the Reservoir without Wick permission (R182), whether
it is written. -/
structure Arr where
  adr : DWord
  len : Nat
  /-- 0: DOMAIN, either tier; 1: DOMAIN HBM; 2: DOMAIN Reservoir without Wick permission; 3: LANTERN. -/
  kind : Nat
  r : Bool := true
  w : Bool := true
  al : Nat := 64

def Upd.arrays (u : Upd) : List Arr :=
  let n := u.nelem
  [{ adr := u.flame, len := 2 * n, kind := if u.split then 1 else 3 }]
    ++ (if u.split then [{ adr := u.ember, len := 2 * n, kind := 2 }] else [])
    ++ (if u.usesM1 then [{ adr := u.m1, len := 4 * n, kind := 2 }] else [])
    ++ (if u.usesM2 then [{ adr := u.m2, len := u.m2Len, kind := 2 }] else [])
    ++ [{ adr := u.gradA, len := 4 * n, kind := 0, w := u.gsrc || u.zerog }]
    ++ [{ adr := u.tokA, len := 8, kind := 0, w := u.zerog, al := 8 }]
    ++ (if u.usesAux then [{ adr := u.aux, len := 4 * n, kind := 2 }] else [])
    ++ [{ adr := u.recA, len := 64, kind := 0, r := false }]

def Arr.badSpace (a : Arr) : Bool :=
  match a.kind, spaceOf a.adr with
  | 3, some .lant => false
  | 0, some .dom => false
  | 1, some .dom => decide (2 ^ 56 ≤ offOf a.adr)
  | 2, some .dom => decide (offOf a.adr < 2 ^ 56)
  | _, _ => true

def Arr.limit (a : Arr) : Nat :=
  match a.kind with
  | 3 => spaceSize .lant
  | 1 => 2 ^ 56
  | _ => 2 ^ 57

/-- The page faults of an array. -/
def State.arrFlts (s : State) (d : Nat) (a : Arr) : List Flt :=
  if a.kind = 3 then []
  else
    (s.dom d).mapFlts a.adr (offOf a.adr) a.len { r := a.r, w := a.w, k := false }
      ++ fltIf (a.kind == 2 && (pageStarts (offOf a.adr) a.len).any fun p =>
          match (s.dom d).pte p with | some e => e.k | none => false) .perm a.adr

/-- The faults of a descriptor before its update runs, condition by condition in the order of R190's table. -/
def State.updFlts (s : State) (u : Upd) : List Flt :=
  let x := s.ctx? u.dom u.ctx
  let nl := match x with | some c => (match c.prog with | some p => p.lants.length | none => 0) | none => 0
  let pin := (s.dom u.dom).pins.find? fun p => p.tensor == u.tensor
  let sr16Bad := !u.split && (u.ember == 0 || (match pin with | some p => p.nelem != u.nelem | none => true))
  let badrule := u.rule == 0 || decide (8 < u.rule) || decide (2 ≤ u.store) || u.badFields || (u.tokmode && !u.gsrc)
    || u.nelem == 0 || decide (2 ^ 36 < u.nelem)
    || (u.rule == 6 && (u.ncols == 0 || decide (65536 < u.ncols) || u.nelem % u.ncols != 0 || u.ebase.toNat % u.ncols != 0))
    || sr16Bad
  if badrule then [⟨.badrule, 0⟩]
  else
    let as := u.arrays
    (as.map fun a => fltIf a.badSpace .badspace a.adr).flatten
      ++ (as.map fun a => fltIf (offOf a.adr % a.al != 0) .misalign a.adr).flatten
      ++ (as.map fun a => fltIf (decide (a.limit < offOf a.adr + a.len)) .bounds a.adr).flatten
      ++ fltIf (!u.split && u.lmask.any fun i => decide (nl ≤ i)) .bounds u.flame
      ++ (if as.any (fun a => a.badSpace || decide (a.limit < offOf a.adr + a.len)) then []
          else
            let fs := (as.map (s.arrFlts u.dom)).flatten
            fs.filter (fun f => f.code == .nomap)
              ++ fltIf (u.gsrc && (s.comm? u.dom u.comm).isNone) .nomap
              ++ fs.filter (fun f => f.code == .perm))

/-- The engine of an update (R196). -/
def State.updEngine (s : State) (u : Upd) : Nat :=
  let a := if u.split then u.ember else if u.usesM1 then u.m1 else if u.usesM2 then u.m2 else 0
  if a = 0 then 0
  else match (s.dom u.dom).dpa (offOf a) with
    | some p => (ctlOf p - 12) / 8
    | none => 0

/-! ### The rules (R200 to R209) -/

/-- What is computed once per update (R200). -/
structure UpdK where
  tf : Word
  c1 : Word
  c2 : Word
  k : Word
  nlr : Word

def Upd.consts (u : Upd) (t : DWord) : UpdK :=
  { tf := toF32 .rne (intVal t.toNat), c1 := fsub .rne one32 u.beta1, c2 := fsub .rne one32 u.beta2
    k := fsub .rne one32 (fmul .rne u.lr u.wd), nlr := fneg u.lr }

/-- The averaged gradient of one element (R193, R200). -/
def Upd.avg (u : Upd) (k : UpdK) (g : Word) : Word := fmul .rne (fdiv .rne g k.tf) u.gscale

/-- Coupled decay: g := fma(WD, w, g) unless WD is 0x0000_0000. -/
def Upd.couple (u : Upd) (w g : Word) : Word := if u.wd = 0 then g else ffma .rne u.wd w g
/-- Decoupled decay: w := w · k. -/
def Upd.decay (u : Upd) (k : UpdK) (w : Word) : Word := if u.wd = 0 then w else fmul .rne w k.k

/-- The last lines of rules 0x4 and 0x5 (R204): from m onward. -/
def Upd.adam (u : Upd) (k : UpdK) (w g m v : Word) : Word × Word × Word :=
  let m' := ffma .rne u.beta1 m (fmul .rne k.c1 g)
  let v' := ffma .rne u.beta2 v (fmul .rne k.c2 (fmul .rne g g))
  let mh := fmul .rne m' u.bc1
  let vh := fmul .rne v' u.bc2
  let d := fadd .rne (fsqrt .rne vh) u.eps
  (ffma .rne k.nlr (fdiv .rne mh d) w, m', v')

/-- One element of a single-pass rule: new master, first and second moment from the averaged gradient. -/
def Upd.elem (u : Upd) (k : UpdK) (w g m v : Word) : Word × Word × Word :=
  match u.rule with
  | 1 => (ffma .rne k.nlr (u.couple w g) w, m, v)
  | 2 =>
    let m' := ffma .rne u.beta1 m (u.couple w g)
    (ffma .rne k.nlr m' w, m', v)
  | 3 =>
    let g' := u.couple w g
    let m' := ffma .rne u.beta1 m g'
    (ffma .rne k.nlr (ffma .rne u.beta1 m' g') w, m', v)
  | 4 => u.adam k w (u.couple w g) m v
  | 5 => u.adam k (u.decay k w) g m v
  | 8 =>
    let x := fsign (ffma .rne u.beta1 m (fmul .rne k.c1 g))
    (ffma .rne k.nlr x (u.decay k w), ffma .rne u.beta2 m (fmul .rne k.c2 g), v)
  | _ => (w, m, v)

/-- A value is NaN or infinite (R74). -/
def nonFin (w : Word) : Bool := w.extractLsb' 23 8 == 0xFF#8

/-! ### Arrays in memory -/

/-- The first 64-byte chunk of an array that the engine cannot access: element index, fault, address. -/
def State.badChunk (s : State) (d : Nat) (adr : DWord) (esz n : Nat) (reads : Bool) : Option (Nat × FCode × DWord) :=
  (List.range ((n * esz + 63) / 64)).findSome? fun c =>
    let o := offOf adr + 64 * c
    let len := min 64 (n * esz - 64 * c)
    match firstFlt ((s.dom d).mapFlts (movAdr adr (64 * c)) o len { r := reads, w := !reads, k := false }) with
    | some f => some (c * 64 / esz, f.code, f.adr)
    | none => if reads then (s.poisonAt d o len).map fun a => (c * 64 / esz, FCode.poison, (BitVec.ofNat 64 a : DWord)) else none

/-- The first of several faults, by element index. -/
def minBad : List (Option (Nat × FCode × DWord)) → Option (Nat × FCode × DWord)
  | [] => none
  | none :: l => minBad l
  | some f :: l => match minBad l with
    | some g => if g.1 < f.1 then some g else some f
    | none => some f

def State.rdW (s : State) (d : Nat) (adr : DWord) (n : Nat) : List Word := toWords (s.rdDom d (offOf adr) (4 * n))
def State.rdH (s : State) (d : Nat) (adr : DWord) (n : Nat) : List Nat := toHalves (s.rdDom d (offOf adr) (2 * n))
def State.wrW (s : State) (d : Nat) (adr : DWord) (l : List Word) : State := s.wrDom d (offOf adr) (ofWords l)
def State.wrH (s : State) (d : Nat) (adr : DWord) (l : List Nat) : State := s.wrDom d (offOf adr) (ofHalves l)

/-- The masters of the first `n` elements (R181, R185). -/
def State.masters (s : State) (u : Upd) (n : Nat) : List Word :=
  if u.split then
    List.zipWith (fun f e => BitVec.ofNat 32 (f * 2 ^ 16 + e)) (s.rdH u.dom u.flame n) (s.rdH u.dom u.ember n)
  else match s.ctx? u.dom u.ctx, u.lmask with
    | some x, l :: _ => (toHalves (Memory.rdN (FMap.get [] x.lmem l) (offOf u.flame) (2 * n))).map Fmt.bf16.widen
    | _, _ => []

/-- The BF16 value of an SR16 element (R185, R59). -/
def State.sr16 (s : State) (u : Upd) (i : Nat) (w : Word) : Nat :=
  Fmt.bf16.narrow (.sr (draw (s.dom u.dom).jobSeed u.step (BitVec.ofNat 24 u.tensor) 0x80#8
    (u.ebase + BitVec.ofNat 64 i)).toNat) w

/-- Write masters back (R209): both halves, or the BF16 value in every Lantern of LMASK. -/
def State.wrMasters (s : State) (u : Upd) (ws : List Word) : State :=
  if u.split then
    (s.wrH u.dom u.flame (ws.map fun w => w.toNat / 2 ^ 16)).wrH u.dom u.ember (ws.map fun w => w.toNat % 2 ^ 16)
  else
    let hs := (List.range ws.length).map fun i => s.sr16 u i (ws.getD i 0)
    s.modCtx u.dom u.ctx fun x => u.lmask.foldl
      (fun y l => { y with lmem := FMap.set [] y.lmem l (Memory.wrN (FMap.get [] y.lmem l) (offOf u.flame) (ofHalves hs)) }) x

/-- Is the new stored master not finite (R74)? -/
def State.masterNF (s : State) (u : Upd) (i : Nat) (w : Word) : Bool :=
  if u.split then nonFin w else nonFin (Fmt.bf16.widen (s.sr16 u i w))

/-- The first fault of the arrays that hold the master, when they are read or written. -/
def State.badMaster (s : State) (u : Upd) : Option (Nat × FCode × DWord) :=
  if u.split then
    minBad [s.badChunk u.dom u.flame 2 u.nelem true, s.badChunk u.dom u.flame 2 u.nelem false,
      s.badChunk u.dom u.ember 2 u.nelem true, s.badChunk u.dom u.ember 2 u.nelem false]
  else none

/-- The first fault of an FP32 array that is read and written. -/
def State.badRW (s : State) (u : Upd) (adr : DWord) : Option (Nat × FCode × DWord) :=
  minBad [s.badChunk u.dom adr 4 u.nelem true, s.badChunk u.dom adr 4 u.nelem false]

/-- What running an update leaves: the state, the count of R74 and AUXVAL, or a fault. -/
structure UpdOut where
  s : State
  nf : Nat := 0
  aux : Word := 0
  flt : Option (FCode × DWord) := none

/-- Elements of the first `n` for which a test holds. -/
def countBy (n : Nat) (p : Nat → Bool) : Nat := ((List.range n).filter p).length

/-- A single-pass rule (R201 to R205, R208) on the reduced gradient `g`. -/
def State.runSingle (s : State) (u : Upd) (k : UpdK) (g : List Word) (gbad : Option (Nat × FCode × DWord)) : UpdOut :=
  let bad := minBad [gbad, s.badMaster u, if u.usesM1 then s.badRW u u.m1 else none, if u.usesM2 then s.badRW u u.m2 else none]
  let n := match bad with | some b => b.1 | none => u.nelem
  let w := s.masters u n
  let m := if u.usesM1 then s.rdW u.dom u.m1 n else []
  let v := if u.usesM2 then s.rdW u.dom u.m2 n else []
  let out := (List.range n).map fun i =>
    u.elem k (w.getD i 0) (u.avg k (g.getD i 0)) (m.getD i 0) (v.getD i 0)
  let nf := countBy n fun i =>
    let o := out.getD i (0, 0, 0)
    nonFin (g.getD i 0) || s.masterNF u i o.1 || (u.usesM1 && nonFin o.2.1) || (u.usesM2 && nonFin o.2.2)
  let t := s.wrMasters u (out.map (·.1))
  let t := if u.usesM1 then t.wrW u.dom u.m1 (out.map (·.2.1)) else t
  let t := if u.usesM2 then t.wrW u.dom u.m2 (out.map (·.2.2)) else t
  { s := t, nf := nf, flt := bad.map (·.2) }

/-- Running sums in ascending order from +0.0. -/
def sumSeq (l : List Word) : Word := l.foldl (fadd .rne) 0

/-- Rule 0x6, factored second moment (R206). -/
def State.runFactored (s : State) (u : Upd) (k : UpdK) (g : List Word) (gbad : Option (Nat × FCode × DWord)) : UpdOut :=
  let nc := u.ncols
  let nr := u.nrows
  let bad1 := minBad [gbad, s.badChunk u.dom u.aux 4 u.nelem false]
  let n1 := match bad1 with | some b => b.1 | none => u.nelem
  let ga := (List.range n1).map fun i => u.avg k (g.getD i 0)
  let s1 := s.wrW u.dom u.aux ga
  match bad1 with
  | some b => { s := s1, flt := some b.2 }
  | none =>
    let q := ga.map fun x => ffma .rne x x u.eps
    let rs := (List.range nr).map fun r => sumSeq ((List.range nc).map fun c => q.getD (r * nc + c) 0)
    let cs := (List.range nc).map fun c => sumSeq ((List.range nr).map fun r => q.getD (r * nc + c) 0)
    let fnr := toF32 .rne (intVal nr)
    let fnc := toF32 .rne (intVal nc)
    let cA := movAdr u.m2 u.colOff
    match minBad [s1.badChunk u.dom u.m2 4 nr true, s1.badChunk u.dom cA 4 nc true] with
    | some b => { s := s1, flt := some b.2 }
    | none =>
      let rf := List.zipWith (fun f x => ffma .rne u.beta2 f (fmul .rne k.c2 (fdiv .rne x fnc))) (s1.rdW u.dom u.m2 nr) rs
      let cf := List.zipWith (fun f x => ffma .rne u.beta2 f (fmul .rne k.c2 (fdiv .rne x fnr))) (s1.rdW u.dom cA nc) cs
      let rmean := fdiv .rne (sumSeq rf) fnr
      let s2 := (s1.wrW u.dom u.m2 rf).wrW u.dom cA cf
      let bad2 := minBad [s2.badMaster u, s2.badChunk u.dom u.aux 4 u.nelem true,
        if u.usesM1 then s2.badRW u u.m1 else none]
      let n2 := match bad2 with | some b => b.1 | none => u.nelem
      let w := s2.masters u n2
      let m := if u.usesM1 then s2.rdW u.dom u.m1 n2 else []
      let out := (List.range n2).map fun i =>
        let vh := fmul .rne (fdiv .rne (fmul .rne (rf.getD (i / nc) 0) (cf.getD (i % nc) 0)) rmean) u.bc2
        let x := fdiv .rne (ga.getD i 0) (fsqrt .rne vh)
        let w' := u.decay k (w.getD i 0)
        if u.usesM1 then
          let m' := ffma .rne u.beta1 (m.getD i 0) (fmul .rne k.c1 x)
          (ffma .rne k.nlr m' w', m')
        else (ffma .rne k.nlr x w', 0)
      let nf := countBy n2 fun i =>
        let o := out.getD i (0, 0)
        nonFin (g.getD i 0) || s2.masterNF u i o.1 || (u.usesM1 && nonFin o.2) || nonFin (rf.getD (i / nc) 0)
          || nonFin (cf.getD (i % nc) 0)
      let t := s2.wrMasters u (out.map (·.1))
      let t := if u.usesM1 then t.wrW u.dom u.m1 (out.map (·.2)) else t
      { s := t, nf := nf, aux := rmean, flt := bad2.map (·.2) }

/-- Rule 0x7, layer-wise trust ratio (R207). -/
def State.runTrust (s : State) (u : Upd) (k : UpdK) (g : List Word) (gbad : Option (Nat × FCode × DWord)) : UpdOut :=
  let badW := if u.split then
      minBad [s.badChunk u.dom u.flame 2 u.nelem true, s.badChunk u.dom u.ember 2 u.nelem true] else none
  let bad1 := minBad [gbad, badW, s.badRW u u.m1, s.badRW u u.m2, s.badChunk u.dom u.aux 4 u.nelem false]
  let n1 := match bad1 with | some b => b.1 | none => u.nelem
  let w := s.masters u n1
  let m := s.rdW u.dom u.m1 n1
  let v := s.rdW u.dom u.m2 n1
  let out := (List.range n1).map fun i =>
    let x := u.avg k (g.getD i 0)
    let m' := ffma .rne u.beta1 (m.getD i 0) (fmul .rne k.c1 x)
    let v' := ffma .rne u.beta2 (v.getD i 0) (fmul .rne k.c2 (fmul .rne x x))
    let y := fdiv .rne (fmul .rne m' u.bc1) (fadd .rne (fsqrt .rne (fmul .rne v' u.bc2)) u.eps)
    (m', v', u.couple (w.getD i 0) y)
  let s1 := ((s.wrW u.dom u.m1 (out.map (·.1))).wrW u.dom u.m2 (out.map (·.2.1))).wrW u.dom u.aux (out.map (·.2.2))
  match bad1 with
  | some b => { s := s1, flt := some b.2 }
  | none =>
    let a := fsqrt .rne (w.foldl (fun acc x => ffma .rne x x acc) 0)
    let b := fsqrt .rne ((out.map (·.2.2)).foldl (fun acc x => ffma .rne x x acc) 0)
    let r0 := if fcmpEq a 0 || fcmpEq b 0 then one32 else fdiv .rne a b
    let ratio := if u.clip = 0 then r0 else fmin r0 u.clip
    let sc := fneg (fmul .rne u.lr ratio)
    let bad2 := minBad [s1.badMaster u, s1.badChunk u.dom u.aux 4 u.nelem true]
    let n2 := match bad2 with | some b => b.1 | none => u.nelem
    let ws := (List.range n2).map fun i => ffma .rne sc ((out.getD i (0, 0, 0)).2.2) (w.getD i 0)
    let nf := countBy n2 fun i =>
      let o := out.getD i (0, 0, 0)
      nonFin (g.getD i 0) || s1.masterNF u i (ws.getD i 0) || nonFin o.1 || nonFin o.2.1
    { s := s1.wrMasters u ws, nf := nf, aux := ratio, flt := bad2.map (·.2) }

/-- Run an update's rule on gradient `g` and total `t`. -/
def State.runRule (s : State) (u : Upd) (t : DWord) (g : List Word) (gbad : Option (Nat × FCode × DWord)) : UpdOut :=
  let k := u.consts t
  if u.rule = 6 then s.runFactored u k g gbad
  else if u.rule = 7 then s.runTrust u k g gbad
  else s.runSingle u k g gbad

/-- The 64-byte record (R191). SPILL_KIB is the spilled bytes' whole KiB: rounded down where they are no multiple of 1,024 (DESIGN
CHOICE, log 59). -/
def State.updRecord (s : State) (u : Upd) : List Byte :=
  leBytes 8 u.step.toNat ++ leBytes 8 s.beacon ++ leBytes 8 u.total.toNat ++ leBytes 8 u.nelem
    ++ leBytes 4 (min u.nf 0xFFFFFFFF) ++ leBytes 4 (min (u.spilled / 1024) 0xFFFFFFFF) ++ leBytes 4 u.tensor
    ++ leBytes 4 u.auxval.toNat ++ leBytes 16 0

/-- A fault of an update: no record, its context aborted (R190). -/
def State.updFault (s : State) (u : Upd) (c : FCode) (a : DWord) : State :=
  s.asyncFault u.dom u.ctx u.wk c u.pc a (leBytes 8 u.num)

/-- The arrays that an update reads, with their bytes (R197, R206). -/
def Upd.readArrays (u : Upd) : List (DWord × Nat) :=
  let n := u.nelem
  (if u.gsrc then [] else [(u.tokA, 8), (u.gradA, 4 * n)])
  ++ (if u.split then [(u.flame, 2 * n), (u.ember, 2 * n)] else [])
  ++ (if u.usesM1 then [(u.m1, 4 * n)] else [])
  ++ (if u.rule = 6 then [(u.m2, 4 * u.nrows), (movAdr u.m2 u.colOff, 4 * u.ncols)] else if u.usesM2 then [(u.m2, 4 * n)] else [])

/-- Run an update whose gradient and total are at hand (R197), and note what its record will say. All its results are written at
UPDATE_START: a chunk of the flame read between the launch and the ready signal is the old one before that command and the new one after
it, which R33 leaves open chunk by chunk (DESIGN CHOICE, log 59). -/
def State.runUpd (s₀ : State) (u : Upd) : State :=
  let s := s₀.readAll u.dom u.readArrays
  if !s.eng.upds.any (fun v => v.num == u.num) then s else
  let grad : Except (FCode × DWord) (DWord × List Word × Option (Nat × FCode × DWord)) :=
    if u.gsrc then .ok (u.tok.getD 0, u.grad, none)
    else match s.engRead u.dom u.tokA 8 with
      | .error e => .error e
      | .ok bs =>
        let bad := s.badChunk u.dom u.gradA 4 u.nelem true
        let n := match bad with | some b => b.1 | none => u.nelem
        .ok (BitVec.ofNat 64 (leNat bs), s.rdW u.dom u.gradA n, bad)
  match grad with
  | .error (e, a) => s.updFault u e a
  | .ok (t, g, bad) =>
    let o := s.runRule u t g bad
    match o.flt with
    | some (e, a) => o.s.updFault u e a
    | none => o.s.modUpd u.num fun v => { v with
        phase := .written, fifo := 0, fifoSp := 0, stage := 0, total := t, nf := o.nf, auxval := o.aux }

/-- A Lantern of an SR16 update is swapped out (R186). -/
def State.updSwapped (s : State) (u : Upd) : Bool :=
  !u.split && (match s.ctx? u.dom u.ctx with
    | some x => (match x.prog with | some p => !p.resident | none => true)
    | none => true)

/-- The update at the head of a domain's queue on an engine takes its gradient, parks, or runs (R186, R197). -/
def State.startUpd (s : State) (u : Upd) : State :=
  if s.updSwapped u then s.park u
  else if u.gsrc then
    -- what has arrived is taken from the FIFO, staged data following it, and grants grow
    let s := s.modUpd u.num fun v => { v with fifo := 0, fifoSp := 0, stage := 0 }
    if u.tok.isSome && decide (u.nelem ≤ u.grad.length) then s.runUpd u
    else s.collRun u.dom u.comm
  else s.runUpd u

/-- The fused reduction of an update has completed on this chip: every RESULT it sent has its ACK (R318). -/
def State.fusedDone (s : State) (u : Upd) : Bool :=
  !u.gsrc || (match s.comm? u.dom u.comm with
    | some x => !x.ops.any fun o => o.upd == some u.num
    | none => true)

/-- ZEROG, the record, then the completion fence (R191, R198). -/
def State.finishUpd (s : State) (u : Upd) : State :=
  let drop (t : State) : State :=
    ({ t with eng := { t.eng with upds := t.eng.upds.filter fun v => v.num != u.num } }).settleResv u.engine u.dom
  let z : Except (FCode × DWord) State :=
    if u.zerog then
      match s.engWrite u.dom u.gradA (List.replicate (4 * u.nelem) 0) with
      | .error e => .error e
      | .ok t => t.engWrite u.dom u.tokA (leBytes 8 0)
    else .ok s
  match z with
  | .error (e, a) => s.updFault u e a
  | .ok t => match t.engWrite u.dom u.recA (t.updRecord u) with
    | .error (e, a) => t.updFault u e a
    | .ok t =>
      ((drop t).modUpdEng u.engine fun x => { x with done := x.done + 1 }).signalFence u.dom u.ctx u.fence u.pc (leBytes 8 u.num)

/-- UPD with GSRC = 1 on a communicator that takes no more collectives is held at issue (R305). -/
def State.updHeld (s : State) (d : Nat) (desc : BitVec 1024) : Bool :=
  desc.getLsbD 42 && s.commFull d (desc.toNat / 2 ^ 48 % 2 ^ 16)

/-- An UPD that has retired is checked and queued (R190, R194, R196, R318). -/
def State.launchUpd (s : State) (d c k : Nat) (pc : DWord) (desc : BitVec 1024) (fence : Option FenceRef) : State :=
  let step := match s.ctx? d c with | some x => x.step | none => 0
  let u0 : Upd := { num := s.eng.nextUpd, dom := d, ctx := c, wk := k, pc := pc, desc := desc, fence := fence, step := step, engine := 0
                    after := (s.wickAt d c k).mq.length }
  let seq := match s.comm? d u0.comm with | some x => if u0.gsrc then x.issued else 0 | none => 0
  let u := { u0 with engine := s.updEngine u0, seq := seq }
  let s := { s with eng := { s.eng with nextUpd := s.eng.nextUpd + 1 } }
  match firstListed (s.updFlts u) with
  | some f => (s.abortFence d c fence).updFault u f.code f.adr
  | none =>
    let s1 := { s with eng := { s.eng with upds := s.eng.upds ++ [u] } }
    if !u.gsrc then s1
    else match s.comm? d u.comm with
      | none => s
      | some x =>
        let cmd : Nat := (if u.tokmode then 7 else 6) + u.comm * 2 ^ 16 + u.tensor * 2 ^ 32 + u.nelem * 2 ^ 64
        let o : CollOp :=
          { seq := x.issued, op := if u.tokmode then 7 else 6, fmt := 0, count := u.nelem, root := u.tensor
            src := u.gradA, dst := 0, sig := crc32c (leBytes 16 cmd), ctx := c, wk := k, pc := pc, fence := none
            issued := s.beacon, upd := some u.num, tokmode := u.tokmode, tok := u.tokA }
        if x.st = .broken then
          (s.setComm d u.comm { x with issued := x.issued + 1, done := x.done + 1 }).abortFence d c fence
        else s1.joinComm d u.comm x o

end Sys2Proof.Machine
end

