-- ==== Sys2Proof/Machine/XSlot.lean ====
section
/-! DEFINITION. The X slot (R132 to R136, R143, R165 to R172): loads and stores, register moves, DMA and token dispatch at
issue. -/

namespace Sys2Proof.Machine

/-- The status word of a logical Wick (R78). -/
def State.statusWord (s : State) (d c k : Nat) : DWord :=
  match s.ctx? d c with
  | some x => match x.prog with
    | some p =>
      let map := (s.lantern (p.lants.getD (k / 8) 0)).map
      let folded := decide (2 ≤ (map.filter fun q => q == map.getD (k % 8) 8).length)
      BitVec.ofNat 64 (k % 8 + k / 8 * 2 ^ 3 + (p.lants.length - 1) * 2 ^ 9 + (if folded then 2 ^ 15 else 0) + c * 2 ^ 16
        + d * 2 ^ 32)
    | none => 0
  | none => 0

/-- The issuing Wick: domain, context, llant · 8 + lwick, and its registers before the bundle. -/
structure Iss where
  s : State
  d : Nat
  c : Nat
  k : Nat
  wk : Wick

/-! ### Format XM (R132, R133) -/

/-- The displacement of an XM word: OFF in units of the access (R88, R132). -/
def xmOff (w : DWord) : Int := sx 18 (fld w 18 18) * (if opOf w ≤ 0x81 then (2 ^ fld w 36 2 : Nat) else 64 : Nat)
/-- The address accessed. -/
def xmAdr (i : Iss) (w : DWord) : DWord :=
  let a := i.wk.ra (fld w 14 4)
  if tb w 39 then a else addOff a (xmOff w)
/-- The post-increment of aAA. -/
def xmPost (i : Iss) (w : DWord) : List Act :=
  if tb w 39 then [.a (fld w 14 4) (addOff (i.wk.ra (fld w 14 4)) (xmOff w))] else []

/-- LD (R165). -/
def xLd (i : Iss) (w : DWord) : SlotR :=
  let n := 2 ^ fld w 36 2
  let a := xmAdr i w
  let v := leNat (i.s.rdSpace i.d i.c i.k a n)
  let x : DWord := if tb w 38 then BitVec.ofInt 64 (sx (8 * n) v) else BitVec.ofNat 64 v
  { flts := i.s.accFlts i.d a n n { r := true }, acts := .s (fld w 8 6) x :: xmPost i w }

/-- ST (R165). -/
def xSt (i : Iss) (w : DWord) : SlotR :=
  let n := 2 ^ fld w 36 2
  let a := xmAdr i w
  { flts := i.s.accFlts i.d a n n { w := true }
    acts := .store a (leBytes n (i.wk.rs (fld w 8 6)).toNat) :: xmPost i w }

/-- Bytes that 256 elements of a format take (R133). -/
def vecBytes (f : Fmt) : Nat := 32 * f.bits

/-- The scale displacement of an MX access (R133). -/
def scaleOff (f : Fmt) (w : DWord) : Int := xmOff w / (blkBytes f : Nat)
def scaleAdr (i : Iss) (f : Fmt) (w : DWord) : DWord :=
  let a := i.wk.ra (fld w 48 4)
  if tb w 39 then a else addOff a (scaleOff f w)
def scalePost (i : Iss) (f : Fmt) (w : DWord) : List Act :=
  if tb w 39 && f.isMX then [.a (fld w 48 4) (addOff (i.wk.ra (fld w 48 4)) (scaleOff f w))] else []

/-- The format of VLD and VST; E8M0 and reserved codes are refused (R133). -/
def vecFmt (w : DWord) : Option Fmt :=
  match fmtOf w 40 with
  | some .e8m0 => none
  | f => f

/-- The faults of a vector access. -/
def vecFlts (i : Iss) (w : DWord) (q : Need) : List Flt :=
  match vecFmt w with
  | none => [⟨.badfmt, 0⟩]
  | some f =>
    i.s.accFlts i.d (xmAdr i w) 64 (vecBytes f) q
      ++ (if f.isMX then i.s.accFlts i.d (scaleAdr i f w) 8 8 q else [])

/-- VLD (R165): active lanes take the lane form of their element, with its block's scale for MX. -/
def xVld (i : Iss) (w : DWord) : SlotR :=
  match vecFmt w with
  | none => { flts := [⟨.badfmt, 0⟩] }
  | some f =>
    let els := bitFields f.bits 256 (leNat (i.s.rdSpace i.d i.c i.k (xmAdr i w) (vecBytes f)))
    let scs := if f.isMX then i.s.rdSpace i.d i.c i.k (scaleAdr i f w) 8 else []
    let act (n : Nat) : Bool := xor ((i.wk.rp (fld w 44 3)).getLsbD n) (tb w 47)
    let old := i.wk.rv (fld w 8 5)
    { flts := vecFlts i w { r := true }
      acts := .v (fld w 8 5) (mkVec fun n =>
          if act n then BitVec.ofNat 32 (els.getD n 0 + (scs.getD (n / 32) 0).toNat * 256) else lane old n)
        :: (xmPost i w ++ scalePost i f w)
      stall := i.wk.vecBusy (fld w 8 5) }

/-- Runs of adjacent active lanes: displacement and bytes. -/
def laneRuns (esz : Nat) : Nat → List (Bool × List Byte) → List (Nat × List Byte)
  | _, [] => []
  | o, (false, _) :: l => laneRuns esz (o + esz) l
  | o, (true, b) :: l =>
    match laneRuns esz (o + esz) l with
    | (o', bs) :: r => if o' = o + esz then (o, b ++ bs) :: r else (o, b) :: (o', bs) :: r
    | [] => [(o, b)]

/-- VST (R165): the active lanes are packed back; an MX store writes each block's scale from its first lane. -/
def xVst (i : Iss) (w : DWord) : SlotR :=
  match vecFmt w with
  | none => { flts := [⟨.badfmt, 0⟩] }
  | some f =>
    let v := i.wk.rv (fld w 8 5)
    let a := xmAdr i w
    let act (n : Nat) : Bool := xor ((i.wk.rp (fld w 44 3)).getLsbD n) (tb w 47)
    let data : List Act :=
      if f.isMX then
        [.store a (leBytes (vecBytes f) (ofBitFields f.bits ((List.range 256).map fun n => (lane v n).toNat))),
         .store (scaleAdr i f w) ((List.range 8).map fun b => (lane v (32 * b)).extractLsb' 8 8)]
      else
        (laneRuns (f.bits / 8) 0 ((List.range 256).map fun n => (act n, leBytes (f.bits / 8) (lane v n).toNat))).map
          fun p => .store (addOff a (p.1 : Int)) p.2
    { flts := vecFlts i w { w := true }, acts := data ++ xmPost i w ++ scalePost i f w
      stall := i.wk.vecBusy (fld w 8 5) }

/-- The address of row `r` of a tile access. -/
def tileRow (i : Iss) (w : DWord) (r : Nat) : DWord :=
  addOff (xmAdr i w) ((r * (i.wk.rs (fld w 52 6)).toNat : Nat) : Int)

/-- The faults of a tile access (R133). -/
def tileFlts (i : Iss) (w : DWord) (q : Need) : List Flt :=
  fltIf (fld w 40 4 != 0) .badfmt
    ++ fltIf ((i.wk.rs (fld w 52 6)).toNat % 64 != 0) .misalign (xmAdr i w)
    ++ ((List.range 64).map fun r => i.s.accFlts i.d (tileRow i w r) 64 256 q).flatten

/-- TLD (R165). -/
def xTld (i : Iss) (w : DWord) : SlotR :=
  { flts := tileFlts i w { r := true }
    acts := .t (fld w 8 3) (((List.range 64).map fun r => toWords (i.s.rdSpace i.d i.c i.k (tileRow i w r) 256)).flatten)
      :: xmPost i w
    stall := i.wk.tileBusy (fld w 8 3) }

/-- TST (R165). -/
def xTst (i : Iss) (w : DWord) : SlotR :=
  { flts := tileFlts i w { w := true }
    acts := ((List.range 64).map fun r =>
        Act.store (tileRow i w r) (ofWords ((List.range 64).map fun c => lane (i.wk.rt (fld w 8 3)) (64 * r + c))))
      ++ xmPost i w
    stall := i.wk.tileBusy (fld w 8 3) }

/-! ### DMA and token dispatch (R135, R136, R168, R172, R615) -/

/-- The completion fence a word names: none with NOF. -/
def fenceOf (i : Iss) (nof : Bool) (af sv : Nat) : Option FenceRef :=
  if nof then none else some { wk := i.k, adr := i.wk.ra af, val := i.wk.rs sv }
def fenceRefFlts : Option FenceRef → List Flt
  | some f => fenceFlts f.adr f.val
  | none => []

/-- A space that DMA accepts (R87). -/
def dmaSpace (a : DWord) : Bool :=
  match spaceOf a with
  | some .fence => false
  | some _ => true
  | none => false
def isFab (a : DWord) : Bool := spaceOf a == some .fab

/-- DMA at issue (R135, R168). -/
def xDma (i : Iss) (w : DWord) : SlotR :=
  let src := i.wk.ra (fld w 8 4)
  let dst := i.wk.ra (fld w 12 4)
  let q := fld w 32 4
  let fence := fenceOf i (tb w 44) (fld w 22 4) (fld w 26 6)
  if !isFab src && !isFab dst && (fld w 36 2 != 0 || fld w 38 6 != 0) then { flts := [⟨.illegal, 0⟩] }
  else
    { flts := fenceRefFlts fence ++ fltIf (!dmaSpace src) .badspace src
        ++ fltIf (!dmaSpace dst || (isFab src && isFab dst)) .badspace dst
      acts := [.dma q { pc := i.wk.pc, src := src, dst := dst, len := i.wk.rs (fld w 16 6), fence := fence
                        tc := match fld w 36 2 with | 0 => 2 | 1 => 1 | _ => 0
                        chip := i.wk.rs (fld w 38 6) }]
      stall := decide (32 ≤ (FMap.get [] i.wk.dma q).length) }

/-- TOKD at issue (R136, R172). -/
def xTokd (i : Iss) (w : DWord) : SlotR :=
  let fence := fenceOf i (tb w 40) (fld w 30 4) (fld w 34 6)
  { flts := fenceRefFlts fence
    acts := [.tok { pc := i.wk.pc, src := i.wk.ra (fld w 8 4), se := i.wk.rs (fld w 12 6)
                    key := (i.wk.rs (fld w 18 6)).extractLsb' 0 32, len := i.wk.rs (fld w 24 6), fence := fence
                    direct := tb w 41, ring := fld w 42 4 }]
    stall := decide (16 ≤ i.wk.tokd.length) }

/-! ### Register moves (R134, R143, R167) -/

/-- IMM32 sign-extended (R116). -/
def imm32 (w : DWord) : DWord := BitVec.ofInt 64 (sx 32 (fld w 32 32))

/-- MOVI. -/
def xMovi (_ : Iss) (w : DWord) : SlotR := { acts := [.s (fld w 8 6) (imm32 w)] }
/-- MOVHI. -/
def xMovhi (i : Iss) (w : DWord) : SlotR :=
  { acts := [.s (fld w 8 6) (BitVec.ofNat 64 (fld w 32 32 * 2 ^ 32 + (i.wk.rs (fld w 8 6)).toNat % 2 ^ 32))] }
/-- MOVSA. -/
def xMovsa (i : Iss) (w : DWord) : SlotR := { acts := [.a (fld w 8 4) (i.wk.rs (fld w 14 6))] }
/-- MOVAS. -/
def xMovas (i : Iss) (w : DWord) : SlotR := { acts := [.s (fld w 8 6) (i.wk.ra (fld w 14 4))] }
/-- MOVSW. -/
def xMovsw (i : Iss) (w : DWord) : SlotR := { acts := [.s (fld w 8 6) (i.s.statusWord i.d i.c i.k)] }
/-- VGETL. -/
def xVgetl (i : Iss) (w : DWord) : SlotR :=
  { acts := [.s (fld w 8 6) ((lane (i.wk.rv (fld w 14 5)) (fld w 32 8)).zeroExtend 64)], stall := i.wk.vecBusy (fld w 14 5) }
/-- VSETL. -/
def xVsetl (i : Iss) (w : DWord) : SlotR :=
  let v := i.wk.rv (fld w 8 5)
  { acts := [.v (fld w 8 5) (mkVec fun n => if n = fld w 32 8 then (i.wk.rs (fld w 14 6)).extractLsb' 0 32 else lane v n)]
    stall := i.wk.vecBusy (fld w 8 5) }
/-- VBCAST. -/
def xVbcast (i : Iss) (w : DWord) : SlotR :=
  { acts := [.v (fld w 8 5) (List.replicate 256 ((i.wk.rs (fld w 14 6)).extractLsb' 0 32))], stall := i.wk.vecBusy (fld w 8 5) }
/-- AADD. -/
def xAadd (i : Iss) (w : DWord) : SlotR :=
  { acts := [.a (fld w 8 4) (addOff (i.wk.ra (fld w 14 4)) ((i.wk.rs (fld w 20 6)).toNat : Int))] }
/-- AADDI. -/
def xAaddi (i : Iss) (w : DWord) : SlotR :=
  { acts := [.a (fld w 8 4) (addOff (i.wk.ra (fld w 14 4)) (sx 32 (fld w 32 32)))] }
/-- ASET. -/
def xAset (i : Iss) (w : DWord) : SlotR :=
  { acts := [.a (fld w 8 4) (BitVec.ofNat 64 (fld w 32 3 * 2 ^ 61 + offOf (i.wk.rs (fld w 14 6))))] }
/-- PFROMV. -/
def xPfromv (i : Iss) (w : DWord) : SlotR :=
  { acts := [.p (fld w 8 3) (mkPred fun n => lane (i.wk.rv (fld w 14 5)) n != 0)], stall := i.wk.vecBusy (fld w 14 5) }
/-- PTOV. -/
def xPtov (i : Iss) (w : DWord) : SlotR :=
  { acts := [.v (fld w 8 5) (mkVec fun n => if (i.wk.rp (fld w 14 3)).getLsbD n then 1 else 0)], stall := i.wk.vecBusy (fld w 8 5) }

/-- The X slot (R143). -/
def slotX (i : Iss) (w : DWord) : SlotR :=
  match opOf w with
  | 0x80 => xLd i w | 0x81 => xSt i w | 0x82 => xVld i w | 0x83 => xVst i w | 0x84 => xTld i w | 0x85 => xTst i w
  | 0x88 => xDma i w | 0x8C => xTokd i w
  | 0x90 => xMovi i w | 0x91 => xMovhi i w | 0x92 => xMovsa i w | 0x93 => xMovas i w | 0x94 => xMovsw i w
  | 0x95 => xVgetl i w | 0x96 => xVsetl i w | 0x97 => xVbcast i w | 0x98 => xAadd i w | 0x99 => xAaddi i w
  | 0x9A => xAset i w | 0x9B => xPfromv i w | 0x9C => xPtov i w
  | _ => {}

end Sys2Proof.Machine
end

