-- ==== Sys2Proof/Machine/Issue.lean ====
section
/-! DEFINITION. The C slot (R137 to R140, R173 to R180), the issue of a bundle (R79, R80, R121, R123, R147), and the
asynchronous events of a Wick: matrix execution, DMA completion, the end of a wait. -/

namespace Sys2Proof.Machine

/-! ### C slot: arithmetic and branches (R137, R138, R173) -/

/-- Source B of scalar arithmetic. -/
def cB (k : Wick) (w : DWord) : DWord := if tb w 26 then imm32 w else k.rs (fld w 20 6)

/-- A scalar instruction writes sSD. -/
def cBin (k : Wick) (w : DWord) (f : DWord → DWord → DWord) : List Act :=
  [.s (fld w 8 6) (f (k.rs (fld w 14 6)) (cB k w))]

def shamt (b : DWord) : Nat := b.toNat % 64

/-- ADD, SUB, MUL, AND, OR, XOR, SHL, SHR, SRA, SLT, SLTU (R144, R173). -/
def cAdd (k : Wick) (w : DWord) : List Act := cBin k w (· + ·)
def cSub (k : Wick) (w : DWord) : List Act := cBin k w (· - ·)
def cMul (k : Wick) (w : DWord) : List Act := cBin k w (· * ·)
def cAnd (k : Wick) (w : DWord) : List Act := cBin k w (· &&& ·)
def cOr (k : Wick) (w : DWord) : List Act := cBin k w (· ||| ·)
def cXor (k : Wick) (w : DWord) : List Act := cBin k w (· ^^^ ·)
def cShl (k : Wick) (w : DWord) : List Act := cBin k w fun a b => a <<< shamt b
def cShr (k : Wick) (w : DWord) : List Act := cBin k w fun a b => a >>> shamt b
def cSra (k : Wick) (w : DWord) : List Act := cBin k w fun a b => a.sshiftRight (shamt b)
def cSlt (k : Wick) (w : DWord) : List Act := cBin k w fun a b => if a.slt b then 1 else 0
def cSltu (k : Wick) (w : DWord) : List Act := cBin k w fun a b => if a.ult b then 1 else 0

/-- The address of the next bundle. -/
def nextPc (k : Wick) : DWord := k.pc + 32

/-- The registers a C-slot word writes without leaving the Wick. -/
def cActs (k : Wick) (w : DWord) : List Act :=
  match opOf w with
  | 0xC0 => cAdd k w | 0xC1 => cSub k w | 0xC2 => cMul k w | 0xC3 => cAnd k w | 0xC4 => cOr k w | 0xC5 => cXor k w
  | 0xC6 => cShl k w | 0xC7 => cShr k w | 0xC8 => cSra k w | 0xC9 => cSlt k w | 0xCA => cSltu k w
  | 0xD7 => [.s (fld w 8 6) (k.rs (fld w 8 6) - 1)]
  | 0xD9 => [.s (fld w 8 6) (nextPc k)]
  | _ => []

/-- The operands of a compare. -/
def cmpA (k : Wick) (w : DWord) : DWord := k.rs (fld w 8 6)
def cmpB (k : Wick) (w : DWord) : DWord := k.rs (fld w 14 6)

/-- Is a control transfer taken (R138, R173)? -/
def cTaken (k : Wick) (w : DWord) : Bool :=
  match opOf w with
  | 0xD0 | 0xD8 | 0xD9 => true
  | 0xD1 => cmpA k w == cmpB k w
  | 0xD2 => cmpA k w != cmpB k w
  | 0xD3 => (cmpA k w).slt (cmpB k w)
  | 0xD4 => !(cmpA k w).slt (cmpB k w)
  | 0xD5 => (cmpA k w).ult (cmpB k w)
  | 0xD6 => !(cmpA k w).ult (cmpB k w)
  | 0xD7 => k.rs (fld w 8 6) - 1 != 0
  | _ => false

/-- The target of a control transfer, an exact integer (R122). -/
def cTarget (k : Wick) (w : DWord) : Int :=
  if opOf w = 0xD8 then (k.rs (fld w 8 6)).toNat else (k.pc.toNat : Int) + 32 * sx 32 (fld w 32 32)

/-- Where the Wick goes on. -/
def cNext (k : Wick) (w : DWord) : DWord := if cTaken k w then BitVec.ofInt 64 (cTarget k w) else nextPc k

/-! ### C slot: faults -/

/-- The faults of a fence operation's address (R87, R88, R90). -/
def State.fopFlts (s : State) (d : Nat) (a : DWord) (q : Need) : List Flt :=
  match spaceOf a with
  | some .fab => [⟨.badspace, a⟩]
  | none => [⟨.badspace, a⟩]
  | some .fence => fltIf (offOf a % 8 != 0) .misalign a ++ fltIf (decide (spaceSize .fence < offOf a + 8)) .bounds a
  | some _ => s.accFlts d a 8 8 q

/-- The completion fence of COLL and UPD (R140, R615). -/
def launchFence (i : Iss) (w : DWord) : Option FenceRef := fenceOf i (tb w 28) (fld w 18 4) (fld w 22 6)

/-- The faults of the C slot (R95, R99, R122, R139, R179, R615). -/
def cFlts (i : Iss) (w : DWord) : List Flt :=
  let a := i.wk.ra (fld w 14 4)
  let v := i.wk.rs (fld w 18 6)
  match opOf w with
  | 0xD0 | 0xD1 | 0xD2 | 0xD3 | 0xD4 | 0xD5 | 0xD6 | 0xD7 | 0xD8 | 0xD9 =>
    let t := cTarget i.wk w
    if cTaken i.wk w then
      fltIf (t % 32 != 0) .misalign (BitVec.ofInt 64 t)
        ++ fltIf (decide (t < 0) || decide ((2 ^ 57 : Int) ≤ t)) .bounds (BitVec.ofInt 64 t)
    else []
  | 0xE0 => fltIf (tb v 63) .badfence a ++ i.s.fopFlts i.d a { w := true }
  | 0xE1 => fltIf (tb v 63) .badfence a ++ i.s.fopFlts i.d a { r := true }
  | 0xE2 =>
    fltIf (fld v 32 32 != 0 || fld v 25 5 != 0 || fld v 30 2 == 3) .badfence a
      ++ (if spaceOf a = some .fence then i.s.fopFlts i.d a {} else [⟨.badspace, a⟩])
  | 0xEC => fenceRefFlts (launchFence i w) ++ i.s.accFlts i.d a 64 64 { r := true }
  | 0xED => fenceRefFlts (launchFence i w) ++ i.s.accFlts i.d a 128 128 { r := true }
  | _ => []

/-! ### Performing a bundle -/

/-- One act on the state. -/
def State.act (s : State) (d c k : Nat) (a : Act) : State :=
  let wk := s.wickAt d c k
  match a with
  | .s r x => s.setWickAt d c k (wk.setS r x)
  | .a r x => s.setWickAt d c k (wk.setA r x)
  | .v r x => s.setWickAt d c k (wk.setV r x)
  | .t r x => s.setWickAt d c k (wk.setT r x)
  | .p r x => s.setWickAt d c k (wk.setP r x)
  | .store adr bs => s.wrSpace d c k adr bs
  | .mat op => s.setWickAt d c k { wk with mq := wk.mq ++ [op] }
  | .dma q x => s.setWickAt d c k { wk with dma := FMap.set [] wk.dma q (FMap.get [] wk.dma q ++ [x]) }
  | .tok _ => s

/-- Perform acts in order. -/
def State.acts (s : State) (d c k : Nat) (l : List Act) : State := l.foldl (fun t a => t.act d c k a) s

/-- The page of a DOMAIN store that must wait under R240, if any. -/
def State.heldStore (s : State) (d : Nat) (l : List Act) : Option Nat :=
  l.findSome? fun a => match a with
    | .store adr bs =>
      if spaceOf adr = some .dom then
        (cutPages (offOf adr) bs).findSome? fun p =>
          ((s.dom d).dpa p.1).bind fun dp => (epochStarts dp p.2.length).find? s.mustHold
      else none
    | _ => none

/-- A write waits for a re-key: MEM_CSTAT.HOLDW (R240). -/
def State.holdWrite (s : State) (dp : Nat) : State :=
  let p := ctlOf dp * 2 ^ 32 + pageOf dp
  { s with mem := { s.mem with waiting := if s.mem.waiting.contains p then s.mem.waiting else s.mem.waiting ++ [p] } }

/-- HALT ends when the Wick's transfers have (R180). -/
def Wick.settle (k : Wick) : Wick :=
  if k.run = .halting ∧ k.tokd.isEmpty = true ∧ k.dma.all (fun p => p.2.isEmpty) = true then { k with run := .halted } else k

/-- The 64 or 128 bytes a launch reads. -/
def launchWord (n : Nat) (bs : List Byte) : BitVec n := BitVec.ofNat n (leNat bs)

/-- FSIG (R174): at once, or after the matrix operations that are queued. -/
def State.doFsig (s : State) (i : Iss) (w : DWord) : State :=
  let a := i.wk.ra (fld w 14 4)
  let v := i.wk.rs (fld w 18 6)
  let k := s.wickAt i.d i.c i.k
  if k.mq.isEmpty then (s.fencePut i.d i.c i.k a (sigWord v)).1
  else s.setWickAt i.d i.c i.k { k with sigs := k.sigs ++ [{ adr := a, val := v, after := k.mq.length, pc := i.wk.pc }] }

/-- FOWN (R176). -/
def State.doFown (s : State) (i : Iss) (w : DWord) : State :=
  let n := offOf (i.wk.ra (fld w 14 4)) / 8
  s.modDom i.d fun m => { m with owners := FMap.set 0 m.owners n ((i.wk.rs (fld w 18 6)).extractLsb' 0 32) }

/-- The compute tile of a logical Wick's Lantern. -/
def State.tileOf (s : State) (d c k : Nat) : Nat :=
  match s.ctx? d c with
  | some x => match x.prog with
    | some p => p.lants.getD (k / 8) 0 / 16
    | none => 0
  | none => 0

/-- A DOMAIN address. -/
def domAdr (off : Nat) : DWord := BitVec.ofNat 64 (2 * 2 ^ 61 + off % 2 ^ 57)

/-- ALLOC (R177). -/
def State.doAlloc (s : State) (i : Iss) (w : DWord) : State :=
  let sv := i.wk.rs (fld w 22 6)
  match s.allocate i.d (s.tileOf i.d i.c i.k) (fld sv 0 60) (fld sv 60 4) (tb w 29) (tb w 30) (tb w 31) with
  | .ok (t, off) => t.acts i.d i.c i.k [.s (fld w 8 6) 0, .a (fld w 14 4) (domAdr off)]
  | .error e => s.acts i.d i.c i.k [.s (fld w 8 6) (BitVec.ofNat 64 e), .a (fld w 14 4) (domAdr 0)]

/-- FREE (R177). -/
def State.doFree (s : State) (i : Iss) (w : DWord) : State :=
  let r := s.freeAlloc i.d (i.wk.ra (fld w 14 4))
  r.1.acts i.d i.c i.k [.s (fld w 8 6) (BitVec.ofNat 64 r.2)]

/-- The Wick's pc and what it does next. -/
def State.setRun (s : State) (i : Iss) (pc : DWord) (r : WickRun) : State :=
  let k := s.wickAt i.d i.c i.k
  s.setWickAt i.d i.c i.k { k with pc := pc, run := r }

/-- What the C slot does beyond the Wick's registers, after the other slots are performed (R121). -/
def State.doC (s : State) (i : Iss) (w : DWord) : State :=
  let a := i.wk.ra (fld w 14 4)
  match opOf w with
  | 0xE0 => s.doFsig i w
  | 0xE2 => s.doFown i w
  | 0xE8 => s.doAlloc i w
  | 0xE9 => s.doFree i w
  | 0xEA => s.setRun i i.wk.pc (.atStep (fld w 8 6) s.beacon (s.dom i.d).timeoutUs)
  | 0xEC => s.launchColl i.d i.c i.k i.wk.pc (launchWord 512 (s.rdSpace i.d i.c i.k a 64)) (launchFence i w)
  | 0xED => s.launchUpd i.d i.c i.k i.wk.pc (launchWord 1024 (s.rdSpace i.d i.c i.k a 128)) (launchFence i w)
  | 0xFE =>
    let t := s.setRun i i.wk.pc .halting
    t.setWickAt i.d i.c i.k (t.wickAt i.d i.c i.k).settle
  | _ => s

/-- A COLL or UPD that cannot be accepted holds its whole bundle (R121, R305). -/
def State.cHeld (s : State) (i : Iss) (w : DWord) : Bool :=
  let a := i.wk.ra (fld w 14 4)
  match opOf w with
  | 0xEC => s.commFull i.d ((launchWord 512 (s.rdSpace i.d i.c i.k a 64)).toNat / 2 ^ 16 % 2 ^ 16)
  | 0xED => s.updHeld i.d (launchWord 1024 (s.rdSpace i.d i.c i.k a 128))
  | _ => false

/-- The result code that an ended FWAIT writes. -/
def waitActs (w : DWord) (code : Option Nat) : List Act :=
  match code with
  | some n => [.s (fld w 8 6) (BitVec.ofNat 64 n)]
  | none => []

/-- The tokens a bundle dispatches. -/
def actToks (l : List Act) : List TokRec := l.filterMap fun a => match a with | .tok t => some t | _ => none

/-- A V-slot word touches a vector register of a queued attention block (R79, R152). -/
def vStall (k : Wick) (w : DWord) : Bool := (usesV w).any k.vecBusy

/-- The tag is live and not aborted. -/
def State.liveCtx (s : State) (d c : Nat) : Bool :=
  match s.ctx? d c with
  | some x => x.status == .live
  | none => false

/-- Perform a legal bundle: its faults in the order of R123, its waits (R147), and its effects from the registers before it
(R79). `code` is the result of its FWAIT, if it holds one, and `late` the FTIMEOUT of R97. -/
def State.perform (s : State) (w : WickRef) (b : Bundle) (code : Option Nat) (late : Bool) : State :=
  let k := s.wickAt w.d w.c w.key
  let i : Iss := ⟨s, w.d, w.c, w.key, k⟩
  let rm := slotM k b.m
  let rv := slotV k b.v
  let rx := slotX i b.x
  if rm.stall || rv.stall || rx.stall || vStall k b.v then s
  else
    let fc := cFlts i b.c ++ fltIf late .ftimeout
    match [rm.flts, rv.flts, rx.flts, fc].findSome? firstFlt with
    | some f => s.ctxFault w.d w.c w.key f.code k.pc f.adr
    | none =>
      let l := rm.acts ++ rv.acts ++ rx.acts
      match s.heldStore w.d l with
      | some dp => s.holdWrite dp
      | none =>
        let s1 := s.acts w.d w.c w.key (l ++ cActs k b.c ++ waitActs b.c code)
        if s1.cHeld i b.c then s
        else
          let s2 := (actToks l).foldl (fun t x => t.dispatchTok w x) (s1.setRun i (cNext k b.c) .running)
          if s2.liveCtx w.d w.c then s2.doC i b.c else s2

/-! ### Issue -/

/-- A logical Wick may issue: the device runs, its context is live and resident, it is not waiting, and its turn of a folded
pair is on (R108). -/
def State.runnable (s : State) (w : WickRef) : Bool :=
  s.dev.st == .run && (match s.ctx? w.d w.c with
    | none => false
    | some x => x.status == .live && !x.retire && (x.wick w.key).run == .running && (match x.prog with
      | some p => p.resident && decide (w.llant.toNat < p.lants.length)
          && !(s.lantern (p.lants.getD w.llant.toNat 0)).off.getLsbD w.lwick.toNat
      | none => false))

/-- The faults of fetching the bundle at a program counter (R85, R90, R243). -/
def State.fetchFlts (s : State) (d : Nat) (pc : DWord) : List Flt :=
  if 2 ^ 57 < pc.toNat + 32 then [⟨.bounds, pc⟩]
  else
    (s.dom d).mapFlts pc pc.toNat 32 { x := true }
      ++ (match s.poisonAt d pc.toNat 32 with | some a => [⟨.poison, BitVec.ofNat 64 a⟩] | none => [])

/-- An FWAIT's outcome now: code 0 or 1 when satisfied (R96). -/
def State.waitCode (s : State) (d c k : Nat) (adr val : DWord) : Option Nat :=
  let w := s.fenceGet d c k adr
  if val.toNat ≤ w.toNat then some (if tb w 63 then 1 else 0) else none

/-- The ranges that a bundle's loads read (R90, R95, R165, R179). -/
def loadsOf (i : Iss) (b : Bundle) : List (DWord × Nat) :=
  let x := b.x
  (match opOf x with
    | 0x80 => [(xmAdr i x, 2 ^ fld x 36 2)]
    | 0x82 => (match vecFmt x with
      | some f => (xmAdr i x, vecBytes f) :: (if f.isMX then [(scaleAdr i f x, 8)] else [])
      | none => [])
    | 0x84 => (List.range 64).map fun r => (tileRow i x r, 256)
    | _ => [])
  ++ (match opOf b.c with
    | 0xE1 => [(i.wk.ra (fld b.c 14 4), 8)]
    | 0xEC => [(i.wk.ra (fld b.c 14 4), 64)]
    | 0xED => [(i.wk.ra (fld b.c 14 4), 128)]
    | _ => [])

/-- The bundle's own lines and those that its loads touch are read (R85, R230): no instruction cache is held, so every fetch reads its
line (log 61). -/
def State.readFor (s : State) (w : WickRef) (b : Bundle) : State :=
  let k := s.wickAt w.d w.c w.key
  let s := s.reads w.d k.pc.toNat 32 { x := true }
  if legalBundle b then s.readAll w.d (loadsOf ⟨s, w.d, w.c, w.key, k⟩ b) { r := true } else s

/-- Issue a bundle at the program counter of a Wick, its lines read. -/
def State.issueRead (s : State) (w : WickRef) (b : Bundle) : State :=
  if !s.runnable w then s
  else
    let k := s.wickAt w.d w.c w.key
    match firstFlt (s.fetchFlts w.d k.pc) with
    | some f => s.ctxFault w.d w.c w.key f.code k.pc f.adr
    | none =>
      if !legalBundle b then s.ctxFault w.d w.c w.key .illegal k.pc 0
      else if opOf b.c = 0xE1 then
        let i : Iss := ⟨s, w.d, w.c, w.key, k⟩
        let a := k.ra (fld b.c 14 4)
        let v := k.rs (fld b.c 18 6)
        if !(cFlts i b.c).isEmpty then s.perform w b none false
        else match s.waitCode w.d w.c w.key a v with
          | some n => s.perform w b (some n) false
          | none =>
            let us := fld (k.rs (fld b.c 24 6)) 0 32
            let r : WaitRec :=
              { b := b, adr := a, val := v, since := s.beacon
                timeoutUs := if us = 0 then (s.dom w.d).timeoutUs else us, flt := tb b.c 30, sd := fld b.c 8 6 }
            s.setWickAt w.d w.c w.key { k with run := .waiting r }
      else s.perform w b none false

/-- Issue a bundle at the program counter of a Wick. -/
def State.issue (s : State) (w : WickRef) (b : Bundle) : State :=
  if s.runnable w then (s.readFor w b).issueRead w b else s

/-- Force an opcode into a slot. -/
def Bundle.opM (b : Bundle) (op : Nat) : Bundle := { b with m := withOp b.m op }
def Bundle.opV (b : Bundle) (op : Nat) : Bundle := { b with v := withOp b.v op }
def Bundle.opX (b : Bundle) (op : Nat) : Bundle := { b with x := withOp b.x op }
def Bundle.opC (b : Bundle) (op : Nat) : Bundle := { b with c := withOp b.c op }

/-- What the memory meets in a scalar access (R242, R243, R249); only a mapped DOMAIN access of a Wick that may issue reaches it. -/
def State.scalarLine (s : State) (w : WickRef) (b : Bundle) (ev : MemEv) : State :=
  if !s.runnable w || !legalBundle b then s
  else
    let k := s.wickAt w.d w.c w.key
    let i : Iss := ⟨s, w.d, w.c, w.key, k⟩
    let a := xmAdr i b.x
    if spaceOf a = some .dom then
      match (s.dom w.d).dpa (offOf a) with
      | some dp => s.memEvent w.d (s.tileOf w.d w.c w.key) dp ev
      | none => s
    else s

/-! ### Waits (R96 to R98, R105) -/

/-- A waiting Wick whose word is satisfied, or whose time is up, ends its FWAIT. Its context must be resident, and its turn
on. -/
def State.endWait (s : State) (w : WickRef) (timeout : Bool) : State :=
  match s.ctx? w.d w.c with
  | none => s
  | some x =>
    let k := x.wick w.key
    let on := s.dev.st == .run && x.status == .live && (match x.prog with
      | some p => p.resident && !(s.lantern (p.lants.getD w.llant.toNat 0)).off.getLsbD w.lwick.toNat
      | none => false)
    match k.run with
    | .waiting r =>
      if !on then s
      else
        let s := s.readAll w.d [(r.adr, 8)] { r := true }
        if !s.liveCtx w.d w.c then s
        else match s.waitCode w.d w.c w.key r.adr r.val with
        | some n => s.perform w r.b (some n) false
        | none => if timeout && decide (r.since + r.timeoutUs * 1000 ≤ s.beacon) then s.perform w r.b (some 2) r.flt else s
    | _ => s

/-- Every logical Wick of every context. -/
def State.allWicks (s : State) : List WickRef :=
  (s.doms.map fun p => (p.2.ctxs.map fun c => c.2.wicks.map fun k =>
    ({ dom := BitVec.ofNat 8 p.1, ctx := BitVec.ofNat 16 c.1, llant := BitVec.ofNat 6 (k.1 / 8)
       lwick := BitVec.ofNat 3 (k.1 % 8) } : WickRef)).flatten).flatten

/-! ### Matrix execution (R148, R152, R174) -/

/-- The reader of a queued operation: LOCAL and LANTERN bytes. -/
def State.matRd (s : State) (d c k : Nat) : Rd := fun a n =>
  match spaceOf a with
  | some .loc => Memory.rd (s.lmemOf d c k false) (offOf a + n)
  | some .lant => Memory.rd (s.lmemOf d c k true) (offOf a + n)
  | _ => 0

/-- The FSIGs that waited only for an operation now done, and those that still wait (R174). -/
def sigsAfter (l : List PendSig) : List PendSig × List PendSig :=
  let l := l.map fun p => { p with after := p.after - 1 }
  (l.filter fun p => p.after == 0, l.filter fun p => p.after != 0)

/-- Updates of a Wick that wait for its matrix operations wait for one less (R174, R195). -/
def State.updsRead (s : State) (d c k : Nat) : State :=
  { s with eng := { s.eng with upds := s.eng.upds.map fun u =>
    if u.dom = d ∧ u.ctx = c ∧ u.wk = k then { u with after := u.after - 1 } else u } }

/-- The head of the matrix queue executes, or faults with POISON where `bad` (R80, R152). -/
def State.matrixStep (s : State) (d c k : Nat) (bad : Bool) : State :=
  let wk := s.wickAt d c k
  match wk.mq with
  | [] => s
  | op :: rest =>
    if bad then s.asyncFault d c k .poison op.pc (op.adr.getD 0 0)
    else
      let done := sigsAfter wk.sigs
      let wk' := matExec (s.matRd d c k) op { wk with mq := rest, sigs := done.2 }
      done.1.foldl (fun t p =>
        match t.fencePut d c k p.adr (sigWord p.val) with
        | (u, none) => u
        | (u, some e) => u.asyncFault d c k e p.pc p.adr) ((s.setWickAt d c k wk').updsRead d c k)

/-! ### DMA (R84, R92, R168 to R171) -/

/-- Bytes of the packets a FABRIC transfer is cut into: at most 4 KiB each (R271). -/
def pieces : Nat → Nat → Nat → List (Nat × Nat)
  | 0, _, _ => []
  | f + 1, o, n => if n = 0 then [] else (o, min n 4096) :: pieces f (o + min n 4096) (n - min n 4096)

/-- The asynchronous faults of a descriptor (R84, R92, R169, R170, R285), in the order of R123. A zero-length descriptor moves
nothing: neither the alignment and bounds of its addresses nor their mapping is checked, and its chip is not looked at (DESIGN
CHOICE, log 56: R169 gives it its fence and no check but that of the length's high half). -/
def State.dmaFlts (s : State) (d : Nat) (x : DmaDesc) : List Flt :=
  let n := fld x.len 0 32
  let fab := isFab x.src || isFab x.dst
  let badChip := decide (2 ^ 13 ≤ x.chip.toNat)
  let self := x.chip.toNat == s.fab.chip
  let sp (a : DWord) : Option Space := if isFab a && self then some .dom else spaceOf a
  let same := sp x.src == sp x.dst && (!fab || self)
  let side (a : DWord) (q : Need) : List Flt :=
    if isFab a then
      fltIf (offOf a % 64 != 0) .misalign a ++ fltIf (decide (2 ^ 57 < offOf a + n)) .bounds a
    else s.accFlts d a 64 n q
  if n = 0 then fltIf (fld x.len 32 32 != 0) .bounds x.src
  else
    side x.src { r := true } ++ side x.dst { w := true }
      ++ fltIf (n % 64 != 0) .misalign x.src
      ++ fltIf (fld x.len 32 32 != 0 || (same && overlaps (offOf x.src) n (offOf x.dst) n)) .bounds x.src
      ++ (if fab then fltIf badChip .bounds x.chip ++ fltIf (!badChip && !s.bound d x.chip.toNat) .perm x.chip else [])

/-- Change the descriptor at the head of a queue. -/
def State.modHead (s : State) (d c k q : Nat) (f : DmaDesc → DmaDesc) : State :=
  let wk := s.wickAt d c k
  match FMap.get [] wk.dma q with
  | x :: l => s.setWickAt d c k { wk with dma := FMap.set [] wk.dma q (f x :: l) }
  | [] => s

/-- The head of a queue is done: its fence is signalled (R84, R168). -/
def State.dmaDone (s : State) (d c k q : Nat) (x : DmaDesc) : State :=
  let wk := s.wickAt d c k
  let wk := { wk with dma := FMap.set [] wk.dma q ((FMap.get [] wk.dma q).drop 1) }
  (s.setWickAt d c k wk.settle).signalFence d c x.fence x.pc

/-- The pieces of a transfer that are still to move: from its position on, 4 KiB each and the last what is left. -/
def DmaDesc.rest (x : DmaDesc) : List (Nat × Nat) :=
  pieces (fld x.len 0 32 / 4096 + 1) x.pos (fld x.len 0 32 - x.pos)

/-- Send packets of a FABRIC transfer: WRITEs, or READ_REQs for a FABRIC source, which carry the class that the transfer selects
(R92, R135, R171, R271; how, log 57). -/
def State.dmaPieces (s : State) (d c k q : Nat) (x : DmaDesc) (ps : List (Nat × Nat)) : State :=
  let chip := x.chip.toNat
  ps.foldl (fun t p =>
    if isFab x.dst then
      t.sendHeld { t.pktTo d chip with
        tc := BitVec.ofNat 2 x.tc, ptype := 1, bytes := BitVec.ofNat 32 p.2, adr := domAdr (offOf x.dst + p.1)
        data := t.rdSpace d c k (movAdr x.src p.1) p.2 } (.dma d c k q)
    else
      t.sendHeld { t.pktTo d chip with
        tc := 3, ptype := 2, bytes := BitVec.ofNat 32 p.2, adr := domAdr (offOf x.src + p.1)
        aux := movAdr x.dst p.1, rtc := BitVec.ofNat 2 x.tc } (.readReq d c k q)) s

/-- Send all that is left of a FABRIC transfer. -/
def State.dmaSend (s : State) (d c k q : Nat) (x : DmaDesc) : State :=
  (s.dmaPieces d c k q x x.rest).modHead d c k q fun y => { y with sent := true, left := y.left + x.rest.length }

/-- What a transfer's DOMAIN source meets in memory before its bytes move (R230, R242): `ev` at its first line, and the damage of all. -/
def State.dmaReads (s : State) (d c k : Nat) (t : DmaDesc) (ev : MemEv) : State :=
  if spaceOf t.src = some .dom ∧ 0 < fld t.len 0 32 then
    let s := match (s.dom d).dpa (offOf t.src) with
      | some dp => s.memEvent d (s.tileOf d c k) dp { ev with cycles := 0 }
      | none => s
    s.reads d (offOf t.src + t.pos) (fld t.len 0 32 - t.pos) { r := true }
  else s

/-- The transfer at the head of a queue runs, or completes (R168). `ev` is what its DOMAIN source meets. -/
def State.dmaStep (s : State) (w : WickRef) (q : Nat) (ev : MemEv) : State :=
  let d := w.d
  let c := w.c
  let k := w.key
  match s.ctx? d c with
  | none => s
  | some x =>
    let resident := s.dev.st == .run && x.status == .live && (match x.prog with | some p => p.resident | none => false)
    match FMap.get [] (x.wick k).dma q with
    | [] => s
    | t :: _ =>
      if !resident then s
      else if t.sent then
        (match t.failed with
         | some e => s.asyncFault d c k e t.pc t.src
         | none => if t.left = 0 then s.dmaDone d c k q t else s)
      else
        let s := s.dmaReads d c k t ev
        if !s.liveCtx d c then s
        else match firstFlt (s.dmaFlts d t) with
        | some f => s.asyncFault d c k f.code t.pc f.adr
        | none =>
          let n := fld t.len 0 32
          if n = 0 then s.dmaDone d c k q t
          else if isFab t.src || isFab t.dst then s.dmaSend d c k q t
          else
            let bs := s.rdSpace d c k (movAdr t.src t.pos) (n - t.pos)
            match s.heldStore d [.store (movAdr t.dst t.pos) bs] with
            | some dp => s.holdWrite dp
            | none => (s.wrSpace d c k (movAdr t.dst t.pos) bs).dmaDone d c k q t

/-- A queue pauses at a 4 KiB boundary (R103 step 3): how many of the pieces before the last its head transfer has moved is a free
value. A FABRIC transfer's pieces are then in the fabric, and its rest waits in the queue. -/
def State.dmaPause (s : State) (d c k q : Nat) : State :=
  match FMap.get [] (s.wickAt d c k).dma q with
  | [] => s
  | x :: _ =>
    if x.sent || x.rest.isEmpty || !(s.dmaFlts d x).isEmpty then s
    else
      let j := s.rnd.toNat % x.rest.length
      let s := s.drew 1
      if isFab x.src || isFab x.dst then
        (s.dmaPieces d c k q x (x.rest.take j)).modHead d c k q fun y => { y with pos := x.pos + 4096 * j, left := y.left + j }
      else
        let bs := s.rdSpace d c k (movAdr x.src x.pos) (4096 * j)
        match s.heldStore d [.store (movAdr x.dst x.pos) bs] with
        | some _ => s
        | none => (s.wrSpace d c k (movAdr x.dst x.pos) bs).modHead d c k q fun y => { y with pos := x.pos + 4096 * j }

end Sys2Proof.Machine
end

