-- ==== Sys2Proof/Machine/Image.lean ====
section
/-! DEFINITION. Save images and switch areas (R102, R103, R108, R110): what a Lantern's state is in HBM while its context, or a
folded logical Wick, is not running. The layout inside the image's header, the Wicks' slots and the queue area is the model's (DESIGN
CHOICE, log 55). -/

namespace Sys2Proof.Machine

/-! ### Frames that a place consists of (R102, R108, R222) -/

/-- Replace the `n` bytes at a DPA, which lie in one frame, by the cells of `m` from offset `from_` on; unlisted cells are zero. -/
def State.putDpa (s : State) (d dpa n : Nat) (m : Memory) (from_ : Nat) : State :=
  let keep := s.mem.data.filter fun p => !(decide (dpa ≤ p.1) && decide (p.1 < dpa + n))
  let cells := m.filter fun p => decide (from_ ≤ p.1) && decide (p.1 < from_ + n)
  ({ s with mem := { s.mem with
    data := cells.foldl (fun (t : Memory) p => Memory.wr t (dpa + (p.1 - from_)) p.2) keep
    bad := s.mem.bad.filter fun p => !(decide (dpa ≤ 256 * p.1) && decide (256 * p.1 + 256 ≤ dpa + n)) } } : State).touchDpa d dpa n

/-- Write `n` bytes at offset `off` of the run that HBM frames form in order. -/
def State.putFrames (s : State) (d : Nat) (frames : List Nat) (off n : Nat) (m : Memory) : State :=
  (List.range frames.length).foldl (fun t i =>
    let lo := max off (i * 2 ^ 21)
    let hi := min (off + n) ((i + 1) * 2 ^ 21)
    if lo < hi then t.putDpa d (frames.getD i 0 + (lo - i * 2 ^ 21)) (hi - lo) m (lo - off) else t) s

/-- The bytes of such a run. -/
def State.getFrames (s : State) (frames : List Nat) (off n : Nat) : List Byte :=
  (List.range n).map fun j => Memory.rd s.mem.data (frames.getD ((off + j) / 2 ^ 21) 0 + (off + j) % 2 ^ 21)

/-- A line of it is poisoned. -/
def State.badFrames (s : State) (frames : List Nat) (off n : Nat) : Bool :=
  (List.range ((off + n - 1) / 256 - off / 256 + 1)).any fun i =>
    let o := (off / 256 + i) * 256
    FMap.get false s.mem.bad ((frames.getD (o / 2 ^ 21) 0 + o % 2 ^ 21) / 256)

/-! ### Images (R75, R102) -/

/-- What a logical Wick was doing when its state was saved. -/
def WickRun.bytes : WickRun → List Byte
  | .idle => [0]
  | .running => [1]
  | .waiting r => [2] ++ leBytes 7 r.sd ++ leBytes 8 r.adr.toNat ++ leBytes 8 r.val.toNat ++ leBytes 8 r.since
      ++ leBytes 8 r.timeoutUs ++ leBytes 8 (if r.flt then 1 else 0)
      ++ leBytes 8 r.b.m.toNat ++ leBytes 8 r.b.v.toNat ++ leBytes 8 r.b.x.toNat ++ leBytes 8 r.b.c.toNat
  | .atStep sd since us => [3] ++ leBytes 7 sd ++ leBytes 8 since ++ leBytes 8 us
  | .halting => [4]
  | .halted => [5]

/-- The architectural state of a logical Wick at offset `o` (R75), in the order of its table, and after it what the Wick was
doing. -/
def archCells (k : Wick) (sw : DWord) (o : Nat) (m : Memory) : Memory :=
  let m := k.s.foldl (fun t p => Memory.wrN t (o + 8 * p.1) (leBytes 8 p.2.toNat)) m
  let m := k.a.foldl (fun t p => Memory.wrN t (o + 512 + 8 * p.1) (leBytes 8 p.2.toNat)) m
  let m := k.v.foldl (fun t p => Memory.wrN t (o + 640 + 1024 * p.1) (ofWords p.2)) m
  let m := k.t.foldl (fun t p => Memory.wrN t (o + 33408 + 16384 * p.1) (ofWords p.2)) m
  let m := k.p.foldl (fun t p => Memory.wrN t (o + 164480 + 32 * p.1) (leBytes 32 p.2.toNat)) m
  Memory.wrN m (o + 164736) (leBytes 8 sw.toNat ++ leBytes 8 k.pc.toNat ++ k.run.bytes)

/-- The cells of a memory, moved to offset `o`. -/
def movedCells (o : Nat) (l m : Memory) : Memory := l.foldl (fun t p => Memory.wr t (o + p.1) p.2) m

/-- A descriptor as it lies in the image's queue area. -/
def DmaDesc.bytes (x : DmaDesc) (wick q : Nat) : List Byte :=
  leBytes 1 wick ++ leBytes 1 q ++ leBytes 1 x.tc ++ leBytes 1 (if x.sent then 1 else 0) ++ leBytes 4 x.left ++ leBytes 8 x.pc.toNat
    ++ leBytes 8 x.src.toNat ++ leBytes 8 x.dst.toNat ++ leBytes 8 x.len.toNat ++ leBytes 8 x.chip.toNat ++ leBytes 8 x.pos
    ++ (match x.fence with
        | some f => leBytes 8 1 ++ leBytes 8 f.adr.toNat ++ leBytes 8 f.val.toNat
        | none => leBytes 24 0)

/-- Bytes of an image, and where its parts begin (R102). -/
def imageLen : Nat := 0xB91000

/-- The image of logical Lantern `n` of a context, but for its header. -/
def State.saveBody (s : State) (d c n : Nat) (x : Ctx) : Memory :=
  let m := (List.range 8).foldl (fun t j =>
    let k := x.wick (8 * n + j)
    movedCells (0x181000 + 0xC0000 * j) k.lmem (archCells k (s.statusWord d c (8 * n + j)) (0x1000 + 0x30000 * j) t)) []
  let m := movedCells 0x781000 (FMap.get [] x.lmem n) m
  let ds := ((List.range 8).map fun j => ((x.wick (8 * n + j)).dma.map fun p => p.2.map fun y => y.bytes j p.1).flatten).flatten
  Memory.wrN m 0xB81000 ((ds.flatten).take 0x10000)

/-- The 4 KiB header: domain, context tag, logical Lantern, fold map, Beacon time of the save, descriptors in each queue of each
Wick, and the digest of the rest. -/
def imageHeader (d c n now : Nat) (map : List Nat) (x : Ctx) (digest : List Byte) : List Byte :=
  leBytes 1 d ++ leBytes 1 n ++ leBytes 2 c ++ leBytes 4 0 ++ map.map (fun p => BitVec.ofNat 8 p) ++ leBytes 8 now ++ leBytes 8 0
    ++ digest ++ leBytes 48 0
    ++ ((List.range 8).map fun j => (List.range 16).map fun q =>
        (BitVec.ofNat 8 (FMap.get [] (x.wick (8 * n + j)).dma q).length : Byte)).flatten

/-- Save logical Lantern `n` of a context in its slot (R102, R103 step 4). -/
def State.saveImage (s : State) (d c : Nat) (x : Ctx) (p : Prog) (n : Nat) : State :=
  let body := s.saveBody d c n x
  let digest := sha384 (Memory.rdN body 0x1000 (imageLen - 0x1000))
  s.putFrames d ((p.slots.getD n []).take 6) 0 imageLen
    (Memory.wrN body 0 (imageHeader d c n s.beacon (s.lantern (p.lants.getD n 0)).map x digest))

/-- A saved image matches its digest, and none of its lines is poisoned (R103 step 6, R243). -/
def State.imageOk (s : State) (p : Prog) (n : Nat) : Bool :=
  let f := (p.slots.getD n []).take 6
  !s.badFrames f 0 imageLen && s.getFrames f 0x20 48 == sha384 (s.getFrames f 0x1000 (imageLen - 0x1000))

/-! ### Folding (R106, R108) -/

/-- Logical Wicks that run folded: those whose host runs two. -/
def Lantern.folded (x : Lantern) (j : Nat) : Bool :=
  ((List.range 8).filter fun i => x.map.getD i i == x.map.getD j j).length == 2

/-- HBM frames that a context's place on a Lantern costs: 12 MiB of save slot, 1 MiB for each folded logical Wick (R102,
R108). -/
def Lantern.slotFrames (x : Lantern) : Nat := 6 + (((List.range 8).filter x.folded).length + 1) / 2

/-- The switch area of a folded logical Wick: its place among the Lantern's folded ones. -/
def Lantern.areaOf (x : Lantern) (j : Nat) : Nat := ((List.range j).filter x.folded).length

/-- A folded logical Wick's architectural state and LOCAL contents, 929 KiB, go to its switch area (R108, R110). -/
def State.saveArea (s : State) (d c : Nat) (p : Prog) (n j : Nat) : State :=
  let k := s.wickAt d c (8 * n + j)
  s.putFrames d ((p.slots.getD n []).drop 6) ((s.lantern (p.lants.getD n 0)).areaOf j * 2 ^ 20) (929 * 1024)
    (movedCells 0x28400 k.lmem (archCells k (s.statusWord d c (8 * n + j)) 0 []))

end Sys2Proof.Machine
end

