-- ==== Sys2Proof/Machine/Ckpt.lean ====
section
/-! DEFINITION. The checkpoint cut (R516 to R527): the image, freezing and copying, the coordinator, and what the
messages of R520 do. -/

namespace Sys2Proof.Machine

/-! ### Keys (R380, R426, R526, R527) -/

/-- The key of a slot: its two shares combined (R383). -/
def KeySlot.key (k : KeySlot) : List Byte := List.zipWith (· ^^^ ·) k.a k.m

/-- The policy's MODEL_SLOT, SESSION_ID and digest (R417). -/
def polByte (p : List Byte) (o : Nat) : Nat := (p.getD o 0).toNat
def modelSlot (p : List Byte) : Nat := polByte p 12

/-- The model key, once the session is ACTIVE or FINISHED (R426). -/
def State.modelKey (s : State) (d : Nat) : Option (List Byte) :=
  let x := s.sec.dom d
  match x.policy with
  | some p => if x.joint = .active ∨ x.joint = .finished then (FMap.find? x.slots (modelSlot p)).map KeySlot.key else none
  | none => none

/-- The job checkpoint key (R426). -/
def State.ckptKey (s : State) (d : Nat) : Option (List Byte) :=
  (s.modelKey d).map fun k => hkdfExpand k (ascii "Siloft checkpoint") 32

/-! ### The image (R514, R526, R527) -/

def up4k (n : Nat) : Nat := (n + 4095) / 4096 * 4096

/-- Bytes of a section. -/
def State.sectLen (s : State) (d : Nat) (x : CkSect) : Nat :=
  if x.kind = 6 then (FMap.get {} s.fab.segs d).len * 4096 else x.len

/-- The image's length (R514). -/
def State.imageLen (s : State) (d : Nat) : Nat := 8192 + sumBy (fun x => up4k (s.sectLen d x)) (s.ck d).sects

/-- The bank in force of a domain's segment. -/
def State.ehtBytes (s : State) (d : Nat) : List Byte :=
  ((List.range ((FMap.get {} s.fab.segs d).len * 256)).map fun e => leBytes 16 (s.ehtEntry d e).toNat).flatten

/-- The cursor bytes latched at the boundary: CURSOR sections in descriptor order (R516). -/
def State.latchCursor (s₀ : State) (d : Nat) : State :=
  let l := (s₀.ck d).sects.filter fun x => x.kind == 5
  let s := s₀.readAll d (l.map fun x => (x.sadr, x.len))
  s.modCk d fun k => { k with
    latch := (l.map fun x => s.rdDom d (offOf x.sadr) x.len).flatten
    latchBad := l.any fun x => (s.poisonAt d (offOf x.sadr) x.len).isSome }

/-- Where a CURSOR section's bytes start in the latch. -/
def cursorAt (l : List CkSect) (i : Nat) : Nat := sumBy CkSect.len ((l.take i).filter fun x => x.kind == 5)

/-- A section's plaintext. -/
def State.sectBytes (s : State) (d i : Nat) (x : CkSect) : List Byte :=
  let k := s.ck d
  match x.kind with
  | 4 => Memory.rdN (s.lmemOf d k.ctx (x.llant * 8) true) (offOf x.sadr) x.len
  | 5 => (k.latch.drop (cursorAt k.sects i)).take x.len
  | 6 => s.ehtBytes d
  | _ => s.rdDom d (offOf x.sadr) x.len

def padTo (n : Nat) (l : List Byte) : List Byte := l ++ List.replicate (n - l.length) 0

/-- The body: the section table, then each section, padded to 4 KiB. -/
def State.imageBody (s : State) (d : Nat) : List Byte :=
  let l := (s.ck d).sects
  let lens := l.map fun x => up4k (s.sectLen d x)
  let table := ((List.range l.length).map fun i =>
    match l[i]? with
    | some x => leBytes 1 x.kind ++ leBytes 1 x.llant ++ leBytes 6 0 ++ leBytes 8 (s.sectLen d x) ++ leBytes 8 x.sadr.toNat
        ++ leBytes 8 (4096 + sumBy id (lens.take i))
    | none => []).flatten
  padTo 4096 table ++ ((List.range l.length).map fun i =>
    match l[i]? with
    | some x => padTo (up4k (s.sectLen d x)) (s.sectBytes d i x)
    | none => []).flatten

/-- A section holds poison; a CURSOR section, when its bytes were latched (R243). -/
def State.sectPoison (s : State) (d : Nat) (x : CkSect) : Bool :=
  (x.kind == 5 && (s.ck d).latchBad) || (x.kind != 4 && x.kind != 5 && x.kind != 6) && ((s.poisonAt d (offOf x.sadr) x.len).isSome
    || !(s.dom d).mapOk (offOf x.sadr) x.len { r := true, k := false })

/-- The 256-byte label of R526. -/
def State.label (s : State) (d : Nat) (iv civ : List Byte) (body : List Byte) (t e : DWord) : List Byte :=
  let k := s.ck d
  let pol := (s.sec.dom d).policy.getD []
  let tag := match (s.dom d).binding with | some b => b.tag | none => 0
  ascii "SCKP" ++ leBytes 2 0x100 ++ leBytes 2 0 ++ leBytes 8 e.toNat ++ leBytes 8 t.toNat ++ leBytes 8 tag.toNat
    ++ leBytes 2 s.fab.chip ++ leBytes 1 d ++ leBytes 1 k.sects.length ++ iv ++ civ ++ leBytes 4 0
    ++ (pol.drop 16).take 16 ++ sha384 pol ++ sha384 body ++ leBytes 8 body.length ++ leBytes 8 s.beacon
    ++ leBytes 8 (s.dom d).jobSeed.toNat ++ List.replicate 56 0

def labelKey (key : List Byte) : List Byte := hkdfExpand key (ascii "Siloft ckpt label") 32
/-- The body's XTS key pair for an epoch and chip (R527). -/
def bodyKey (key : List Byte) (e : DWord) (chip : Nat) : List Byte :=
  hkdfExpand key (ascii "Siloft ckpt body" ++ leBytes 8 e.toNat ++ leBytes 2 chip) 64

/-- The data units of a body with their indices. -/
def units (l : List Byte) : List (Nat × List Byte) :=
  (List.range (l.length / 4096)).map fun i => (i, (l.drop (4096 * i)).take 4096)

/-- One packet of the image, at an offset of the partner's region. -/
def State.sendImage (s : State) (d off : Nat) (bs : List Byte) : State :=
  let p : Pkt := { s.pktTo d (buddyOf s.fab.chip) with
    tc := 2, ptype := 1, img := true, bytes := BitVec.ofNat 32 bs.length, data := bs, adr := BitVec.ofNat 64 off }
  s.sendHeld p (.ckpt d)

/-- Freeze (R521): the section table and sections sealed in order, then the header page; the packets are on their way. -/
def State.freezeCut (s : State) (d : Nat) (t e : DWord) : State :=
  let s := s.modDom d fun m => { m with stepCut := true }
  let k := s.ck d
  let since := match k.heldAt with | some h => h.2 | none => s.beacon
  let s := s.modCk d fun k => { k with copying := some s.beacon, done := false, bad := false, heldAt := some (t, since) }
  let s := s.modCtx d k.ctx fun x => { x with held := true }
  match s.ckptKey d with
  | none => s.modCk d fun k => { k with bad := true }
  | some key =>
    let s := s.readAll d ((k.sects.filter fun x => x.kind != 4 && x.kind != 5 && x.kind != 6).map fun x => (x.sadr, x.len))
    if k.sects.any (s.sectPoison d) then s.modCk d fun k => { k with bad := true }
    else
      let body := s.imageBody d
      let iv := leBytes 8 s.rnd.toNat ++ leBytes 4 (Config.freeValue (s.free + 1)).toNat
      let civ := leBytes 8 (Config.freeValue (s.free + 2)).toNat ++ leBytes 4 (Config.freeValue (s.free + 3)).toNat
      let lab := s.label d iv civ body t e
      let tag := Config.gcmTag (labelKey key) iv lab
      let s := s.drew 4
      let bk := bodyKey key e s.fab.chip
      let us := units body
      let s := us.foldl (fun z u => z.sendImage d (4096 + 4096 * u.1) (Config.xtsEnc bk u.1 u.2)) s
      let s := s.sendImage d 0 (padTo 4096 (lab ++ tag))
      s.modCk d fun k => { k with left := us.length + 1 }

/-! ### Retiring a STEP -/

/-- The first micro-batch of a step starts when the context's STEP retires (R215). -/
def State.startMb (s : State) (d c : Nat) : State :=
  s.modDom d fun m => if m.mb.ctx = c then { m with mb := { m.mb with start := s.beacon } } else m

/-- Every waiting Wick retires its STEP with the step number (R178), at once or when the context is next resident. -/
def State.retireStep (s : State) (d c : Nat) : State :=
  let on := match s.ctx? d c with
    | some x => (match x.prog with | some p => p.resident | none => false)
    | none => false
  (if on then s.startMb d c else s).modCtx d c fun x =>
    let x := { x with held := false }
    if (match x.prog with | some p => p.resident | none => false) then
      { x with
        retire := false
        wicks := x.wicks.map fun (p : Nat × Wick) => (p.1, match p.2.run with
          | .atStep sd _ _ => { (p.2.setS sd x.step) with pc := p.2.pc + 32, run := .running }
          | _ => p.2) }
    else { x with retire := true }

/-! ### Requests and holds (R517 to R519) -/

/-- The domain is running RELIGHT: one has started and is not complete (R523). -/
def State.relighting (s : State) (d : Nat) : Bool :=
  (s.dom d).qs.any fun p => p.2.started.any fun r => r.cmd.opcode == 0x3B

/-- The cause a chip reports instead of RUNNING or HELD (R523). -/
def State.cutBar (s : State) (d : Nat) : Option Nat :=
  let k := s.ck d
  if !k.conf then some 2 else if !k.buddyOk then some 3 else if s.relighting d then some 6 else none

/-- A chip reports its request to the coordinator: RUNNING, HELD or a cause (R518, R519). -/
def State.cutReport (s : State) (d : Nat) : State :=
  match s.cutBar d with
  | some c => s.cutStat d c (s.ckStep d)
  | none => match (s.ck d).heldAt with
    | some h => s.cutStat d 1 h.1
    | none => s.cutStat d 0 (s.ckStep d)

/-- Every chip of the binding but this one. -/
def State.jobPeers (s : State) (d : Nat) : List Nat :=
  match (s.dom d).binding with
  | some b => (b.chips.map (·.1)).filter (· != s.fab.chip)
  | none => []

/-- A chip makes a cut request (R517, R518); one already on hand absorbs it (R525). -/
def State.cutRequest (s : State) (d reason : Nat) : State :=
  let k := s.ck d
  if !k.conf || k.req then s
  else
    let s := s.modCk d fun k => { k with req := true, reason := reason }
    let s := (s.jobPeers d).foldl (fun t c =>
      t.sendCut d c 0x0500 reason (s.ckStep d) (BitVec.ofNat 64 s.mgmt.gut.score)) s
    s.cutReport d

/-- CKPT_REQUEST commands complete with a cut's cause and epoch (R517). -/
def finishReq (cause : Nat) (epoch : DWord) (q : SQueue) : SQueue :=
  { q with started := q.started.map fun r =>
    if r.cmd.opcode = 0x39 ∧ r.st = none then
      { r with st := some 0, result := BitVec.ofNat 64 (cause * 2 ^ 56 + epoch.toNat % 2 ^ 56) } else r }

/-- The request is dropped: the cut committed or was abandoned, and its commands complete. -/
def State.cutEnd (s : State) (d cause : Nat) (epoch : DWord) : State :=
  let s := s.modDom d fun m => { m with qs := m.qs.map fun p => (p.1, finishReq cause epoch p.2) }
  s.modCk d fun k => { k with req := false, cut := none, heldAt := none, copying := none, left := 0, bad := false
                              done := false, cause := cause, heldNs := 0 }

/-- The step context runs on after a hold or a freeze. -/
def State.cutRelease (s : State) (d : Nat) : State := s.retireStep d (s.ck d).ctx

/-- Drop the packets of an image that are still held. -/
def State.dropImage (s : State) (d : Nat) : State :=
  { s with fab := { s.fab with held := s.fab.held.filter fun h => h.owner != .ckpt d } }

/-- How long the step context has been held and frozen for this cut (R534). -/
def State.cutHeldNs (s : State) (d : Nat) : Nat :=
  let k := s.ck d
  k.heldNs + (match k.heldAt with | some h => s.beacon - h.2 | none => 0)

/-- A cut is abandoned on this chip (R522). -/
def State.cutAbandon (s : State) (d cause : Nat) : State :=
  let k := s.ck d
  if !k.req then s
  else
    let ns := if k.done then k.freeze else s.cutHeldNs d
    let s := if k.copying.isSome && !k.done then (s.dropImage d).cutRelease d
      else if k.heldAt.isSome && !k.done then s.cutRelease d else s
    let s := s.cutEnd d cause 0
    s.modCk d fun k => { k with fails := satAdd 32 k.fails 1, freeze := ns }

/-- Action 3 of R34 at a boundary of the step context, while a request is on hand: freeze, hold or go on (R519). -/
def State.cutBoundary (s : State) (d c : Nat) (step : DWord) : State :=
  let k := s.ck d
  match k.cut with
  | some (t, e) => if step = t then s.freezeCut d t e else s.retireStep d c
  | none =>
    let s := s.modCk d fun k => { k with heldAt := some (step, s.beacon) }
    let s := s.modCtx d c fun x => { x with held := true }
    s.cutReport d

/-! ### The coordinator (R519, R522) -/

/-- Send to every chip of the binding, this one included. -/
def State.cutAll (s : State) (d ty code : Nat) (a b : DWord) : State :=
  match (s.dom d).binding with
  | some x => x.chips.foldl (fun t c => t.sendCut d c.1 ty code a b) s
  | none => s

/-- The coordinator's bookkeeping of a cut ends. -/
def State.coordClear (s : State) (d : Nat) : State :=
  s.modCk d fun k => { k with reps := [], repAt := none, set := none, dones := [], doneAt := none }

/-- The coordinator abandons the cut. -/
def State.coordAbort (s : State) (d cause : Nat) : State :=
  let te := (s.ck d).set.getD (0, 0)
  (s.cutAll d 0x0505 cause te.1 te.2).coordClear d

/-- The step a report asks for at least. -/
def CkRep.wants (r : CkRep) : DWord := if r.code = 1 then r.step else r.step + 1

/-- A CUT_STAT reaches the coordinator. -/
def State.coordStat (s : State) (d src : Nat) (r : CkRep) : State :=
  if 2 ≤ r.code then s.coordAbort d r.code
  else
    let s := s.modCk d fun k => { k with reps := FMap.insert k.reps src r, repAt := some (k.repAt.getD s.beacon) }
    let k := s.ck d
    let chips := match (s.dom d).binding with | some (b : Binding) => b.chips.map Prod.fst | none => []
    if k.set.isSome || !chips.all (fun c => (FMap.find? k.reps c).isSome) then s
    else
      let t := k.reps.foldl (fun (m : DWord) p => umax m p.2.wants) 0
      let e := k.reps.foldl (fun (m : DWord) p => umax m p.2.floor) k.lastEpoch + 1
      (s.modCk d fun k => { k with set := some (t, e), lastEpoch := e }).cutAll d 0x0502 0 t e

/-- A CUT_DONE reaches the coordinator. -/
def State.coordDone (s : State) (d src code : Nat) : State :=
  if code != 0 then s.coordAbort d code
  else
    let s := s.modCk d fun k => { k with dones := FMap.set false k.dones src true, doneAt := some (k.doneAt.getD s.beacon) }
    let k := s.ck d
    let chips := match (s.dom d).binding with | some (b : Binding) => b.chips.map Prod.fst | none => []
    if chips.all (fun c => FMap.get false k.dones c) then
      let te := k.set.getD (0, 0)
      (s.cutAll d 0x0504 0 te.1 te.2).coordClear d
    else s

/-! ### Messages at every chip -/

/-- CUT_SET (R519, R522). -/
def State.onCutSet (s : State) (d : Nat) (t e : DWord) : State :=
  let s := s.modCk d fun k => { k with seen := umax k.seen e }
  let k := s.ck d
  let late := match k.heldAt with | some h => decide (t.toNat < h.1.toNat) | none => decide (t.toNat ≤ (s.ckStep d).toNat)
  if late then s.cutStat d 7 (s.ckStep d)
  else
    let s := s.modCk d fun k => { k with cut := some (t, e), req := true }
    match k.heldAt with
    | some h => if h.1 = t then s.freezeCut d t e else (s.modCk d fun k => { k with heldAt := none, heldNs := k.heldNs + (s.beacon - h.2) }).cutRelease d
    | none => s

/-- The copy is reported: CUT_DONE, and the STEP retires (R521 step 4). -/
def State.copyReport (s : State) (d code : Nat) : State :=
  let k := s.ck d
  let te := k.cut.getD (0, 0)
  let held := s.cutHeldNs d
  let s := s.sendCut d (s.coordOf d) 0x0503 code te.1 te.2
  (s.modCk d fun k => { k with done := true, copying := none, heldAt := none, freeze := held }).cutRelease d

/-- CUT_COMMIT (R522): the commit tag, STATE, and the status registers. -/
def State.onCutCommit (s : State) (d : Nat) (t e : DWord) : State :=
  let k := s.ck d
  let hdr := s.rdDom d (offOf k.rgn) 4096
  let s := match s.ckptKey d with
    | some key =>
      let tag := Config.gcmTag (labelKey key) ((hdr.drop 0x30).take 12) (hdr.take 256 ++ ascii "Siloft commit")
      (s.wrDom d (offOf k.rgn + 0x110) (padTo 16 (tag.take 16))).wrDom d (offOf k.rgn + 0x120) [3]
    | none => s
  let s := s.modCk d fun k => { k with rgnState := 3, epoch := e, step := t, held := e, cuts := (k.cuts + 1) % 2 ^ 32 }
  s.cutEnd d 0 e

/-- A packet of the partner's image reaches this chip's region (R521, R526): it is written, or refused. -/
def State.onImage (s : State) (d : Nat) (p : Pkt) : Option State :=
  let k := s.ck d
  let off := p.adr.toNat
  let adr := offOf k.rgn + off
  if !k.conf || decide (k.rgnLen < off + p.data.length)
      || !(s.dom d).mapOk adr p.data.length { w := true, k := false } then none
  else
    let s := if k.rgnState = 1 then s else s.wrDom d (offOf k.rgn + 0x120) [1]
    let s := s.modCk d fun k => { k with rgnState := 1 }
    let s := s.wrDom d adr p.data
    if off = 0 then
      let seen : DWord := BitVec.ofNat 64 (leNat ((p.data.drop 8).take 8))
      some ((s.wrDom d (offOf k.rgn + 0x120) [2]).modCk d fun k => { k with rgnState := 2, seen := umax k.seen seen })
    else some s

end Sys2Proof.Machine
end

