-- ==== Sys2Proof/Machine/Sched.lean ====
section
/-! DEFINITION. The scheduler: the step boundary (R34, R178), deadlock detection (R100), time-slicing (R102 to R105, R491
to R494), folding (R106 to R110) and the contained errors of Wicks and Lanterns (R505). -/

namespace Sys2Proof.Machine

/-- Insertion sort. -/
def insertBy {α : Type} (le : α → α → Bool) (x : α) : List α → List α
  | [] => [x]
  | y :: l => if le x y then x :: y :: l else y :: insertBy le x l
def sortBy {α : Type} (le : α → α → Bool) (l : List α) : List α := l.foldr (insertBy le) []

/-! ### The step boundary (R34, R35, R178, R488) -/

/-- Logical Wicks of a placed program. -/
def Prog.wicks (p : Prog) : List Nat := List.range (8 * p.lants.length)

/-- Every logical Wick has issued STEP or halted, and one has issued STEP (R178). -/
def Ctx.allAtStep (x : Ctx) : Bool :=
  match x.prog with
  | none => false
  | some p =>
    (p.wicks.all fun k => match (x.wick k).run with | .atStep _ _ _ | .halted => true | _ => false)
      && p.wicks.any fun k => match (x.wick k).run with | .atStep _ _ _ => true | _ => false

/-- An update launched by the context is outstanding. -/
def State.busyUpd (s : State) (d c : Nat) : Bool := s.eng.upds.any fun u => u.dom == d && u.ctx == c

/-- A reduction or update launched by the context is outstanding, so its STEP does not retire (R34). -/
def State.busyCtx (s : State) (d c : Nat) : Bool :=
  (FMap.get [] s.eng.comms d).any (fun p => p.2.ops.any fun o => o.ctx == c && o.reduces) || s.busyUpd d c

/-- A collective or update launched by the context is outstanding, so its LAUNCH does not complete (R351). -/
def State.workLeft (s : State) (d c : Nat) : Bool :=
  (FMap.get [] s.eng.comms d).any (fun p => p.2.ops.any fun o => o.ctx == c) || s.busyUpd d c

/-- The running statistics of the micro-batches become those of the last step (R215). -/
def MbSt.latch (m : MbSt) : MbSt :=
  { m with lastN := m.n, lastArg := m.argmax, lastMax := m.max, lastMin := m.min, lastSum := m.sum
           n := 0, max := 0, argmax := 0, min := 0, sum := 0 }

/-- The pacing context (R488). -/
def State.pacing (s : State) : Option (Nat × Nat) :=
  if s.bcn.paceSet then some (s.bcn.paceDom, s.bcn.paceCtx) else s.bcn.auto

/-- Step-relative slots of an owner get a new reference; one that has not fired for the last counts a miss (R486). -/
def rearm (now : Nat) (mine : Nat → Trig → Bool) (l : FMap Trig) : FMap Trig :=
  l.map fun p =>
    if p.2.en && p.2.mode && mine p.1 p.2 then
      (p.1, { p.2 with due := some now, missed := if p.2.due.isSome then satAdd 32 p.2.missed 1 else p.2.missed })
    else p

/-- The step period P, when valid: the median of the last 16 intervals, at most 10 s (R488). -/
def BcnSt.period (b : BcnSt) : Nat :=
  if b.steps.length < 17 then 0
  else
    let iv := (List.range 16).map fun i => b.steps.getD (i + 1) 0 - b.steps.getD i 0
    let srt := sortBy (fun (x y : Nat) => decide (x ≤ y)) iv
    let p := (srt.getD 7 0 + srt.getD 8 0) / 2
    if p ≤ 10000000000 then p else 0

/-- The new idle score of a bin (R489): a quarter of the way to the sample, rounded toward zero. -/
def binScore (old sample : Nat) : Nat := ((old : Int) + ((sample : Int) - (old : Int)).tdiv 4).toNat

/-- The scores of every link egress and memory channel take the samples of the step just ended (R489). -/
def BcnSt.sampled (b : BcnSt) (idle : List (BitVec 16 × List (BitVec 5))) : BcnSt :=
  let zero := List.replicate 64 0
  let keys := (idle.map fun p => p.1.toNat) ++ b.bins.map Prod.fst
  let smp (k j : Nat) : Nat := match idle.find? fun p => p.1.toNat == k with
    | some p => (p.2.getD j 0).toNat
    | none => 0
  { b with bins := keys.eraseDups.foldl (fun m k =>
      FMap.set zero m k ((List.range 64).map fun j => binScore ((FMap.get zero b.bins k).getD j 0) (smp k j))) b.bins }

/-- What the Beacon logic does at a STEP of a context (R486, R488, R489). -/
def State.beaconStep (s : State) (d c : Nat) (idle : List (BitVec 16 × List (BitVec 5))) : State :=
  let b := s.bcn
  let b := if b.auto.isNone then { b with auto := some (d, c) } else b
  let s := { s with bcn := { b with trigs := rearm s.beacon (fun n t => decide (128 ≤ n) && t.dom == d) b.trigs } }
  if s.pacing = some (d, c) then
    let b := if s.bcn.period = 0 then s.bcn else s.bcn.sampled idle
    { s with bcn := { b with
      steps := (b.steps ++ [s.beacon]).drop (b.steps.length + 1 - 17)
      trigs := rearm s.beacon (fun n _ => decide (n < 128)) b.trigs } }
  else s

/-- Action 2 of R34: the banks exchange where a commit names this context and step (R289). -/
def State.ehtSwitch (s : State) (d c : Nat) (step : DWord) : State :=
  let seg := FMap.get {} s.fab.segs d
  if seg.commit = some (c, step) then
    { s with fab := { s.fab with
      segs := FMap.set {} s.fab.segs d { seg with active := !seg.active, commit := none, copying := true } } }
  else s

/-- The actions of R34, once, in order. -/
def State.boundary (s : State) (d c : Nat) (idle : List (BitVec 16 × List (BitVec 5))) : State :=
  match s.ctx? d c with
  | none => s
  | some x =>
    let step := x.step + 1
    let s := s.setCtx d c { x with step := step }
    let s := s.modDom d fun m => { m with
      stepNum := step, stepTime := BitVec.ofNat 64 s.beacon, stepCtx := BitVec.ofNat 16 c, stepCut := false
      mb := if m.mb.en ∧ m.mb.ctx = c then m.mb.latch else m.mb }
    let s := if (s.ck d).conf && (s.ck d).ctx == c then s.latchCursor d else s
    let s := s.beaconStep d c idle
    let s := s.ehtSwitch d c step
    if (s.ck d).conf && (s.ck d).ctx == c && (s.ck d).req then s.cutBoundary d c step else s.retireStep d c

/-- STEP_BOUNDARY: the boundary of a context whose Wicks are all there and whose work is done. -/
def State.stepBoundary (s : State) (d c : Nat) (idle : List (BitVec 16 × List (BitVec 5))) : State :=
  match s.ctx? d c with
  | some x =>
    if s.dev.st == .run && x.status == .live && !x.retire && !x.held && x.allAtStep && !s.busyCtx d c then s.boundary d c idle else s
  | none => s

/-- STEP_TIMEOUT (R178): after the default timeout in force when the STEP began (R368); the time held for a cut is not counted
(R519). -/
def State.stepExpire (s : State) (w : WickRef) : State :=
  match s.ctx? w.d w.c with
  | none => s
  | some x =>
    match (x.wick w.key).run with
    | .atStep _ since us =>
      if s.dev.st == .run && x.status == .live && !x.retire && !x.held
          && decide (since + us * 1000 < s.beacon) then
        s.ctxFault w.d w.c w.key .ftimeout (x.wick w.key).pc 0
      else s
    | _ => s

/-- A Wick may take an asynchronous step: its context is live and resident. -/
def State.canExec (s : State) (w : WickRef) : Bool :=
  s.dev.st == .run && (match s.ctx? w.d w.c with
    | some x => x.status == .live && (match x.prog with
      | some p => p.resident && !(s.lantern (p.lants.getD w.llant.toNat 0)).off.getLsbD w.lwick.toNat
      | none => false)
    | none => false)

/-! ### Deadlock (R100) -/

/-- The Wick a waiting Wick waits for, as (context, key), if it is a node with an edge. -/
def State.waitsFor (s : State) (d c k : Nat) : Option (Nat × Nat) :=
  match (s.wickAt d c k).run with
  | .waiting r =>
    if s.beacon < r.since + 100000 ∨ (s.waitCode d c k r.adr r.val).isSome then none
    else match spaceOf r.adr with
      | some .fence =>
        let o := FMap.get 0 (s.dom d).owners (offOf r.adr / 8)
        if o.toNat / 2 ^ 30 = 1 then some (o.toNat % 2 ^ 16, o.toNat / 2 ^ 16 % 2 ^ 6 * 8 + o.toNat / 2 ^ 22 % 8) else none
      | _ => none
  | _ => none

/-- Following edges from a node, at most `n` of them, comes back to it. -/
def State.onCycle (s : State) (d : Nat) (start : Nat × Nat) : Nat → Nat × Nat → Bool
  | 0, _ => false
  | n + 1, p =>
    match s.waitsFor d p.1 p.2 with
    | some q => q == start || s.onCycle d start n q
    | none => false

/-- DEADLOCK_SCAN: every context with a Wick on a cycle is aborted. -/
def State.deadlockScan (s : State) : State :=
  if s.dev.st != .run then s
  else
    let n := s.allWicks.length
    let hit := s.allWicks.filter fun w => s.onCycle w.d (w.c, w.key) (n + 1) (w.c, w.key)
    hit.foldl (fun t w => t.ctxFault w.d w.c w.key .deadlock (t.wickAt w.d w.c w.key).pc
      (match (s.wickAt w.d w.c w.key).run with | .waiting r => r.adr | _ => 0)) s

/-! ### Folding (R106 to R110) -/

/-- The healthy Wicks of a Lantern. -/
def Lantern.ok (x : Lantern) (p : Nat) : Bool := !(x.fenced.getLsbD p || x.ship.getLsbD p)
def Lantern.nFenced (x : Lantern) : Nat := ((List.range 8).filter fun p => !x.ok p).length

/-- The fold map of R106, the fenced Wicks taken in ascending order. -/
def Lantern.foldMap (x : Lantern) : List Nat :=
  ((List.range 8).filter fun p => !x.ok p).foldl (fun (m : List Nat) k =>
    let hosts (p : Nat) : Bool := ((List.range 8).filter fun j => j != p && !x.ok j && decide (j < k)).any fun j => m.getD j 8 == p
    let alt := if k % 2 = 0 then k + 1 else k - 1
    let h := if x.ok alt && !hosts alt then some alt else (List.range 8).find? fun p => x.ok p && !hosts p
    m.set k (h.getD k)) (List.range 8)

/-- The higher-numbered logical Wick of each folded pair: its turn is off when a context is placed or restored (R110). -/
def Lantern.firstOff (x : Lantern) : BitVec 8 :=
  (List.range 8).foldl (fun (b : BitVec 8) j =>
    if (List.range j).any fun i => x.map.getD i i == x.map.getD j j then b ||| (1#8 <<< j) else b) 0

/-- The logical Wick that a physical Wick runs now: of a folded pair the one whose turn it is (R106, R108). -/
def Lantern.runs (x : Lantern) (p : Nat) : Nat :=
  ((List.range 8).find? fun j => x.map.getD j j == p && !x.off.getLsbD j).getD p

/-- The logical number of a Lantern in a program. -/
def Prog.llantOf (p : Prog) (l : Nat) : Nat := ((List.range p.lants.length).find? (fun n => p.lants.getD n 64 == l)).getD 0

/-- The Wick waits in an FWAIT that is not satisfied. -/
def State.blocked (s : State) (d c k : Nat) : Bool :=
  match (s.wickAt d c k).run with
  | .waiting r => (s.waitCode d c k r.adr r.val).isNone
  | _ => false

/-- The turn of a host Wick that runs logical Wick `a` (keys are of the context) ends: 200 µs are over, or `a` waits and the
other Wick does not (R108). -/
def State.turnOver (s : State) (d c l p a b : Nat) : Bool :=
  decide (FMap.get 0 (s.lantern l).turnAt p + 200000 ≤ s.beacon) || (s.blocked d c a && !s.blocked d c b)

/-- FOLD_SWITCH: the pair hosted by physical Wick `p` changes turns when the turn is over (R108); the running Wick's state goes
to its switch area, and the Wick now on re-evaluates its wait. -/
def State.foldTurn (s : State) (l p : Nat) : State :=
  let x := s.lantern l
  let pair := (List.range 8).filter fun j => x.map.getD j j == p
  match x.owner, pair with
  | some (d, c), [i, j] =>
    match (s.ctx? d c).bind (·.prog) with
    | none => s
    | some pr =>
      let n := pr.llantOf l
      let a := if x.off.getLsbD i then j else i
      let b := if x.off.getLsbD i then i else j
      if s.dev.st != .run || !s.turnOver d c l p (8 * n + a) (8 * n + b) then s
      else
        let m : BitVec 8 := (1#8 <<< i) ||| (1#8 <<< j)
        let s := (s.saveArea d c pr n a).setLantern l { x with off := x.off ^^^ m, turnAt := FMap.set 0 x.turnAt p s.beacon }
        s.endWait { dom := BitVec.ofNat 8 d, ctx := BitVec.ofNat 16 c, llant := BitVec.ofNat 6 n, lwick := BitVec.ofNat 3 b } false
  | _, _ => s

/-! ### Time-slicing (R102 to R105, R491 to R494) -/

/-- A context with a place on Lanterns: domain, tag, program. -/
structure Placed where
  d : Nat
  c : Nat
  p : Prog

def State.placed (s : State) : List Placed :=
  (s.doms.map fun q => q.2.ctxs.filterMap fun x =>
    if x.2.status = .live then x.2.prog.map fun p => (⟨q.1, x.1, p⟩ : Placed) else none).flatten

def State.arb (s : State) (d : Nat) : ArbDom := FMap.get {} s.bcn.arb d

/-- Effective priority at an edge (R493). -/
def State.edgePrio (s : State) (x : Placed) : Nat := min 7 (min x.p.prio (s.arb x.d).pceil + x.p.passed)

/-- The order in which contexts are taken at an edge. -/
def State.before (s : State) (x y : Placed) : Bool :=
  let a := s.edgePrio x
  let b := s.edgePrio y
  decide (b < a) || (a == b && (decide (x.p.since < y.p.since) || (x.p.since == y.p.since &&
    (decide (x.d < y.d) || (x.d == y.d && decide (x.c ≤ y.c))))))

/-- The contexts that receive their Lanterns at an edge. -/
def State.chosen (s : State) : List Placed :=
  (((sortBy s.before s.placed).foldl (fun (acc : List Nat × List Placed) x =>
    if x.p.lants.any acc.1.contains then acc else (acc.1 ++ x.p.lants, acc.2 ++ [x])) ([], []))).2

def State.modProg (s : State) (d c : Nat) (f : Prog → Prog) : State :=
  s.modCtx d c fun x => { x with prog := x.prog.map f }

/-- Steps 2 and 3 of R103 for one Wick: its queued matrix operations execute, its DMA queues pause. -/
def State.quiesce (s : State) (d c k : Nat) : State :=
  let w := s.wickAt d c k
  let s := w.mq.foldl (fun t _ => t.matrixStep d c k false) s
  w.dma.foldl (fun t q => t.dmaPause d c k q.1) s

/-- A context leaves its Lanterns (R103): issued operations retire and its DMA queues pause, its images are saved, and the Lanterns are
zeroised. A fault of an operation that retires ends the context instead. -/
def State.swapOut (s : State) (x : Placed) : State :=
  let s := (x.p.wicks).foldl (fun t k => t.quiesce x.d x.c k) s
  match s.ctx? x.d x.c with
  | none => s
  | some y =>
    if y.status = .aborted then s
    else
      let s := (List.range x.p.lants.length).foldl (fun t n => t.saveImage x.d x.c y x.p n) s
      let s := { s with lanterns := s.lanterns.map fun (p : Nat × Lantern) => (p.1, p.2.release x.d x.c) }
      s.modProg x.d x.c fun p => { p with resident := false, saved := true, leaving := false }

/-- The frames that a place lacks under the fold maps now in force, by Lantern. -/
def State.slotsLack (s : State) (p : Prog) : List (Nat × Nat) :=
  (List.range p.lants.length).map fun n =>
    let l := p.lants.getD n 0
    (l, (s.lantern l).slotFrames - (p.slots.getD n []).length)

/-- A context is restored, or placed for the first time (R103 to R105, R110): an image that fails its digest aborts it with POISON,
switch areas beyond the quota with WICKFAIL. A quota that holds them with no free frame left counts as one that does not (DESIGN CHOICE,
log 55). -/
def State.swapIn (s : State) (x : Placed) (bad : Bool) : State :=
  let lack := s.slotsLack x.p
  let need := sumBy Prod.snd lack
  if x.p.saved && (bad || !(List.range x.p.lants.length).all fun n => s.imageOk x.p n) then s.ctxFault x.d x.c 0 .poison 0 0
  else if need ≠ 0 ∧ (s.quota x.d false < (s.memDom x.d).usedH + need ∨ s.freeCount false < need) then
    s.ctxFault x.d x.c 0 .wickfail 0 0
  else
    let q := s.takeSlots x.d lack
    let p : Prog := { x.p with
      resident := true, since := s.beacon, passed := 0, due := false
      slots := (List.range x.p.lants.length).map fun n => x.p.slots.getD n [] ++ q.2.getD n [] }
    let s := q.1.modProg x.d x.c fun _ => p
    let s := x.p.lants.foldl (fun t l => t.modLantern l fun y => { y with
      owner := some (x.d, x.c), off := y.firstOff
      turnAt := (List.range 8).foldl (fun m h => FMap.set 0 m h s.beacon) y.turnAt }) s
    -- R110: of a folded pair the other Wick's state goes to its switch area
    let s := (List.range p.lants.length).foldl (fun t n =>
      ((List.range 8).filter fun j => (t.lantern (p.lants.getD n 0)).off.getLsbD j).foldl
        (fun u j => u.saveArea x.d x.c p n j) t) s
    -- R178: a STEP whose boundary is done retires; R105: waits are re-evaluated at once
    let s := match s.ctx? x.d x.c with
      | some y => if y.retire then s.retireStep x.d x.c else s
      | none => s
    (s.allWicks.filter fun w => w.d == x.d && w.c == x.c).foldl (fun t w => t.endWait w false) s

/-- An SR16 update of the context is writing to its Lanterns (R186, R494). -/
def State.sr16Writes (s : State) (d c : Nat) : Bool :=
  s.eng.upds.any fun u => u.dom == d && u.ctx == c && !u.split && u.phase == .written

/-- The Lanterns of a place are idle. -/
def State.lantsIdle (s : State) (p : Prog) : Bool := p.lants.all fun l => (s.lantern l).owner.isNone

/-- An edge takes the Lanterns of a resident context: it leaves them now, or once its SR16 updates have completed (R494). -/
def State.leave (s : State) (x : Placed) : State :=
  if s.sr16Writes x.d x.c then s.modProg x.d x.c fun p => { p with leaving := true } else s.swapOut x

/-- An edge gives a context its Lanterns: it keeps them, is restored, or waits for the context that still leaves them (R494). -/
def State.receive (s : State) (x : Placed) (bad : Bool) : State :=
  if x.p.resident then s.modProg x.d x.c fun p => { p with passed := 0, leaving := false }
  else if s.lantsIdle x.p then s.swapIn x bad
  else s.modProg x.d x.c fun p => { p with passed := 0, due := true }

/-- The swaps that waited for SR16 updates which are complete (R494). -/
def State.lateSwap (s : State) : State :=
  let s := (s.placed.filter fun x => x.p.leaving && x.p.resident && !s.sr16Writes x.d x.c).foldl (fun t x => t.swapOut x) s
  (s.placed.filter fun x => x.p.due && !x.p.resident).foldl (fun t x => if t.lantsIdle x.p then t.swapIn x false else t) s

/-- QUANTUM (R493, R494): `bad` are the contexts whose restored image fails its digest. -/
def State.quantum (s : State) (bad : List (BitVec 8 × BitVec 16)) : State :=
  if s.dev.st != .run then s
  else
    let s := match s.bcn.newQuantum with
      | some q => { s with bcn := { s.bcn with quantum := q, newQuantum := none } }
      | none => s
    let all := s.placed
    let run := s.chosen
    let on (x : Placed) : Bool := run.any fun y => y.d == x.d && y.c == x.c
    let s := (all.filter fun x => x.p.resident && !on x).foldl (fun t x => t.leave x) s
    let s := (all.filter fun x => !on x).foldl (fun t x => t.modProg x.d x.c fun p => { p with passed := p.passed + 1, due := false }) s
    run.foldl (fun t x => t.receive x (bad.any fun b => b.1.toNat == x.d && b.2.toNat == x.c)) s

/-- IDLE_PLACEMENT (R492): contexts whose Lanterns are all idle are restored between edges. -/
def State.idlePlace (s : State) (bad : List (BitVec 8 × BitVec 16)) : State :=
  if s.dev.st != .run then s
  else
    (sortBy s.before s.placed).foldl (fun t x =>
      if !x.p.resident && t.lantsIdle x.p then
        t.swapIn x (bad.any fun b => b.1.toNat == x.d && b.2.toNat == x.c)
      else t) s

/-! ### Fences in service (R106, R110, R505, R507) -/

/-- Record a fence in NVS bank 5 and in the Soot ring (R507). -/
def State.recordFence (s : State) (kind idx : Nat) : State :=
  let n := s.mgmt.nvs
  ({ s with mgmt := { s.mgmt with nvs := { n with
    fences := if n.fences.contains (kind, idx) then n.fences else n.fences ++ [(kind, idx)] } } } : State).sootLog 1 2 8 [kind, idx]

/-- A context with a place on Lantern `l` is aborted with a code; its record names the logical Wick `j` there, and that Wick's program
counter (R81). -/
def State.abortAt (s : State) (d c : Nat) (p : Prog) (l j : Nat) (code : FCode) : State :=
  let k := 8 * p.llantOf l + j
  s.ctxFault d c k code (s.wickAt d c k).pc 0

/-- The context that runs on a Lantern is aborted with a code, on account of logical Wick `j`. An error of the Lantern itself has no
failing Wick: its record names logical Wick 0 (DESIGN CHOICE, log 58). -/
def State.abortOn (s : State) (l j : Nat) (code : FCode) : State :=
  match (s.lantern l).owner with
  | some (d, c) =>
    (match (s.ctx? d c).bind (·.prog) with
     | some p => s.abortAt d c p l j code
     | none => s)
  | none => s

/-- Every context on a Lantern's run list is aborted with WICKFAIL, on account of logical Wick `j`. -/
def State.abortList (s : State) (l j : Nat) : State :=
  (s.placed.filter fun x => x.p.lants.contains l).foldl (fun t x => t.abortAt x.d x.c x.p l j .wickfail) s

/-- A Lantern is fenced whole. -/
def State.fenceLantern (s : State) (l : Nat) : State :=
  let s := (s.abortList l 0).modLantern l fun x => { x with whole := true }
  s.recordFence 1 l

/-- A Wick is fenced in service (R110): its Lantern's context is aborted with WICKFAIL, and the fold map changes after the teardown;
with more than four fenced the Lantern is fenced whole (R106). -/
def State.fenceWick (s : State) (l p : Nat) : State :=
  let j := (s.lantern l).runs p
  let s := s.abortOn l j .wickfail
  let s := (s.modLantern l fun x => { x with fenced := x.fenced ||| (1#8 <<< p) }).recordFence 0 (8 * l + p)
  let x := s.lantern l
  if 4 < x.nFenced then (s.abortList l j).modLantern l fun x => { x with whole := true }
  else s.modLantern l fun x => { x with map := x.foldMap }

/-- Events of a Wick or Lantern within the last 24 h of Beacon time, this one included. -/
def State.countErr (s : State) (l key : Nat) : State × Nat :=
  let day := 24 * 3600 * 1000000000
  let x := s.lantern l
  let t := (FMap.get [] x.errs key).filter (fun t => decide (s.beacon < t + day)) ++ [s.beacon]
  (s.setLantern l { x with errs := FMap.set [] x.errs key t }, t.length)

/-- WICK_UNCORRECTABLE_ECC (R505): the context is aborted with POISON; the second event within 24 h fences the Wick. One context
has one record: at the event that fences, where R505 says POISON and R110 WICKFAIL, the model's record reads WICKFAIL (DESIGN CHOICE,
log 58). -/
def State.wickEcc (s : State) (l p : Nat) : State :=
  if s.dev.st != .run then s
  else
    let r := s.countErr l p
    if 2 ≤ r.2 then r.1.fenceWick l p else r.1.abortOn l ((s.lantern l).runs p) .poison

/-- LANTERN_UNCORRECTABLE_ECC (R505): POISON, and the Lantern is fenced whole at the second event within 24 h. -/
def State.lanternEcc (s : State) (l : Nat) : State :=
  if s.dev.st != .run then s
  else
    let r := (s.abortOn l 0 .poison).countErr l 8
    if 2 ≤ r.2 then r.1.fenceLantern l else r.1

/-- RESIDUE_CHECK_MISMATCH (R110, R505): the Wick is fenced at once. -/
def State.residue (s : State) (l p : Nat) : State := if s.dev.st != .run then s else s.fenceWick l p

/-! ### The commands -/

abbrev Out := Host.Outcome State Fault Refusal

/-- STEP_BOUNDARY (R34). -/
def execStepBoundary (d : BitVec 8) (x : StepIn) (s : State) : Out := .next (s.stepBoundary d.toNat x.ctx.toNat x.idle)
/-- QUANTUM (R493). -/
def execQuantumEdge (bad : List (BitVec 8 × BitVec 16)) (s : State) : Out := .next (s.quantum bad)
/-- IDLE_PLACEMENT (R492). -/
def execIdlePlacement (bad : List (BitVec 8 × BitVec 16)) (s : State) : Out := .next (s.idlePlace bad)
/-- FOLD_SWITCH (R108). -/
def execFoldSwitch (lant : BitVec 6) (wick : BitVec 3) (s : State) : Out := .next (s.foldTurn lant.toNat wick.toNat)
/-- WICK_UNCORRECTABLE_ECC (R505). -/
def execWickUncorrectableEcc (lant : BitVec 6) (wick : BitVec 3) (s : State) : Out := .next (s.wickEcc lant.toNat wick.toNat)
/-- LANTERN_UNCORRECTABLE_ECC (R505). -/
def execLanternUncorrectableEcc (lant : BitVec 6) (s : State) : Out := .next (s.lanternEcc lant.toNat)
/-- RESIDUE_CHECK_MISMATCH (R110). -/
def execResidueCheckMismatch (lant : BitVec 6) (wick : BitVec 3) (s : State) : Out := .next (s.residue lant.toNat wick.toNat)

end Sys2Proof.Machine
end

