-- ==== Sys2Proof/Machine/Arrive.lean ====
section
/-! DEFINITION. Packets that arrive at this chip (R271, R272, R285): the checks of a header, the binding check, ACK and NAK. -/

namespace Sys2Proof.Machine

/-- The slots of a packet that has arrived leave the buffer of its link (R261). -/
def State.freeIn (s : State) (p : Pkt) : State := { s with fab := s.fab.freeIn p }

/-- A header with a reserved PTYPE or a nonzero reserved field, or a length its data does not have (R271). Data is at most 64
slots (R260). A READ_REQ gives the bytes it asks for, at most 4 KiB, and carries none. -/
def Pkt.malformed (p : Pkt) : Bool :=
  p.rsv || decide (8 < p.ptype.toNat) || decide (4096 < p.bytes.toNat)
    || (if p.ptype = 2 then !p.data.isEmpty else p.data.length != p.bytes.toNat) || decide (4 < p.hop.toNat)
    || (!p.rtype && p.igroup != 0)

/-- A CTRL_MSG carries no job tag. -/
def Pkt.badCtrl (p : Pkt) : Bool := p.malformed || p.tag != 0

def State.countMalform (s : State) : State := { s with fab := { s.fab with malform := satAdd 64 s.fab.malform 1 } }
def State.countReject (s : State) : State := { s with fab := { s.fab with reject := satAdd 64 s.fab.reject 1 } }
def State.countStrand (s : State) : State := { s with fab := { s.fab with strand := satAdd 64 s.fab.strand 1 } }

/-- The header that answers a packet (R271). -/
def State.answerTo (s : State) (p : Pkt) (pt : BitVec 8) : Pkt :=
  { dst := p.src, src := BitVec.ofNat 13 s.fab.chip, tc := 3, ptype := pt, tag := p.tag, sdom := p.ddom, ddom := p.sdom
    xtag := p.xtag }

/-- Return an ACK. -/
def State.ack (s : State) (p : Pkt) : State := s.send (s.answerTo p 4)
/-- Return a NAK with a reason (R272). -/
def State.nak (s : State) (p : Pkt) (code : Nat) (fault : BitVec 8 := 0) : State :=
  s.send { s.answerTo p 5 with aux := BitVec.ofNat 64 code, fault := fault }

/-- NAK reasons (R272). -/
def nakFULL : Nat := 1
def nakDISABLED : Nat := 2
def nakREJECT : Nat := 3
def nakBUSY : Nat := 4
def nakSTRAND : Nat := 5
def nakNOROUTE : Nat := 6

/-- Discard a packet that cannot go on (R272, R280): counted, and a NAK to its source. An ACK or a NAK, which no source holds, is
answered by nothing (DEDUCED, log 64). -/
def State.discard (s : State) (p : Pkt) (code : Nat) : State :=
  if p.ptype = 4 || p.ptype = 5 then s.countStrand else s.countStrand.nak p code

/-- Discard a packet whose binding check fails: counted, and a NAK REJECT (R285). -/
def State.reject (s : State) (p : Pkt) : State := s.countReject.nak p nakREJECT

/-- A binding lists the packet's source under its job tag (R285). -/
def Binding.accepts (b : Binding) (p : Pkt) : Bool := b.tag == p.tag && b.domOn p.src.toNat == some p.sdom.toNat

/-- The destination domain of a packet that passes R285 (and R430), if any. -/
def State.admits (s : State) (p : Pkt) : Bool :=
  let m := s.dom p.ddom.toNat
  m.there && (match m.binding with | some b => b.accepts p | none => false)
    && !(p.confined && s.unconfirmed p.ddom.toNat p.src.toNat)

/-- The domain's closing binding lists the packet's source (R335). -/
def State.admitsClosing (s : State) (p : Pkt) : Bool :=
  match (s.dom p.ddom.toNat).closing with
  | some (b, _) => b.accepts p
  | none => false

/-- A packet of a type arrives here and leaves its link's buffer: malformed ones are discarded, those that fail the binding check
refused. -/
def State.onPkt (s : State) (p : Pkt) (pt : BitVec 8) (f : State → Nat → State) : State :=
  if s.dev.st != .run || p.ptype != pt || p.dst.toNat != s.fab.chip then s
  else
    let s := s.freeIn p
    if p.malformed then s.countMalform
    else if s.admits p then f s p.ddom.toNat
    else s.reject p

/-! ### Read requests (R283, R285) -/

/-- The fault that a remote access meets here: NOMAP, PERM, or POISON for a read (R92, R243). -/
def State.remoteFlt (s : State) (d : Nat) (adr : DWord) (n : Nat) (q : Need) : Option FCode :=
  if spaceOf adr ≠ some .dom ∨ 2 ^ 57 < offOf adr + n then some .nomap
  else match firstFlt ((s.dom d).mapFlts adr (offOf adr) n q) with
    | some f => some f.code
    | none => if q.r && (s.poisonAt d (offOf adr) n).isSome then some .poison else none

/-- The ingress port whose queue a request takes: 36 for this chip's own. -/
def Pkt.port (p : Pkt) : Nat := min p.inp.toNat 36

def State.reqsAt (s : State) (n : Nat) : List Pkt := FMap.get [] s.fab.reqs n
def State.setReqs (s : State) (n : Nat) (l : List Pkt) : State := { s with fab := { s.fab with reqs := FMap.set [] s.fab.reqs n l } }

/-- The READ_DATA that answers a request of an admitted domain, or the NAK; the partner's Relight reads this chip's backup region
(R92, R531). -/
def State.readAnswer (s : State) (p : Pkt) : State :=
  let d := p.ddom.toNat
  let n := p.bytes.toNat
  let k := s.ck d
  let adr := if p.img then domAdr (offOf k.rgn + p.adr.toNat) else p.adr
  let s := s.readAll d [(adr, n)] { r := true, k := !p.img }
  if p.img && (!k.conf || decide (k.rgnLen < p.adr.toNat + n)) then s.nak p nakREJECT
  else match s.remoteFlt d adr n { r := true, k := !p.img } with
    | some e => s.nak p nakREJECT (BitVec.ofNat 8 e.num)
    | none => s.sendHeld { s.pktTo d p.src.toNat with
        tc := p.rtc, ptype := 3, bytes := p.bytes, data := s.rdDom d (offOf adr) n, adr := p.aux, img := p.img } .answer

/-- The READ_DATA of a request would leave at once: nothing of its class waits on the first hop of its way, or it has no way (R276). -/
def State.answerFree (s : State) (p : Pkt) : Bool :=
  match s.fab.launch { s.pktTo p.ddom.toNat p.src.toNat with tc := p.rtc, ptype := 3 } with
  | some (n, q) => (s.fab.link n).queue.all fun x => x.vc != q.vc
  | none => true

/-- Answer the requests of a port, first come first served, while the answers can leave (R283 rule 4). -/
def State.servePort (s : State) (n : Nat) : State :=
  (s.reqsAt n).foldl (fun (t : State) _ => match t.reqsAt n with
    | p :: r => if t.answerFree p then
        (let u := t.setReqs n r; if u.admits p then u.readAnswer p else u.reject p) else t
    | [] => t) s

/-- Answer the read requests whose answers can leave. -/
def State.serveReads (s : State) : State := (s.fab.reqs.map Prod.fst).foldl State.servePort s

/-- Send what waits at the egresses, and answer the requests that waited for them. -/
def State.pumped (s : State) : State := (s.onFab id).serveReads

end Sys2Proof.Machine
end

