-- ==== Sys2Proof/Machine/CkptRows.lean ====
section
/-! DEFINITION. The messages and timeouts of the checkpoint cut (R515, R518
to R523) as commands. -/

namespace Sys2Proof.Machine

/-- The domain that a control message of a job reaches, when its binding lists the sender's chip and domain (R520). -/
def State.ctrlDom (s : State) (p : Pkt) : Option Nat :=
  let d := p.ddom.toNat
  match (s.dom d).binding with
  | some b => if (s.dom d).there && b.domOn p.src.toNat == some p.sdom.toNat then some d else none
  | none => none

/-- CODE, A and B of a checkpoint message. -/
def Pkt.cutCode (p : Pkt) : Nat := p.pspec.toNat / 2 ^ 16 % 2 ^ 8
def Pkt.cutA (p : Pkt) : DWord := p.pspec.extractLsb' 64 64
def Pkt.cutB (p : Pkt) : DWord := p.pspec.extractLsb' 128 64

/-- Handle a checkpoint message (R520). -/
def State.onCut (s : State) (p : Pkt) (f : Nat → State → State) : State :=
  if s.dev.st != .run || p.ptype != 8 || p.dst.toNat != s.fab.chip then s
  else
  let s := s.freeIn p
  if p.badCtrl then s.countMalform
  else match s.ctrlDom p with
    | none => s.reject p
    | some d => f d (s.ack p)

/-! ### Commands -/

/-- CUT_REQ (R518). -/
def execCutReq (p : Pkt) (s : State) : Out :=
  .next (s.onCut p fun d s =>
    let s := if p.cutCode = 1 then { s with mgmt := { s.mgmt with gut := { s.mgmt.gut with recv := s.mgmt.gut.recv + 1 } } } else s
    let k := s.ck d
    if !k.conf then s.cutReport d
    else if k.req then s
    else (s.modCk d fun k => { k with req := true, reason := p.cutCode }).cutReport d)

/-- CUT_STAT at the coordinator (R519, R522). -/
def execCutStat (p : Pkt) (s : State) : Out :=
  .next (s.onCut p fun d s =>
    if s.coordOf d != s.fab.chip then s
    else s.coordStat d p.src.toNat { code := p.cutCode, step := p.cutA, floor := p.cutB })

/-- CUT_SET from the coordinator (R519). -/
def execCutSet (p : Pkt) (s : State) : Out :=
  .next (s.onCut p fun d s =>
    if p.src.toNat != s.coordOf d || !(s.ck d).conf then s else s.onCutSet d p.cutA p.cutB)

/-- CUT_COPY_DONE (R521 step 4): every packet of the image has its ACK, or the copy failed. -/
def execCutCopyDone (d : BitVec 8) (s : State) : Out :=
  let k := s.ck d.toNat
  .next (if s.dev.st != .run || k.copying.isNone || k.done then s
    else if k.bad then (s.dropImage d.toNat).copyReport d.toNat 5
    else if k.left = 0 then s.copyReport d.toNat 0 else s)

/-- CUT_DONE at the coordinator (R522). -/
def execCutDone (p : Pkt) (s : State) : Out :=
  .next (s.onCut p fun d s => if s.coordOf d != s.fab.chip then s else s.coordDone d p.src.toNat p.cutCode)

/-- CUT_COMMIT from the coordinator (R522). -/
def execCutCommit (p : Pkt) (s : State) : Out :=
  .next (s.onCut p fun d s =>
    if p.src.toNat != s.coordOf d || !(s.ck d).conf then s else s.onCutCommit d p.cutA p.cutB)

/-- CUT_ABORT from the coordinator (R522). -/
def execCutAbort (p : Pkt) (s : State) : Out :=
  .next (s.onCut p fun d s => if p.src.toNat != s.coordOf d then s else s.cutAbandon d p.cutCode)

/-- BUDDY_OK from the partner's last SIZE (R515). -/
def State.buddyCheck (s : State) (d : Nat) : State :=
  s.modCk d fun k => { k with buddyOk := match k.psize with
    | some z => k.conf && decide (s.imageLen d ≤ z.2)
    | none => false }

/-- Send SIZE to the partner. -/
def State.sendSize (s : State) (d : Nat) : State :=
  (s.sendCut d (buddyOf s.fab.chip) 0x0506 0 (BitVec.ofNat 64 (s.imageLen d)) (BitVec.ofNat 64 (s.ck d).rgnLen)).modCk d
    fun k => { k with sized := true }

/-- SIZE from the partner (R515). -/
def execCkptSize (p : Pkt) (s : State) : Out :=
  .next (s.onCut p fun d s =>
    if p.src.toNat != buddyOf s.fab.chip then s
    else
      let s := (s.modCk d fun k => { k with psize := some (p.cutA.toNat, p.cutB.toNat) }).buddyCheck d
      if (s.ck d).conf && !(s.ck d).sized then s.sendSize d else s)

/-- CUT_REPORT_TIMEOUT (R522): a chip is unreported 100 ms after the first CUT_STAT. -/
def execCutReportTimeout (d : BitVec 8) (s : State) : Out :=
  let k := s.ck d.toNat
  .next (match k.repAt with
    | some t => if s.dev.st == .run && k.set.isNone && decide (t + 100000000 ≤ s.beacon) then s.coordAbort d.toNat 1 else s
    | none => s)

/-- COPY_LIMIT_TIMEOUT (R522): this chip's own copy passed its limit, or the coordinator lacks a CUT_DONE. -/
def execCopyLimitTimeout (d : BitVec 8) (s : State) : Out :=
  let k := s.ck d.toNat
  let lim := k.limitMs * 1000000
  let own := match k.copying with | some t => !k.done && decide (t + lim ≤ s.beacon) | none => false
  let others := match k.doneAt with | some t => decide (t + lim ≤ s.beacon) | none => false
  .next (if s.dev.st != .run then s
    else if own then (s.dropImage d.toNat).copyReport d.toNat 5
    else if others then s.coordAbort d.toNat 1 else s)

/-- CUT_HOLD_TIMEOUT (R522): held 200 ms without CUT_SET. -/
def execCutHoldTimeout (d : BitVec 8) (s : State) : Out :=
  let k := s.ck d.toNat
  .next (match k.heldAt with
    | some h => if s.dev.st == .run && k.cut.isNone && decide (h.2 + 200000000 ≤ s.beacon) then s.cutAbandon d.toNat 1 else s
    | none => s)

end Sys2Proof.Machine
end

