-- ==== Sys2Proof/Machine/Access.lean ====
section
/-! DEFINITION. What the register interface does around every access (spec/17_register_interface.md): blocks, access errors, locked
writes, the guarded dual writes, and admission of PF0 writes. -/

namespace Sys2Proof.Machine

def State.modRegs (s : State) (f : RegSt → RegSt) : State := { s with mgmt := { s.mgmt with regs := f s.mgmt.regs } }

/-- The block of a management BAR0 offset by its index (R593); 16 and above: reserved. -/
def blockOf (off : Nat) : Nat :=
  let m := off / 2 ^ 20
  if m = 7 then 6 else if m = 11 then 10 else if 12 ≤ m ∧ m ≤ 15 then 12 else m

/-- PF0's BAR0 is reachable: the device is in HOLD or RUN and the host link is up (R535, R608). -/
def State.pf0Up (s : State) : Bool := (s.dev.st == .hold || s.dev.st == .run) && !s.mgmt.pins.perst

/-- Set a bit of BLK_ERR, or of VF_ERR for function `fn` (R591). A reserved region belongs to no block. -/
def RegSt.setErr (r : RegSt) (fn off bit : Nat) : RegSt :=
  if fn = 0 ∧ 16 ≤ blockOf off then r
  else { r with err := FMap.modify 0 r.err (if fn = 0 then blockOf off else 1000 + fn) fun v => v ||| 2 ^ bit }

/-- An access error (R592): kinds 1 NARROW, 2 UNALIGNED, 3 WIDE, 4 RESERVED, 5 BLOCKED, 6 INDIRECT, 7 PAIR, 8 REFUSED. -/
def State.accErr (s : State) (fn off kind : Nat) (wr : Bool) : State :=
  s.modRegs fun r => { (r.setErr fn off 1) with
    accCnt := satAdd 64 r.accCnt 1, accOff := off, accFn := fn, accKind := kind, accWr := wr }

/-- The security-class registers (R581). -/
def secClass (off : Nat) : Bool :=
  blockOf off == 2 || [0x60000C, 0x40000C, 0x400010, 0x400014, 0x500030, 0x300404].contains off

/-- A locked write (R580), and LOCKBURST at the 16th of the security class within one Beacon second (R581). -/
def State.lockErr (s : State) (fn off : Nat) : State :=
  let c := decide (fn = 0) && secClass off
  let s := s.modRegs fun r => { (r.setErr fn off 0) with
    lockCnt := satAdd 64 r.lockCnt 1, lockOff := off, lockFn := fn, lockSec := c }
  if !c then s
  else
    let sec := s.beacon / 1000000000
    let n := if s.sec.burst.1 = sec then s.sec.burst.2 + 1 else 1
    let s := { s with sec := { s.sec with burst := (sec, n) } }
    if n = 16 then s.secEvent 2 none else s

/-! ### Guarded dual writes (R583, R584) -/

/-- A broken sequence: nothing is applied, the window closes, GUARD is raised once. `off` names the block. -/
def State.guardBreak (s : State) (off : Nat) : State :=
  (s.modRegs fun r => { (r.setErr 0 off 2) with guard := none }).secEvent 1 none

/-- The window open now, unless it has expired. -/
def State.guardExpire (s : State) : State :=
  match s.mgmt.regs.guard with
  | some (o, _, t) => if t + 4096 < s.clk then s.guardBreak o else s
  | none => s

/-- Any PF0 write breaks an open window. -/
def State.guardAny (s : State) : State :=
  match s.mgmt.regs.guard with
  | some (o, _, _) => s.guardBreak o
  | none => s

/-- PF0 writes to SECURITY are dropped while an A1 blocks it (R582). -/
def State.a1Blocks (s : State) (off : Nat) : Bool := s.sec.a1block && blockOf off == 2

/-- A block the Snuffer has closed (R401). -/
def State.snufCloses (s : State) (off : Nat) : Bool := s.sec.snuffed && blockOf off != 0 && blockOf off != 2

/-- A PF0 write to a register: what R400, R401 and R583 do before `act`. -/
def State.pfWrite (s : State) (off : Nat) (act : State → State) : State :=
  if !s.pf0Up then s
  else
    let s := s.guardExpire
    if s.a1Blocks off then s.accErr 0 off 5 true
    else
      let s := s.guardAny
      if s.snufCloses off then s.accErr 0 off 5 true else act s

/-- The value write of a guarded register: the window opens. -/
def State.gdwValue (s : State) (off : Nat) (v : Word) : State :=
  s.pfWrite off fun s => s.modRegs fun r => { r with guard := some (off, v, s.clk) }

/-- The complement write: accepted in an open window of this register when it matches, else a broken sequence. `mine` says whether
the event is about the window's value. -/
def State.gdwCompl (s : State) (off : Nat) (c : Word) (mine : Word → Bool) (act : State → Word → State) : State :=
  if !s.pf0Up then s
  else
    let s := s.guardExpire
    if s.a1Blocks off || s.snufCloses off then s.accErr 0 (off + 4) 5 true
    else match s.mgmt.regs.guard with
      | some (o, v, _) =>
        if o = off ∧ c = ~~~v then (if mine v then act (s.modRegs fun r => { r with guard := none }) v else s)
        else s.guardBreak o
      | none => s.guardBreak off

/-! ### Interface commands -/

/-- GUARD_WINDOW_EXPIRE (R583). -/
def execGuardWindowExpire (s : State) : Out := .next s.guardExpire

end Sys2Proof.Machine
end

