-- ==== Sys2Proof/Machine/Amsum.lean ====
section
/-! DEFINITION. The Amsum instructions (spec/04_amsum_encoding.md, 05_amsum_operations.md) as commands: a Wick issues a
bundle that holds the named instruction in its slot. -/

namespace Sys2Proof.Machine

/-- NOP in the M slot (R113): the word is all zero, and the slot does nothing. -/
def execNop (w : WickRef) (b : Bundle) (s : State) : Out := .next (s.issue w { b with m := 0 })

/-- MMA in the M slot (R150). -/
def execMma (w : WickRef) (b : Bundle) (s : State) : Out := .next (s.issue w (b.opM 0x01))

/-- TZERO in the M slot (R153). -/
def execTzero (w : WickRef) (b : Bundle) (s : State) : Out := .next (s.issue w (b.opM 0x02))

/-- TCOPY in the M slot (R153). -/
def execTcopy (w : WickRef) (b : Bundle) (s : State) : Out := .next (s.issue w (b.opM 0x03))

/-- TGET in the M slot (R153). -/
def execTget (w : WickRef) (b : Bundle) (s : State) : Out := .next (s.issue w (b.opM 0x04))

/-- TPUT in the M slot (R153). -/
def execTput (w : WickRef) (b : Bundle) (s : State) : Out := .next (s.issue w (b.opM 0x05))

/-- ATTN_BLK_FWD in the M slot (R156). -/
def execAttnBlkFwd (w : WickRef) (b : Bundle) (s : State) : Out := .next (s.issue w (b.opM 0x08))

/-- ATTN_BLK_BWD in the M slot (R157). -/
def execAttnBlkBwd (w : WickRef) (b : Bundle) (s : State) : Out := .next (s.issue w (b.opM 0x09))

/-- VADD in the V slot (R158). -/
def execVadd (w : WickRef) (b : Bundle) (s : State) : Out := .next (s.issue w (b.opV 0x40))

/-- VSUB in the V slot (R158). -/
def execVsub (w : WickRef) (b : Bundle) (s : State) : Out := .next (s.issue w (b.opV 0x41))

/-- VMUL in the V slot (R158). -/
def execVmul (w : WickRef) (b : Bundle) (s : State) : Out := .next (s.issue w (b.opV 0x42))

/-- VFMA in the V slot (R158). -/
def execVfma (w : WickRef) (b : Bundle) (s : State) : Out := .next (s.issue w (b.opV 0x43))

/-- VDIV in the V slot (R158). -/
def execVdiv (w : WickRef) (b : Bundle) (s : State) : Out := .next (s.issue w (b.opV 0x44))

/-- VSQRT in the V slot (R158). -/
def execVsqrt (w : WickRef) (b : Bundle) (s : State) : Out := .next (s.issue w (b.opV 0x45))

/-- VMAX in the V slot (R67). -/
def execVmax (w : WickRef) (b : Bundle) (s : State) : Out := .next (s.issue w (b.opV 0x46))

/-- VMIN in the V slot (R67). -/
def execVmin (w : WickRef) (b : Bundle) (s : State) : Out := .next (s.issue w (b.opV 0x47))

/-- VNEG in the V slot (R158). -/
def execVneg (w : WickRef) (b : Bundle) (s : State) : Out := .next (s.issue w (b.opV 0x48))

/-- VABS in the V slot (R158). -/
def execVabs (w : WickRef) (b : Bundle) (s : State) : Out := .next (s.issue w (b.opV 0x49))

/-- VSIGN in the V slot (R67). -/
def execVsign (w : WickRef) (b : Bundle) (s : State) : Out := .next (s.issue w (b.opV 0x4A))

/-- VEXP2 in the V slot (R163). -/
def execVexp2 (w : WickRef) (b : Bundle) (s : State) : Out := .next (s.issue w (b.opV 0x4B))

/-- VLOG2 in the V slot (R164). -/
def execVlog2 (w : WickRef) (b : Bundle) (s : State) : Out := .next (s.issue w (b.opV 0x4C))

/-- VCMPEQ in the V slot (R158). -/
def execVcmpeq (w : WickRef) (b : Bundle) (s : State) : Out := .next (s.issue w (b.opV 0x50))

/-- VCMPNE in the V slot (R158). -/
def execVcmpne (w : WickRef) (b : Bundle) (s : State) : Out := .next (s.issue w (b.opV 0x51))

/-- VCMPLT in the V slot (R158). -/
def execVcmplt (w : WickRef) (b : Bundle) (s : State) : Out := .next (s.issue w (b.opV 0x52))

/-- VCMPLE in the V slot (R158). -/
def execVcmple (w : WickRef) (b : Bundle) (s : State) : Out := .next (s.issue w (b.opV 0x53))

/-- VCLASS in the V slot (R159). -/
def execVclass (w : WickRef) (b : Bundle) (s : State) : Out := .next (s.issue w (b.opV 0x54))

/-- VSEL in the V slot (R158). -/
def execVsel (w : WickRef) (b : Bundle) (s : State) : Out := .next (s.issue w (b.opV 0x55))

/-- VCVT in the V slot (R160). -/
def execVcvt (w : WickRef) (b : Bundle) (s : State) : Out := .next (s.issue w (b.opV 0x58))

/-- VRAND in the V slot (R161). -/
def execVrand (w : WickRef) (b : Bundle) (s : State) : Out := .next (s.issue w (b.opV 0x59))

/-- VREDSUM in the V slot (R64). -/
def execVredsum (w : WickRef) (b : Bundle) (s : State) : Out := .next (s.issue w (b.opV 0x60))

/-- VREDMAX in the V slot (R64). -/
def execVredmax (w : WickRef) (b : Bundle) (s : State) : Out := .next (s.issue w (b.opV 0x61))

/-- VREDMIN in the V slot (R64). -/
def execVredmin (w : WickRef) (b : Bundle) (s : State) : Out := .next (s.issue w (b.opV 0x62))

/-- VIADD in the V slot (R162). -/
def execViadd (w : WickRef) (b : Bundle) (s : State) : Out := .next (s.issue w (b.opV 0x68))

/-- VISUB in the V slot (R162). -/
def execVisub (w : WickRef) (b : Bundle) (s : State) : Out := .next (s.issue w (b.opV 0x69))

/-- VIMUL in the V slot (R162). -/
def execVimul (w : WickRef) (b : Bundle) (s : State) : Out := .next (s.issue w (b.opV 0x6A))

/-- VAND in the V slot (R162). -/
def execVand (w : WickRef) (b : Bundle) (s : State) : Out := .next (s.issue w (b.opV 0x6B))

/-- VOR in the V slot (R162). -/
def execVor (w : WickRef) (b : Bundle) (s : State) : Out := .next (s.issue w (b.opV 0x6C))

/-- VXOR in the V slot (R162). -/
def execVxor (w : WickRef) (b : Bundle) (s : State) : Out := .next (s.issue w (b.opV 0x6D))

/-- VSHL in the V slot (R162). -/
def execVshl (w : WickRef) (b : Bundle) (s : State) : Out := .next (s.issue w (b.opV 0x6E))

/-- VSHR in the V slot (R162). -/
def execVshr (w : WickRef) (b : Bundle) (s : State) : Out := .next (s.issue w (b.opV 0x6F))

/-- VSRA in the V slot (R162). -/
def execVsra (w : WickRef) (b : Bundle) (s : State) : Out := .next (s.issue w (b.opV 0x70))

/-- VPERM in the V slot (R162). -/
def execVperm (w : WickRef) (b : Bundle) (s : State) : Out := .next (s.issue w (b.opV 0x71))

/-- PAND in the V slot (R162). -/
def execPand (w : WickRef) (b : Bundle) (s : State) : Out := .next (s.issue w (b.opV 0x74))

/-- POR in the V slot (R162). -/
def execPor (w : WickRef) (b : Bundle) (s : State) : Out := .next (s.issue w (b.opV 0x75))

/-- PXOR in the V slot (R162). -/
def execPxor (w : WickRef) (b : Bundle) (s : State) : Out := .next (s.issue w (b.opV 0x76))

/-- PNOT in the V slot (R162). -/
def execPnot (w : WickRef) (b : Bundle) (s : State) : Out := .next (s.issue w (b.opV 0x77))

/-- LD in the X slot (R165); `ev` is what the memory meets. -/
def execLd (w : WickRef) (b : Bundle) (ev : MemEv) (s : State) : Out :=
  .next ((s.scalarLine w (b.opX 0x80) ev).issue w (b.opX 0x80))

/-- ST in the X slot (R165); `ev` is what the memory meets. -/
def execSt (w : WickRef) (b : Bundle) (ev : MemEv) (s : State) : Out :=
  .next ((s.scalarLine w (b.opX 0x81) ev).issue w (b.opX 0x81))

/-- VLD in the X slot (R165). -/
def execVld (w : WickRef) (b : Bundle) (s : State) : Out := .next (s.issue w (b.opX 0x82))

/-- VST in the X slot (R165). -/
def execVst (w : WickRef) (b : Bundle) (s : State) : Out := .next (s.issue w (b.opX 0x83))

/-- TLD in the X slot (R165). -/
def execTld (w : WickRef) (b : Bundle) (s : State) : Out := .next (s.issue w (b.opX 0x84))

/-- TST in the X slot (R165). -/
def execTst (w : WickRef) (b : Bundle) (s : State) : Out := .next (s.issue w (b.opX 0x85))

/-- DMA in the X slot (R168). -/
def execDmaIssue (w : WickRef) (b : Bundle) (s : State) : Out := .next (s.issue w (b.opX 0x88))

/-- TOKD in the X slot (R172). -/
def execTokd (w : WickRef) (b : Bundle) (s : State) : Out := .next (s.issue w (b.opX 0x8C))

/-- MOVI in the X slot (R167). -/
def execMovi (w : WickRef) (b : Bundle) (s : State) : Out := .next (s.issue w (b.opX 0x90))

/-- MOVHI in the X slot (R167). -/
def execMovhi (w : WickRef) (b : Bundle) (s : State) : Out := .next (s.issue w (b.opX 0x91))

/-- MOVSA in the X slot (R143). -/
def execMovsa (w : WickRef) (b : Bundle) (s : State) : Out := .next (s.issue w (b.opX 0x92))

/-- MOVAS in the X slot (R143). -/
def execMovas (w : WickRef) (b : Bundle) (s : State) : Out := .next (s.issue w (b.opX 0x93))

/-- MOVSW in the X slot (R78). -/
def execMovsw (w : WickRef) (b : Bundle) (s : State) : Out := .next (s.issue w (b.opX 0x94))

/-- VGETL in the X slot (R143). -/
def execVgetl (w : WickRef) (b : Bundle) (s : State) : Out := .next (s.issue w (b.opX 0x95))

/-- VSETL in the X slot (R143). -/
def execVsetl (w : WickRef) (b : Bundle) (s : State) : Out := .next (s.issue w (b.opX 0x96))

/-- VBCAST in the X slot (R143). -/
def execVbcast (w : WickRef) (b : Bundle) (s : State) : Out := .next (s.issue w (b.opX 0x97))

/-- AADD in the X slot (R167). -/
def execAadd (w : WickRef) (b : Bundle) (s : State) : Out := .next (s.issue w (b.opX 0x98))

/-- AADDI in the X slot (R167). -/
def execAaddi (w : WickRef) (b : Bundle) (s : State) : Out := .next (s.issue w (b.opX 0x99))

/-- ASET in the X slot (R143). -/
def execAset (w : WickRef) (b : Bundle) (s : State) : Out := .next (s.issue w (b.opX 0x9A))

/-- PFROMV in the X slot (R143). -/
def execPfromv (w : WickRef) (b : Bundle) (s : State) : Out := .next (s.issue w (b.opX 0x9B))

/-- PTOV in the X slot (R143). -/
def execPtov (w : WickRef) (b : Bundle) (s : State) : Out := .next (s.issue w (b.opX 0x9C))

/-- ADD in the C slot (R173). -/
def execAdd (w : WickRef) (b : Bundle) (s : State) : Out := .next (s.issue w (b.opC 0xC0))

/-- SUB in the C slot (R173). -/
def execSub (w : WickRef) (b : Bundle) (s : State) : Out := .next (s.issue w (b.opC 0xC1))

/-- MUL in the C slot (R173). -/
def execMul (w : WickRef) (b : Bundle) (s : State) : Out := .next (s.issue w (b.opC 0xC2))

/-- AND in the C slot (R144). -/
def execAndS (w : WickRef) (b : Bundle) (s : State) : Out := .next (s.issue w (b.opC 0xC3))

/-- OR in the C slot (R144). -/
def execOrS (w : WickRef) (b : Bundle) (s : State) : Out := .next (s.issue w (b.opC 0xC4))

/-- XOR in the C slot (R144). -/
def execXorS (w : WickRef) (b : Bundle) (s : State) : Out := .next (s.issue w (b.opC 0xC5))

/-- SHL in the C slot (R173). -/
def execShl (w : WickRef) (b : Bundle) (s : State) : Out := .next (s.issue w (b.opC 0xC6))

/-- SHR in the C slot (R173). -/
def execShr (w : WickRef) (b : Bundle) (s : State) : Out := .next (s.issue w (b.opC 0xC7))

/-- SRA in the C slot (R173). -/
def execSra (w : WickRef) (b : Bundle) (s : State) : Out := .next (s.issue w (b.opC 0xC8))

/-- SLT in the C slot (R144). -/
def execSlt (w : WickRef) (b : Bundle) (s : State) : Out := .next (s.issue w (b.opC 0xC9))

/-- SLTU in the C slot (R144). -/
def execSltu (w : WickRef) (b : Bundle) (s : State) : Out := .next (s.issue w (b.opC 0xCA))

/-- BR in the C slot (R122). -/
def execBr (w : WickRef) (b : Bundle) (s : State) : Out := .next (s.issue w (b.opC 0xD0))

/-- BEQ in the C slot (R173). -/
def execBeq (w : WickRef) (b : Bundle) (s : State) : Out := .next (s.issue w (b.opC 0xD1))

/-- BNE in the C slot (R173). -/
def execBne (w : WickRef) (b : Bundle) (s : State) : Out := .next (s.issue w (b.opC 0xD2))

/-- BLT in the C slot (R173). -/
def execBlt (w : WickRef) (b : Bundle) (s : State) : Out := .next (s.issue w (b.opC 0xD3))

/-- BGE in the C slot (R173). -/
def execBge (w : WickRef) (b : Bundle) (s : State) : Out := .next (s.issue w (b.opC 0xD4))

/-- BLTU in the C slot (R173). -/
def execBltu (w : WickRef) (b : Bundle) (s : State) : Out := .next (s.issue w (b.opC 0xD5))

/-- BGEU in the C slot (R173). -/
def execBgeu (w : WickRef) (b : Bundle) (s : State) : Out := .next (s.issue w (b.opC 0xD6))

/-- LOOP in the C slot (R173). -/
def execLoop (w : WickRef) (b : Bundle) (s : State) : Out := .next (s.issue w (b.opC 0xD7))

/-- JR in the C slot (R122). -/
def execJr (w : WickRef) (b : Bundle) (s : State) : Out := .next (s.issue w (b.opC 0xD8))

/-- CALL in the C slot (R173). -/
def execCall (w : WickRef) (b : Bundle) (s : State) : Out := .next (s.issue w (b.opC 0xD9))

/-- FSIG in the C slot (R174). -/
def execFsig (w : WickRef) (b : Bundle) (s : State) : Out := .next (s.issue w (b.opC 0xE0))

/-- FWAIT in the C slot (R175). -/
def execFwait (w : WickRef) (b : Bundle) (s : State) : Out := .next (s.issue w (b.opC 0xE1))

/-- FOWN in the C slot (R176). -/
def execFown (w : WickRef) (b : Bundle) (s : State) : Out := .next (s.issue w (b.opC 0xE2))

/-- ALLOC in the C slot (R177). -/
def execAllocMem (w : WickRef) (b : Bundle) (s : State) : Out := .next (s.issue w (b.opC 0xE8))

/-- FREE in the C slot (R177). -/
def execFreeMem (w : WickRef) (b : Bundle) (s : State) : Out := .next (s.issue w (b.opC 0xE9))

/-- STEP in the C slot (R178). -/
def execStepBarrier (w : WickRef) (b : Bundle) (s : State) : Out := .next (s.issue w (b.opC 0xEA))

/-- COLL in the C slot (R179). -/
def execColl (w : WickRef) (b : Bundle) (s : State) : Out := .next (s.issue w (b.opC 0xEC))

/-- UPD in the C slot (R179). -/
def execUpd (w : WickRef) (b : Bundle) (s : State) : Out := .next (s.issue w (b.opC 0xED))

/-- HALT in the C slot (R180). -/
def execHalt (w : WickRef) (b : Bundle) (s : State) : Out := .next (s.issue w (b.opC 0xFE))

/-- MATRIX_OP_EXECUTE (R148): the oldest queued matrix operation of a Wick executes. -/
def execMatrixOpExecute (w : WickRef) (ev : LineEv) (s : State) : Out :=
  .next (if s.canExec w then s.matrixStep w.d w.c w.key (ev == .failed) else s)

/-- DMA_TRANSFER_COMPLETE (R84): the transfer at the head of a queue runs or completes. -/
def execDmaTransferComplete (w : WickRef) (q : BitVec 4) (ev : MemEv) (s : State) : Out := .next (s.dmaStep w q.toNat ev)

/-- FWAIT_SATISFIED (R98): a signal through the fence path makes a waiting Wick re-evaluate. -/
def execFwaitSatisfied (w : WickRef) (s : State) : Out := .next (s.endWait w false)

/-- FWAIT_TIMEOUT (R97). -/
def execFwaitTimeout (w : WickRef) (s : State) : Out := .next (s.endWait w true)

/-- FWAIT_REREAD (R98): every waited word is read again, so a plain store to it is seen. -/
def execFwaitReread (s : State) : Out := .next (s.allWicks.foldl (fun t w => t.endWait w false) s)

/-- STEP_TIMEOUT (R178). -/
def execStepTimeout (w : WickRef) (s : State) : Out := .next (s.stepExpire w)

/-- DEADLOCK_SCAN (R100). -/
def execDeadlockScan (s : State) : Out := .next s.deadlockScan

end Sys2Proof.Machine
end

