-- ==== Sys2Proof/Machine/Beacon.lean ====
section
/-! DEFINITION. Beacon time (R473 to R481), trigger slots (R482 to R487), quiet windows (R39, R490): what the device does,
and the rows of the command table that are events of the Beacon logic. -/

namespace Sys2Proof.Machine

/-! ### Time -/

/-- A nanosecond passes: the Beacon advances by one, by two or by none every 10 µs while a correction is absorbed (R479). -/
def State.tickBeacon (s : State) : State :=
  let b := s.bcn
  let slew := (s.clk + 1) % 10000 == 0
  if slew && decide (16 ≤ b.absorb) then
    { s with clk := s.clk + 1, beacon := s.beacon + 2, bcn := { b with absorb := b.absorb - 16 } }
  else if slew && decide (b.absorb ≤ -16) then
    { s with clk := s.clk + 1, bcn := { b with absorb := b.absorb + 16 } }
  else { s with clk := s.clk + 1, beacon := s.beacon + 1 }

/-- BCN_STAT.FAULT (R479). -/
def BcnSt.fault (b : BcnSt) : Bool := decide (16000000 < b.absorb.natAbs)

/-- Enter a Beacon state. -/
def State.bcnTo (s : State) (st : BcnState) : State :=
  let b := s.bcn
  { s with bcn := { b with
    st := st, first := b.first || st == .locked || st == .local_
    holdAt := if st = .holdover then some (b.holdAt.getD s.beacon) else none
    good := if st = .acquire then 0 else b.good } }

/-- The error bound of HOLDOVER (R481): with a reference 10 ns and 1 ns per minute, unless SYNC_IN is there too; with
neither, 10 ns, 1 µs and 100 µs up to 100 ms, 10 s and 1,000 s; beyond that an estimate of the device (log 32). -/
def State.holdEst (s : State) : Word :=
  match s.bcn.holdAt with
  | none => 0
  | some t =>
    let e := s.beacon - t
    if s.bcn.ref then (if s.bcn.syncAt.isSome then 10 else BitVec.ofNat 32 (10 + e / 60000000000))
    else if e ≤ 100000000 then 10 else if e ≤ 10000000000 then 1000 else if e ≤ 1000000000000 then 100000
    else Config.measured s.free

/-! ### Modes and first lock (R475, R476) -/

/-- A slot at the one setting of the Beacon (R475): an armed absolute slot whose target a forward step passes is LATE; the firmware arms
its other ones again on the new scale (log 72). -/
def Trig.stepped (t : Trig) (fw : Bool) (old new : Nat) : Trig :=
  if t.en && !t.mode then
    (if old < t.time.toNat ∧ t.time.toNat < new then { t with late := true }
     else if fw && decide (old < t.time.toNat) then { t with time := BitVec.ofNat 64 (t.time.toNat - old + new) }
     else t)
  else t

/-- The one setting of the Beacon (R475). A firmware wait that is timed in Beacon time is timed again from it. -/
def State.setBeacon (s : State) (b : Nat) : State :=
  { s with
    beacon := b
    bcn := { s.bcn with trigs := s.bcn.trigs.map fun (p : Nat × Trig) => (p.1, p.2.stepped (decide (p.1 < 64)) s.beacon b) }
    mgmt := { s.mgmt with
      pwr := { s.mgmt.pwr with planAt := b }
      soot := { s.mgmt.soot with irqAt := if s.mgmt.soot.irqAt = 0 then 0 else b } } }

/-- MODE is written, its lock bit being 0. -/
def State.setBcnMode (s : State) (m : Nat) : State :=
  if m = 3 ∨ (m = 1 ∧ s.bcn.epoch.toNat % 1000000000 ≠ 0) then { s with bcn := { s.bcn with mrefused := true } }
  else
    let s := { s with bcn := { s.bcn with mode := m } }
    if m = 2 then (s.setBeacon s.bcn.epoch.toNat).bcnTo .local_ else s

/-- BCN_EPOCH is written, its lock bit being 0; MASTER accepts whole seconds only. -/
def State.setEpoch (s : State) (v : DWord) : State :=
  if s.bcn.mode = 1 ∧ v.toNat % 1000000000 ≠ 0 then { s with bcn := { s.bcn with mrefused := true } }
  else { s with bcn := { s.bcn with epoch := v } }

/-! ### Exchanges (R477, R478) -/

/-- The chip's stratum as it announces it: 0 for a LOCKED master, one more than its upstream's, 15 when LOCAL or not LOCKED. -/
def State.stratum (s : State) : Nat :=
  if s.bcn.st != .locked then 15
  else if s.bcn.mode = 1 then 0
  else match s.bcn.uplink with
    | some u => match FMap.find? s.bcn.neigh u with
      | some n => min 15 (n.stratum + 1)
      | none => 15
    | none => 15

/-- A timestamp: Beacon time in 1/16 ns. -/
def State.stamp (s : State) : DWord := BitVec.ofNat 64 (s.beacon * 16)

/-- A Beacon message on a link that is UP (R253, R477). -/
def State.sendBcn (s : State) (n ty : Nat) (seq : BitVec 32) (ta tb : DWord) : State :=
  s.onFab fun f => f.cast [n] (BitVec.ofNat 192 (ty + s.stratum * 2 ^ 16 + s.bcn.st.num * 2 ^ 24 + seq.toNat * 2 ^ 32 + ta.toNat * 2 ^ 64
    + tb.toNat * 2 ^ 128))

/-- A neighbour qualifies as upstream (R478). -/
def State.qualifies (s : State) (n : Nat) : Bool :=
  (s.fab.link n).st == .up && (match FMap.find? s.bcn.neigh n with
    | some x => x.state == 2 && decide (x.stratum ≤ 14)
    | none => false)

/-- Preference among neighbours: stratum, chip, link. -/
def neighBefore (a b : Nat × Neigh) : Bool :=
  decide (a.2.stratum < b.2.stratum) || (a.2.stratum == b.2.stratum &&
    (decide (a.2.chip < b.2.chip) || (a.2.chip == b.2.chip && decide (a.1 ≤ b.1))))

/-- The best neighbour that qualifies. -/
def State.bestUp (s : State) : Option Nat :=
  ((sortBy neighBefore (s.bcn.neigh.filter fun p => s.qualifies p.1)).head?).map (·.1)

/-- Choose the upstream again: the current one stays while it qualifies; losing all of them is HOLDOVER, finding one again
ACQUIRE (R478, R481). -/
def State.bcnEval (s : State) : State :=
  if s.bcn.mode != 0 then s
  else
    let keep := match s.bcn.uplink with | some u => s.qualifies u | none => false
    let up := if keep then s.bcn.uplink else s.bestUp
    let s := { s with bcn := { s.bcn with uplink := up } }
    match up with
    | none => if s.bcn.st = .locked ∨ s.bcn.st = .acquire ∧ s.bcn.first then s.bcnTo .holdover else s
    | some u =>
      let cur := match FMap.find? s.bcn.neigh u with | some n => n.stratum | none => 15
      let s := { s with bcn := { s.bcn with neigh := s.bcn.neigh.map fun (p : Nat × Neigh) =>
        (p.1, { p.2 with lower := if s.qualifies p.1 && decide (p.2.stratum < cur) then some (p.2.lower.getD s.beacon) else none }) } }
      if s.bcn.st = .holdover then s.bcnTo .acquire else s

/-- The signed value of a 64-bit difference. -/
def sdiff (a b : DWord) : Int := (a - b).toInt

/-- SYNC_RSP (R477): offset and delay, and what they do to the Beacon. -/
def State.onSyncRsp (s : State) (n : Nat) (seq : BitVec 32) (t2 t3 : DWord) : State :=
  match s.bcn.asked with
  | none => s
  | some (q, t1) =>
    if q != seq || s.bcn.uplink != some n || s.bcn.mode != 0 then s
    else
      let t4 := s.stamp
      let off := (sdiff t2 t1 - sdiff t4 t3) / 2
      let dly := (sdiff t4 t1 - sdiff t3 t2) / 2
      let good := if off.natAbs < 32 then s.bcn.good + 1 else 0
      let s := { s with bcn := { s.bcn with
        asked := none, off := BitVec.ofInt 32 off, dly := BitVec.ofInt 32 dly, good := good } }
      if s.bcn.st = .free then
        (s.setBeacon ((s.beacon : Int) + off / 16).toNat).bcnTo .acquire
      else
        let s := { s with bcn := { s.bcn with absorb := off } }
        if s.bcn.st = .acquire ∧ 16 ≤ good then s.bcnTo .locked else s

/-- A SYNC_IN edge (R476, R479, R481). -/
def State.onSyncEdge (s : State) : State :=
  if s.bcn.mode = 1 ∧ ¬ s.bcn.first then
    let s := s.setBeacon s.bcn.epoch.toNat
    ({ s with bcn := { s.bcn with syncAt := some s.bcn.epoch.toNat } } : State).bcnTo .locked
  else
    let r := s.beacon % 1000000000
    let err : Int := if r ≤ 500000000 then -(r : Int) else 1000000000 - (r : Int)
    if 100 < err.natAbs then { s with bcn := { s.bcn with syncMiss := satAdd 64 s.bcn.syncMiss 1 } }
    else
      let s := { s with bcn := { s.bcn with syncAt := some s.beacon } }
      if s.bcn.mode = 1 then
        let s := { s with bcn := { s.bcn with absorb := 16 * err } }
        if s.bcn.st = .locked then s else s.bcnTo .locked
      else s

/-! ### Trigger slots (R482 to R487) -/

def State.trig (s : State) (n : Nat) : Trig := FMap.get {} s.bcn.trigs n
def State.setTrig (s : State) (n : Nat) (t : Trig) : State := { s with bcn := { s.bcn with trigs := FMap.set {} s.bcn.trigs n t } }

/-- The actions an owner may use (R483). -/
def trigMay (n action : Nat) : Bool :=
  if n < 64 then [1, 2, 3, 4, 5].contains action else if n < 128 then [1, 2].contains action else [5, 6].contains action

/-- The target time has been reached (R485). -/
def State.trigDue (s : State) (t : Trig) : Bool :=
  t.en && (if t.mode then (match t.due with | some r => decide (r + t.time.toNat ≤ s.beacon) | none => false)
    else decide (t.time.toNat ≤ s.beacon))

/-- The latest reference step time of a slot's owner: DOM_STEP_TIME for a domain's, the pacing context's else (R486). -/
def State.stepRef (s : State) (n : Nat) (t : Trig) : Option Nat :=
  if 128 ≤ n then (if (s.dom t.dom).stepTime = 0 then none else some (s.dom t.dom).stepTime.toNat) else s.bcn.steps.getLast?

/-- The target of a slot that is being armed is already past (R485). -/
def State.trigPast (s : State) (n : Nat) (t : Trig) : Bool :=
  if t.mode then (match s.stepRef n t with | some r => decide (r + t.time.toNat < s.beacon) | none => false)
  else decide (t.time.toNat < s.beacon)

/-- EN is set (R484, R485): refused, or armed. The reference of a step-relative slot is the latest one. -/
def State.armTrig (s : State) (n : Nat) (t : Trig) : State :=
  if !trigMay n t.action || (t.mode && t.period != 0) || (t.action == 6 && tb t.arg 63) then
    { s.setTrig n { t with en := false } with bcn := { (s.setTrig n { t with en := false }).bcn with trefused := true } }
  else
    s.setTrig n { t with
      en := true, fired := false, late := t.late || s.trigPast n t, k := 0, due := if t.mode then s.stepRef n t else none }

/-- What firing leaves of a slot (R486). -/
def Trig.after (t : Trig) (now : Nat) : Trig :=
  let t := { t with fired := true, k := t.k + 1, due := none }
  if t.count = 1 then { t with en := false, count := 0 }
  else
    let t := { t with count := t.count - 1 }
    if t.mode then t
    else if t.period = 0 then { t with en := false }
    else
      let n := (now - t.time.toNat) / t.period.toNat + 1
      { t with time := BitVec.ofNat 64 (t.time.toNat + n * t.period.toNat), missed := satAdd 32 t.missed (n - 1) }

/-- Fire a slot whose target has been reached and whose action is `a`: `f` is the effect. A domain's slot that is done is
free again (R487). -/
def State.fire (s : State) (n a : Nat) (f : Trig → State → State) : State :=
  let t := s.trig n
  if !s.trigDue t || t.action != a then s
  else
    let t' := t.after s.beacon
    f t (if decide (128 ≤ n) && !t'.en then s.setTrig n {} else s.setTrig n t')

/-- TRIGGER_ARM (R487): the slot, or a status. -/
def State.trigArm (s : State) (d : Nat) (t : Trig) (valBad : Bool) : Except Nat (State × Nat) :=
  let live := s.bcn.trigs.filter fun p => decide (128 ≤ p.1) && p.2.en
  if valBad || !(t.action == 5 || t.action == 6) || (t.mode && t.period != 0) then .error stBADDESC
  else if 8 ≤ (live.filter fun p => p.2.dom == d).length then .error stNOSPACE
  else match ((List.range 128).map (· + 128)).find? (fun n => !(s.trig n).en) with
    | none => .error stNOSPACE
    | some n => .ok (s.armTrig n { t with dom := d }, n)

/-- TRIGGER_CANCEL (R487). -/
def State.trigCancel (s : State) (d n : Nat) : State × Nat :=
  if 128 ≤ n ∧ n < 256 ∧ (s.trig n).en = true ∧ (s.trig n).dom = d then (s.setTrig n {}, stOK) else (s, stBADADDR)

/-! ### Quiet windows (R39, R490) -/

def State.modPwr (s : State) (f : PwrSt → PwrSt) : State := { s with mgmt := { s.mgmt with pwr := f s.mgmt.pwr } }

/-- Open a quiet window on a link (0 to 35) or a memory channel (0x40 + controller). -/
def State.openQuiet (s : State) (unit ch : Nat) : State :=
  let k := unit * 256 + (if unit < 36 then 0 else ch)
  let s := s.modPwr fun x => { x with
    calWin := x.calWin + 1, calUrg := x.calUrg + (if FMap.find? x.wanted k = some true then 1 else 0), wanted := FMap.erase x.wanted k }
  if unit < 36 then { s with fab := s.fab.setLink unit { s.fab.link unit with quietAt := some s.beacon } }
  else s.modPwr fun x => { x with quiet := FMap.set none x.quiet ((unit - 0x40) * 256 + ch) (some s.beacon) }

/-- Close it: the time is counted in FAB_LQUIET, delayed reads in MEM_QWD; a memory channel has run its calibration (R564). -/
def State.closeQuiet (s : State) (unit ch delayed : Nat) : State :=
  if unit < 36 then
    let l := s.fab.link unit
    match l.quietAt with
    | some t => ({ s with fab := s.fab.setLink unit { l with quietAt := none, quiet := l.quiet + (s.beacon - t) } } : State).pumped
    | none => s
  else
    let k := (unit - 0x40) * 256 + ch
    match FMap.get none s.mgmt.pwr.quiet k with
    | some _ =>
      (s.modPwr fun x => { x with
        quiet := FMap.set none x.quiet k none, drift := FMap.set 0 x.drift k 0, cals := FMap.modify 0 x.cals k (· + 1) }).modCtl
          (unit - 0x40) fun x => { x with qwd := x.qwd + delayed }
    | none => s

/-- The start of the first bin within the next four step periods whose idle score for a link or channel is at least 12 (R490 step 1). -/
def State.quietBin (s : State) (k : Nat) : Option Nat :=
  let p := s.bcn.period
  match s.bcn.steps.getLast? with
  | none => none
  | some st =>
    if p = 0 then none
    else
      let sc := FMap.get (List.replicate 64 0) s.bcn.bins k
      ((List.range 320).map fun j => (st + j * p / 64, sc.getD (j % 64) 0)).find? (fun q =>
        decide (s.beacon ≤ q.1 ∧ q.1 ≤ s.beacon + 4 * p ∧ 12 ≤ q.2)) |>.map Prod.fst

/-- The QUIET trigger that a request gives (R490): at once when urgent; else in a quiet bin, or when the link or channel has been idle for
1 µs; in every case after 10 ms at the latest. -/
def State.quietTrig (s : State) (unit ch : Nat) (urgent : Bool) : Trig :=
  let t : Trig := { action := 4, en := true, time := BitVec.ofNat 64 s.beacon, arg := BitVec.ofNat 64 (unit + ch * 256), count := 1 }
  if urgent then t
  else match s.quietBin (unit * 256 + ch) with
    | some b => { t with time := BitVec.ofNat 64 (min b (s.beacon + 10000000)) }
    | none => { t with time := BitVec.ofNat 64 (s.beacon + 10000000), idle := true }

/-- The power core requests a quiet window: a firmware slot is armed for it; a request that is armed already and has become urgent opens
at once (R490). -/
def State.wantQuiet (s : State) (unit ch : Nat) (urgent : Bool) : State :=
  let q := s.quietTrig unit ch urgent
  let k := unit * 256 + ch
  let t := s.modPwr fun x => { x with wanted := FMap.insert x.wanted k (urgent || (FMap.find? x.wanted k).getD false) }
  match List.find? (fun (p : Nat × Trig) => decide (p.1 < 64) && p.2.en && p.2.action == 4 && p.2.arg == q.arg) s.bcn.trigs with
  | some p => if urgent then t.setTrig p.1 q else t
  | none => match (List.range 64).find? (fun n => !(s.trig n).en) with
    | none => t
    | some n => t.setTrig n q

/-! ### The commands -/

/-- A Beacon packet leaves the buffer of its link (R261); a malformed one is only counted. -/
def State.bcnPkt (s : State) (p : Pkt) (f : State → State) : State :=
  if s.dev.st != .run then s else if p.badCtrl then (s.freeIn p).countMalform else f (s.freeIn p)

/-- SYNC_REQ from the neighbour on a link (R477): answered with SYNC_RSP. -/
def execSyncReq (n : BitVec 6) (p : Pkt) (s : State) : Out :=
  .next (s.bcnPkt p fun s => (s.sendBcn n.toNat 0x0401 (p.pspec.extractLsb' 32 32) s.stamp s.stamp))

/-- SYNC_RSP (R477). -/
def execSyncRsp (n : BitVec 6) (p : Pkt) (s : State) : Out :=
  .next (s.bcnPkt p fun s => (s.onSyncRsp n.toNat (p.pspec.extractLsb' 32 32) (p.pspec.extractLsb' 64 64) (p.pspec.extractLsb' 128 64)))

/-- ANNOUNCE (R478). -/
def execAnnounce (n : BitVec 6) (p : Pkt) (s : State) : Out :=
  let old := FMap.find? s.bcn.neigh n.toNat
  let x : Neigh :=
    { chip := p.src.toNat, stratum := p.pspec.toNat / 2 ^ 16 % 16, state := p.pspec.toNat / 2 ^ 24 % 8
      lower := match old with | some o => o.lower | none => none }
  .next (s.bcnPkt p fun s => ({ s with bcn := { s.bcn with neigh := FMap.insert s.bcn.neigh n.toNat x } } : State).bcnEval)

/-- BEACON_EXCHANGE (R477): SYNC_REQ to the upstream, ANNOUNCE on every UP link. -/
def execBeaconExchange (s : State) : Out :=
  .next (if s.dev.st != .run then s
    else
      let s := match s.bcn.uplink with
        | some u =>
          if s.bcn.mode = 0 then
            let t := s.sendBcn u 0x0400 s.bcn.seq s.stamp 0
            { t with bcn := { t.bcn with asked := some (s.bcn.seq, s.stamp), seq := s.bcn.seq + 1 } }
          else s
        | none => s
      (List.range 36).foldl (fun t n => if (t.fab.link n).st = .up then t.sendBcn n 0x0402 0 0 0 else t) s)

/-- UPSTREAM_SWITCH (R478): a neighbour with a lower stratum has qualified for 100 ms. -/
def execUpstreamSwitch (s : State) : Out :=
  let l := s.bcn.neigh.filter fun p => s.qualifies p.1 && (match p.2.lower with
    | some t => decide (t + 100000000 ≤ s.beacon)
    | none => false)
  .next (match s.bcn.mode, (sortBy neighBefore l).head? with
    | 0, some p => ({ s with bcn := { s.bcn with uplink := some p.1, asked := none } } : State).bcnEval
    | _, _ => s)

/-- SYNC_IN_EDGE (R476). -/
def execSyncInEdge (s : State) : Out := .next (if s.dev.st = .off ∨ s.dev.st = .standby then s else s.onSyncEdge)

/-- SYNC_IN_LOSS (R481): no edge accepted for 2 s. -/
def execSyncInLoss (s : State) : Out :=
  .next (match s.bcn.syncAt with
    | some t =>
      if t + 2000000000 ≤ s.beacon then
        let s := { s with bcn := { s.bcn with syncAt := none } }
        if s.bcn.mode = 1 ∧ s.bcn.st = .locked ∧ ¬ s.bcn.ref then s.bcnTo .holdover else s
      else s
    | none => s)

/-- REF_100M_CHANGE (R481). -/
def execRef100mChange (present : Bool) (s : State) : Out :=
  let s := { s with bcn := { s.bcn with ref := present } }
  .next (if s.bcn.mode != 1 then s
    else if !present && s.bcn.st == .locked && s.bcn.syncAt.isNone then s.bcnTo .holdover
    else if present && s.bcn.st == .holdover then s.bcnTo .acquire else s)

/-- BEACON_COPY_CORRECTION (R473): every die's copy is brought to IO1's. -/
def execBeaconCopyCorrection (s : State) : Out := .next { s with bcn := { s.bcn with copies := [0, 0, 0, 0, 0] } }

/-- WSET (R483): FAB_WSEL.SET. -/
def execWsetTrigger (n : BitVec 8) (s : State) : Out :=
  .next (s.fire n.toNat 1 fun t s => { s with fab := { s.fab with wsel := t.arg.toNat % 4 } })

/-- A QUIET trigger that waits for an idle microsecond has met one (R490 step 2): its target is now. -/
def State.quietIdle (s : State) (n : Nat) : State :=
  let t := s.trig n
  if t.en && t.action == 4 && t.idle && decide (s.beacon < t.time.toNat) then s.setTrig n { t with time := BitVec.ofNat 64 s.beacon } else s

/-- QUIET (R39, R483): a quiet window opens. -/
def execQuietOpen (q : QuietIn) (s : State) : Out :=
  .next ((if q.idle then s.quietIdle q.slot.toNat else s).fire q.slot.toNat 4 fun t s =>
    s.openQuiet (t.arg.toNat % 256) (t.arg.toNat / 256 % 256))

/-- QUIET_WINDOW_CLOSE (R39): `delayed` reads waited for it. -/
def execQuietWindowClose (unit : BitVec 8) (ch : BitVec 8) (delayed : BitVec 32) (s : State) : Out :=
  .next (s.closeQuiet unit.toNat ch.toNat delayed.toNat)

/-- CUT (R483): a cut request with reason TRIGGER. -/
def execTriggerCut (n : BitVec 8) (s : State) : Out := .next (s.fire n.toNat 5 fun t s => s.cutRequest t.dom 3)

/-- FENCE (R483): the k-th firing signals the word with ARG + k · INC. -/
def execTriggerFence (n : BitVec 8) (s : State) : Out :=
  .next (s.fire n.toNat 6 fun t s =>
    s.fenceWord t.dom t.word (sigWord (t.arg + BitVec.ofNat 64 (t.k * t.inc))))

end Sys2Proof.Machine
end

