-- ==== Sys2Proof/Machine/LinkRows.lean ====
section
/-! DEFINITION. The link layer, training and keys of the links (R254 to R267) as commands, and the link-state and congestion
messages (R277, R278). -/

namespace Sys2Proof.Machine

/-! ### Link states -/

def State.link (s : State) (n : Nat) : Link := s.fab.link n
def State.setLink (s : State) (n : Nat) (l : Link) : State := { s with fab := s.fab.setLink n l }
def State.modLink (s : State) (n : Nat) (f : Link → Link) : State := s.setLink n (f (s.link n))

/-- The peer that a link must meet (R266): from the link map when the record has one, else the canonical cabling. -/
def State.expectPeer (s : State) (n : Nat) : Option (Nat × Nat) := s.fab.peerOf n

/-- The PSPEC of a link-state message and of a congestion report: the spec gives neither a MSGTYPE nor a layout (DESIGN CHOICE,
log 41). -/
def linkMsg (chip n : Nat) (up : Bool) : BitVec 192 := BitVec.ofNat 192 (0x0600 + n * 2 ^ 16 + (if up then 2 ^ 24 else 0) + chip * 2 ^ 32)
def congMsg (q : List Nat) : BitVec 192 :=
  BitVec.ofNat 192 (0x0601 + ((List.range 4).foldl (fun t i => t + q.getD i 0 % 2 ^ 32 * 2 ^ (32 + 32 * i)) 0))

/-- Pass a link-state message on to every neighbour (R278, log 41). -/
def State.tellLink (s : State) (chip n : Nat) (up : Bool) : State := s.onFab fun f => f.cast (List.range 36) (linkMsg chip n up)

/-- The state of a link has changed: the Soot entry, and, when it went DOWN or returned UP, the broadcast and this chip's own
view (R278, R460). -/
def State.linkTold (s : State) (n : Nat) : State :=
  let l := s.link n
  let s := s.sootLog 0x200 (if l.st = LkSt.down then 2 else 1) 7 [n, l.st.num, l.cause.num]
  if l.st == .down || l.st == .up then (s.tellLink s.fab.chip n (decide (l.st = LkSt.up))).onFab FabSt.viewChanged
  else s

/-- A link enters a state. -/
def State.linkTo (s : State) (n : Nat) (st : LkSt) (cause : LkCause) (f : Link → Link) : State :=
  (s.modLink n fun l => { f l with st := st, cause := cause, since := s.clk }).linkTold n

/-- The packets that a link still holds: in flits not acknowledged, started, and waiting (R258, R280). -/
def Link.orphans (l : Link) : List Pkt := (l.kept.map FlitOut.pkts).flatten ++ l.stream.filterMap Slot.last ++ l.queue

/-- A message between two neighbours (R270, R277, R278, R477). -/
def Pkt.neighbour (p : Pkt) : Bool := p.ptype == 8 && (p.pspec.toNat % 2 ^ 16 / 256 == 4 || p.pspec.toNat % 2 ^ 16 / 256 == 6)

/-- A packet whose link no longer carries takes a detour, or is discarded with NAK STRAND (R279, R280); a message for the lost neighbour is
dropped. -/
def State.reroute (s : State) (p : Pkt) : State :=
  if p.neighbour then s.freeIn p
  else match s.fab.egress p p.hop.toNat with
    | .ok (n, q) => { s with fab := s.fab.emit n { q with hop := p.hop } }
    | .error .strand => (s.freeIn p).discard p nakSTRAND
    | .error .noroute => (s.freeIn p).discard p nakNOROUTE

/-- A link leaves service: its keys are gone, and the packets that it held go another way or back to their sources (R280, R283 rule 6). -/
def State.linkEnds (s : State) (n : Nat) (st : LkSt) (cause : LkCause) (f : Link → Link) : State :=
  let ps := (s.link n).orphans
  let s := s.modLink n fun l => { f l.noKeys with st := st, cause := cause, short := false, since := s.clk }
  ((ps.foldl State.reroute s).onFab id).linkTold n

/-- A link fails (R265): its transmitter goes idle. -/
def State.linkDown (s : State) (n : Nat) (c : LkCause) : State := s.linkEnds n .down c id

/-- A link is disabled (R265). -/
def State.linkOff (s : State) (n : Nat) : State := s.linkEnds n .off .none id

/-- A short retrain begins (R259). -/
def State.shortRetrain (s : State) (n : Nat) (f : Link → Link) : State :=
  s.linkTo n .train .none fun l => { f l with short := true, uncRun := 0, seqRun := 0, quietAt := none }

/-- A short retrain has failed: another, or DOWN after three in a row with the cause of the last (R259). -/
def State.shortFailed (s : State) (n : Nat) (c : LkCause) : State :=
  if (s.link n).shortFails + 1 < 3 then s.shortRetrain n fun l => { l with shortFails := l.shortFails + 1 } else s.linkDown n c

/-- An enabled link of a device in RUN looks for its peer (R265); at a warm start it begins with the short retrain. -/
def State.startLink (s : State) (n : Nat) (short : Bool) : State :=
  if s.dev.st = .run && (s.link n).enab then
    s.linkTo n (if short then .train else .detect) .none fun l => { l.noKeys with short := short, shortFails := 0 }
  else s

/-- RETRAIN (R265): full training from DETECT, in any state except OFF. It also ends the bar on light FEC (R256). -/
def State.fullRetrain (s : State) (n : Nat) : State :=
  if (s.link n).st = .off then s else s.linkEnds n .detect .none fun l => { l with stdOnly := false, shortFails := 0 }

/-! ### Flits (R254 to R262) -/

/-- Count within the current Beacon second (R21). -/
def secCount (now n : Nat) (p : Nat × Nat) : Nat × Nat :=
  let sec := now / 1000000000
  (sec, if p.1 = sec then p.2 + n else n)

/-- `k` flits are resent from the replay buffer as they were first sent; more than 64 in one Beacon second retrain the link (R258, R259). -/
def State.replayed (s : State) (n k : Nat) : State :=
  let l := s.link n
  let sec := secCount s.beacon k l.resSec
  let s := s.setLink n { l with replay := l.replay + k, resSec := sec, ackAt := s.clk }
  if 64 < sec.2 then s.shortRetrain n id else s

/-- Resend every unacknowledged flit (R258). -/
def State.replayAll (s : State) (n : Nat) : State := s.replayed n (s.link n).kept.length

/-- The flits that ACKSEQ leaves unacknowledged: those after the oldest kept flit whose number has its low 12 bits (R254; DEDUCED for a
number that two kept flits share across a re-key, log 64). -/
def ackTo (kept : List FlitOut) (a : Nat) : List FlitOut :=
  match kept.findIdx? fun x => x.seq % 4096 == a with
  | some i => kept.drop (i + 1)
  | none => kept

/-- A discarded flit counts as a failed sequence check; 16 in a row retrain the link (R257, R259). -/
def State.discardFlit (s : State) (n : Nat) (f : Link → Link) : State :=
  let s := s.modLink n fun l => { f l with gap := true, seqRun := l.seqRun + 1 }
  if 16 ≤ (s.link n).seqRun then s.shortRetrain n id else s

/-- A tag failed: NAK is set, it is counted, and more than 16 in one Beacon second raise INTEG_LINK once (R257, R262). -/
def State.tagFailed (s : State) (n : Nat) : State :=
  let sec := secCount s.beacon 1 (s.link n).tagSec
  let s := s.discardFlit n fun l => { l with nak := true, tagFail := l.tagFail + 1, tagSec := sec }
  if sec.2 = 17 then s.secEvent 5 none else s

/-- FEC failed (R255, R256, R257): 8 in a row lose frame lock, more than 16 in one Beacon second end light FEC. -/
def State.fecFailed (s : State) (n : Nat) : State :=
  let sec := secCount s.beacon 1 (s.link n).uncSec
  let s := s.modLink n fun l => { l with fecUnc := l.fecUnc + 1, uncRun := l.uncRun + 1, uncSec := sec, nak := true, gap := true }
  let l := s.link n
  if l.light && decide (16 < sec.2) then s.shortRetrain n fun l => { l with stdOnly := true }
  else if 8 ≤ l.uncRun then s.shortRetrain n id
  else s

/-- Symbols that the decoder corrects in a codeword (R255). -/
def Link.fecLimit (l : Link) : Nat := if l.light then 2 else 8

/-- Header fields of R254. -/
def FlitIn.bits (f : FlitIn) (lo n : Nat) : Nat := f.hdr.toNat / 2 ^ lo % 2 ^ n
def FlitIn.epoch (f : FlitIn) : Bool := f.bits 24 1 == 1

/-- What a receiver makes of a decoded flit. -/
inductive FlitFate where
  | good
  /-- Sealed under the next key: the first flit of a new epoch (R264). -/
  | newEpoch
  | tag | seq
  deriving DecidableEq, Repr

/-- Which key and number a flit must have been sealed under (R257, R262, R264). A flit with a nonzero reserved header field or
a reserved CVC is treated as failing its tag. The first flit of a new epoch is taken only once no older one is missing. -/
def Link.fate (l : Link) (f : FlitIn) : FlitFate :=
  if !f.intact || f.bits 26 6 != 0 || (decide (20 ≤ f.bits 13 5) && f.bits 13 5 != 31) then .tag
  else if f.epoch = l.rxEpoch then
    (if f.seq.toNat = l.rxSeq then .good else if l.gap then .seq else .tag)
  else if l.rxNext.isSome then (if l.gap then .seq else if f.seq = 0 then .newEpoch else .tag)
  else if l.rxOld.isSome then .seq
  else .tag

/-- An accepted flit: the sequence advances, ACKSEQ, credits and NAK are applied (R254, R257, R261). -/
def State.acceptFlit (s : State) (n : Nat) (f : FlitIn) : State :=
  let l := s.link n
  let idle := f.bits 25 1 == 1
  let kept := ackTo l.kept (f.bits 0 12)
  let vc := f.bits 13 5
  let cnt := l.rxNew + 1
  let s := s.setLink n { l with
    gap := false, seqRun := 0, rxSeq := l.rxSeq + 1, rxFlits := if idle then l.rxFlits else l.rxFlits + 1
    ackAt := if kept.length = l.kept.length then l.ackAt else s.clk
    kept := kept
    owed := if vc < 20 then FMap.modify 0 l.owed vc (· - f.bits 18 6) else l.owed
    rxNew := if l.rxOld.isSome then cnt else l.rxNew, rxOld := if cnt < 256 then l.rxOld else none }
  if f.bits 12 1 = 1 then s.replayAll n else s

/-- What a received frame does to the receiver (R255, R257): more symbol errors than the mode corrects are a FEC failure. -/
def State.recvFlit (s : State) (n : Nat) (f : FlitIn) : State :=
  if f.unc || decide ((s.link n).fecLimit < f.syms.toNat) then s.fecFailed n
  else
    let s := s.modLink n fun l => { l with fecCorr := l.fecCorr + f.syms.toNat, uncRun := 0 }
    if f.hdr = 0 then s
    else match (s.link n).fate f with
      | .tag => s.tagFailed n
      | .seq => s.discardFlit n id
      | .good => s.acceptFlit n f
      | .newEpoch =>
        (s.modLink n fun l => { l with
          rxEpoch := f.epoch, rxOld := l.rxKey, rxKey := l.rxNext, rxNext := none, rxNew := 0, rxSeq := 0 }).acceptFlit n f

/-- FLIT_RECEIVE (R257): a frame arrives on a link that is UP, and the transmitter answers in its own next frame. A stall is answered by
nothing (R258). -/
def State.flitIn (s : State) (n : Nat) (f : FlitIn) : State :=
  if (s.link n).st != .up then s
  else
    let t := s.recvFlit n f
    if f.hdr = 0 ∧ f.unc = false then t else ({ t with fab := t.fab.answer t.clk n } : State).serveReads

/-! ### Training and keys (R259, R263 to R267) -/

/-- What every training leaves of the lanes (R267): failed lanes fenced and recorded, or none when each half has one. -/
def State.trainLanes (s : State) (n : Nat) (bad : BitVec 8) : State × Bool :=
  let l := s.link n
  let b := l.badLanes ||| bad
  let s := ((List.range 8).filter fun i => bad.getLsbD i && !l.badLanes.getLsbD i).foldl
    (fun t i => t.recordFence 2 (8 * n + i)) s
  let s := s.modLink n fun l => { l with badLanes := b, width4 := b != 0 }
  (s, !(b.extractLsb' 0 4 != 0 && b.extractLsb' 4 4 != 0))

/-- The MSGTYPE of the messages that carry this end's key shares, certificates and signatures (R263): the spec gives them no layout
(DESIGN CHOICE, log 41). -/
def keyxMsg : BitVec 192 := 0x0602

/-- This end's part of a key exchange over a link that carries packets, as a CTRL_MSG to the neighbour (R263, R264). -/
def State.sendKeyx (s : State) (n : Nat) : State := s.onFab fun f => f.cast [n] keyxMsg

/-- TRAIN (R265 to R267): a link in DETECT that both ends have locked goes to TRAIN; one in TRAIN ends in KEYX or DOWN, or goes on without
frame lock for 10 ms. The short training of a warm start has three attempts (R259, R541). -/
def State.trainLink (s : State) (n : Nat) (o : TrainIn) : State :=
  let l := s.link n
  if l.st == .detect then (if o.signal then s.linkTo n .train .none fun l => { l with short := false } else s)
  else if !(l.st == .train && !l.keyed) then s
  else if l.short && !(o.signal && o.eq && o.lock) then
    s.shortFailed n (if !o.signal then .noSignal else if !o.lock then .lockFail else .errRate)
  else
    let (s, ok) := s.trainLanes n o.bad
    if !ok then s.linkDown n .lanes
    else if !o.eq then s.linkDown n .eqFail
    else if !o.lock then (if l.since + 10000000 ≤ s.clk then s.linkDown n .lockFail else s)
    else
      let s := s.modLink n fun l => { l with peer := o.peer.toNat, peerLink := o.peerLink.toNat }
      if s.expectPeer n != some (o.peer.toNat, o.peerLink.toNat) then s.linkDown n .idMismatch
      else s.linkTo n .keyx .none fun l => { l with light := l.fecReq && o.light && !l.stdOnly, short := false, shortFails := 0 }

/-- The checks of a key exchange (R263). -/
def State.keyxOk (s : State) (n : Nat) (k : KeyxIn) : Bool :=
  k.chain && k.lc.toNat == s.sec.lc.num && decide (s.fab.minSvn ≤ k.svn.toNat)
    && s.expectPeer n == some (k.peer.toNat, k.peerLink.toNat)

/-- The key and salt of one direction of a link (R263): HKDF-SHA-384 of the concatenated secrets under a label that names the lower chip
first and then the direction; the spec gives no label bytes (DESIGN CHOICE, log 64). -/
def State.linkKey (s : State) (n : Nat) (secret : List Byte) (mine : Bool) : LinkKey × State :=
  let me := s.fab.chip
  let peer := (s.link n).peer
  let fromLow := if mine then decide (me < peer) else decide (peer < me)
  let okm := hkdf [] secret (ascii "Siloft link" ++ leBytes 2 (min me peer) ++ leBytes 2 (max me peer) ++ leBytes 1 (if fromLow then 0 else 1)) 36
  ({ key := s.maskKey (okm.take 32), salt := okm.drop 32 }, s.drewBytes 32)

/-- The two shared secrets of an exchange, ECDHE and ML-KEM, end to end (R263): free values (log 31). -/
def State.shares (s : State) : List Byte × State := (s.rndBytes 80, s.drewBytes 80)

/-- KEYX (R263): both directions get keys and number their flits from 0. After a health-test failure no keys can be made, and the link
stays in KEYX (R374). -/
def State.keyxLink (s : State) (n : Nat) (k : KeyxIn) : State :=
  if (s.link n).st != .keyx then s
  else if !s.keyxOk n k then s.linkDown n .auth
  else if s.sec.rngDead then s
  else
    let (sec, s) := s.shares
    let (tx, s) := s.linkKey n sec true
    let (rx, s) := s.linkKey n sec false
    s.linkTo n .up .none fun l => { l.noKeys with
      txKey := some tx, rxKey := some rx, kepoch := false, rxEpoch := false, txSeq := 0, rxSeq := 0, keyFlits := 0
      nak := false, gap := false, rxNew := 0, ackAt := s.clk, shortFails := 0, uncRun := 0, seqRun := 0 }

/-- A short retrain of a keyed link ends (R256, R259, R267): UP again in the FEC mode that both ends agree, with what is unacknowledged
resent, or another, or DOWN. -/
def State.shortEnd (s : State) (n : Nat) (r : ShortEnd) : State :=
  match r with
  | .ok bad light =>
    let (s, ok) := s.trainLanes n bad
    if !ok then s.linkDown n .lanes
    else
      (s.linkTo n .up .none fun l =>
        { l with short := false, shortFails := 0, light := l.fecReq && light && !l.stdOnly }).replayed n (s.link n).kept.length
  | .noSignal => s.shortFailed n .noSignal
  | .noLock => s.shortFailed n .lockFail
  | .error => s.shortFailed n .errRate

/-- LINK_REKEY (R264): the transmit direction after 2^36 flits or on request, or the receive direction's next key; a failed check takes the
link DOWN. Flits of the old key stay in the replay buffer. -/
def State.rekeyLink (s : State) (n : Nat) (rx req : Bool) (k : KeyxIn) : State :=
  let l := s.link n
  if l.st != .up || (!rx && !req && decide (l.keyFlits < 2 ^ 36)) then s
  else if !s.keyxOk n k then s.linkDown n .auth
  else if s.sec.rngDead then s
  else
    let (sec, s) := s.shares
    let (key, s) := s.linkKey n sec (!rx)
    if rx then s.modLink n fun l => { l with rxNext := some key }
    else (s.sendKeyx n).modLink n fun l => { l with txKey := some key, kepoch := !l.kepoch, txSeq := 0, keyFlits := 0 }

/-! ### Commands -/

/-- FLIT_RECEIVE (R257). -/
def execFlitReceive (n : BitVec 6) (f : FlitIn) (s : State) : Out :=
  .next (if n.toNat < 36 then s.flitIn n.toNat f else s)

/-- REPLAY_TIMEOUT (R258): ACKSEQ has not advanced for 2 µs. -/
def execReplayTimeout (n : BitVec 6) (s : State) : Out :=
  let l := s.link n.toNat
  .next (if l.st == .up && !l.kept.isEmpty && decide (l.ackAt + 2000 ≤ s.clk) then s.replayAll n.toNat else s)

/-- STALL_CODEWORD (R258): an all-zero message is skipped, without a tag check, a count or a NAK. -/
def execStallCodeword (n : BitVec 6) (s : State) : Out :=
  .next (if (s.link n.toNat).st = .up then s.flitIn n.toNat { hdr := 0 } else s)

/-- LINK_RETRAIN (R259): an UP link loses frame lock, or a short retrain ends as `r` says. -/
def execLinkRetrain (n : BitVec 6) (r : ShortEnd) (s : State) : Out :=
  let l := s.link n.toNat
  .next (if l.st = .up then s.shortRetrain n.toNat id
    else if l.st == .train && l.keyed then (s.shortEnd n.toNat r).pumped
    else s)

/-- DETECT_TIMEOUT (R265): a peer signal without lock for 10 ms, or none for 100 ms. -/
def execDetectTimeout (n : BitVec 6) (signal : Bool) (s : State) : Out :=
  let l := s.link n.toNat
  .next (if l.st != .detect then s
    else if signal && decide (l.since + 10000000 ≤ s.clk) then s.linkDown n.toNat .peerProtocol
    else if !signal && decide (l.since + 100000000 ≤ s.clk) then s.linkDown n.toNat .noSignal
    else s)

/-- TRAIN (R265). -/
def execLinkTrain (n : BitVec 6) (o : TrainIn) (s : State) : Out := .next (s.trainLink n.toNat o)

/-- KEYX (R263). -/
def execLinkKeyx (n : BitVec 6) (k : KeyxIn) (s : State) : Out := .next (s.keyxLink n.toNat k)

/-- LINK_REKEY (R264). -/
def execLinkRekey (n : BitVec 6) (rx req : Bool) (k : KeyxIn) (s : State) : Out := .next (s.rekeyLink n.toNat rx req k)

/-- LINK_STATE_MSG (R278): another chip's link went DOWN or returned UP. What is news here is passed on; what waited for the view, or for
any such message, is sent (R272, R616). -/
def execLinkStateMsg (chip : BitVec 13) (link : BitVec 6) (up : Bool) (s : State) : Out :=
  let k := chip.toNat * 64 + link.toNat
  .next (if s.dev.st != .run || chip.toNat = s.fab.chip || decide (36 ≤ link.toNat) then s
    else if FMap.get false s.fab.view k = !up then s.onFab FabSt.linkNews
    else
      let t := s.onFab fun f => ({ f with view := FMap.set false f.view k (!up) } : FabSt).viewChanged
      t.tellLink chip.toNat link.toNat up)

/-- CONGESTION_REPORT (R277): the queued BULK bytes of a member's global ports. This chip's own are those of its egress queues, broadcast
to its group. -/
def execCongestionReport (member : BitVec 5) (queued : List (BitVec 32)) (s : State) : Out :=
  .next (if s.dev.st != .run then s
    else if member.toNat = memOf s.fab.chip then
      s.onFab fun f => f.cast (List.range 31) (congMsg ((List.range 4).map fun p => f.queued (31 + p)))
    else { s with fab := (List.range 4).foldl (fun (g : FabSt) p =>
      { g with cong := FMap.set 0 g.cong (member.toNat * 4 + p) (queued.getD p 0).toNat }) s.fab })

end Sys2Proof.Machine
end

