-- ==== Sys2Proof/Machine/PktRows.lean ====
section
/-! DEFINITION. The packets of the fabric as commands (R271 to R293, R430, R616). -/

namespace Sys2Proof.Machine

/-! ### Forwarding (R273, R274, R280) -/

/-- The domain with a TOKEN reservation whose binding on this chip has a packet's job tag (R501, R502). -/
def State.tokenDom (s : State) (p : Pkt) : Option Nat :=
  if p.tc.toNat ≠ 0 then none
  else (List.find? (fun (q : Nat × Dom) => (match q.2.binding with | some b => b.tag == p.tag | none => false)
    && decide (1 ≤ (FMap.get {} s.bcn.arb q.1 : ArbDom).tokFloor)) s.doms).map Prod.fst

/-- ARB_DOM_TOK (R502): a TOKEN packet of a domain with a reservation waited `n` RTCLK cycles at egress `k` beyond the forwarding time. -/
def State.tokenHop (s : State) (p : Pkt) (k n : Nat) : State :=
  let l := s.fab.link k
  match s.tokenDom p with
  | none => s
  | some d =>
    if n ≤ 2000 ∨ s.fab.weights.token < 10 ∨ k ≥ 36 ∨ l.sends = false ∨ l.width4 = true then s
    else
      let a : ArbDom := FMap.get {} s.bcn.arb d
      let a := { a with tokOver := satAdd 16 a.tokOver 1, max := min 0xFFFF (Nat.max a.max (n / 8)) }
      { s with bcn := { s.bcn with arb := FMap.set {} s.bcn.arb d a } }

/-- A packet for another chip arrives on a link: it goes to its egress, where it holds its place in the ingress buffer until it starts,
or is discarded. `wait` is what it waits there beyond the forwarding time (log 73). -/
def State.forward (s : State) (p : Pkt) (wait : Nat) : State :=
  if s.dev.st != .run then s
  else if p.ptype = 0 || p.dst.toNat = s.fab.chip then s
  else if p.malformed then (s.freeIn p).countMalform
  else if p.hop = 4 then (s.freeIn p).discard p nakSTRAND
  else match s.fab.egress p (p.hop.toNat + 1) with
    | .ok (n, q) => (s.tokenHop p n wait).onFab fun f => f.emit n { q with hop := p.hop + 1 }
    | .error .strand => (s.freeIn p).discard p nakSTRAND
    | .error .noroute => (s.freeIn p).discard p nakNOROUTE

/-- PACKET_FORWARD (R273). -/
def execPacketForward (h : HopIn) (s : State) : Out := .next (s.forward h.pkt h.wait.toNat)

/-! ### WRITE, READ_REQ, READ_DATA (R171, R283, R285) -/

/-- WRITE (R285). -/
def execPktWrite (p : Pkt) (s : State) : Out :=
  .next (s.onPkt p 1 fun s d =>
    if p.img then
      (match s.onImage d p with
       | some t => t.ack p
       | none => s.nak p nakREJECT)
    else match s.remoteFlt d p.adr p.data.length { w := true } with
      | some e => s.nak p nakREJECT (BitVec.ofNat 8 e.num)
      | none => (s.wrDom d (offOf p.adr) p.data).ack p)

/-- READ_REQ (R283): it enters the queue of its ingress port, or is refused BUSY where that holds 256, and the requests whose
answers can leave are answered. -/
def execPktReadReq (p : Pkt) (struck : List (BitVec 34 × Bool)) (s : State) : Out :=
  .next (s.onPkt p 2 fun s _ =>
    if 256 ≤ (s.reqsAt p.port).length then s.nak p nakBUSY
    else ((s.strike struck).setReqs p.port (s.reqsAt p.port ++ [p])).serveReads)

/-- Forget a held packet. -/
def State.dropHeld (s : State) (x : BitVec 16) : State :=
  { s with fab := { s.fab with held := s.fab.held.filter fun h => h.pkt.xtag != x } }
def State.heldBy (s : State) (p : Pkt) : Option Held :=
  s.fab.held.find? fun h => h.pkt.xtag == p.xtag && h.pkt.dst == p.src

/-- One packet of a DMA transfer is done. -/
def State.dmaAcked (s : State) (d c k q : Nat) : State := s.modHead d c k q fun x => { x with left := x.left - 1 }

/-- A transfer faults asynchronously (R80, R285). -/
def State.dmaFailed (s : State) (d c k q : Nat) (e : FCode) : State :=
  match FMap.get [] (s.wickAt d c k).dma q with
  | x :: _ => s.asyncFault d c k e x.pc (if isFab x.dst then x.dst else x.src)
  | [] => s

/-- READ_DATA (R171): it answers the READ_REQ held here with its destination address, and is written there. -/
def execPktReadData (p : Pkt) (s : State) : Out :=
  .next (s.onPkt p 3 fun s _ =>
    match s.fab.held.find? fun h => h.pkt.ptype == 2 && h.pkt.dst == p.src && h.pkt.aux == p.adr && h.pkt.img == p.img with
    | none => s.ack p
    | some h =>
      let s := (s.dropHeld h.pkt.xtag).ack p
      match h.owner with
      | .readReq d c k q =>
        (match firstFlt (s.accFlts d p.adr 1 p.data.length { w := true }) with
         | some f => s.dmaFailed d c k q f.code
         | none => (s.wrSpace d c k p.adr p.data).dmaAcked d c k q)
      | _ => s)

/-! ### Tokens at their ring (R290 to R292) -/

/-- A usable ring entry: its ring's offset, slots, PROD, CONS and WAKE. -/
structure Ring where
  base : Nat
  size : Nat
  prod : DWord
  cons : DWord
  wake : DWord
  deriving DecidableEq, Repr

/-- The ring entry of a logical Lantern and ring (R290); none where RINGS names no DOMAIN address (DESIGN CHOICE, log 66). -/
def ringEntry (b : Binding) (l q : Nat) : Option Nat :=
  if spaceOf b.rings = some .dom then some (offOf b.rings + 64 * (16 * l + q)) else none

/-- The ring of an entry, or none when R292 calls it unusable. -/
def State.ringAt (s : State) (d e : Nat) : Option Ring :=
  let m := s.dom d
  if 2 ^ 57 < e + 64 || !m.mapOk e 64 { r := true, w := true, k := false } || (s.poisonAt d e 64).isSome then none
  else
    let bs := s.rdDom d e 64
    let base : DWord := BitVec.ofNat 64 (fieldAt bs 0 8)
    let lg := fieldAt bs 8 1
    let sz := 64 * 2 ^ lg
    if lg < 6 || 24 < lg || fieldAt bs 9 1 != 1 || fieldAt bs 0x0A 6 != 0 || fieldAt bs 0x28 24 != 0 then none
    else if spaceOf base ≠ some .dom || fld base 57 4 != 0 || offOf base % sz != 0 || 2 ^ 57 < offOf base + sz then none
    else if !m.mapOk (offOf base) sz { w := true, k := false } then none
    else some { base := offOf base, size := 2 ^ lg, prod := BitVec.ofNat 64 (fieldAt bs 0x10 8)
                cons := BitVec.ofNat 64 (fieldAt bs 0x18 8), wake := BitVec.ofNat 64 (fieldAt bs 0x20 8) }

/-- A packet of a token arrives: the whole token where it is the last (R260, log 45). A piece that does not follow those before it is
dropped with them. -/
def State.tokJoin (s : State) (p : Pkt) : State × Option (List Byte) :=
  if p.whole = 0 then (s, some p.data)
  else
    let old := match s.fab.parts.find? fun x => x.src == p.src.toNat && x.xtag == p.xtag with
      | some x => if p.part = 0 then [] else x.data
      | none => []
    let rest := s.fab.parts.filter fun x => x.src != p.src.toNat
    let put (l : List TokPart) : State := { s with fab := { s.fab with parts := l } }
    if old.length != 4096 * p.part.toNat then (put rest, none)
    else if (old ++ p.data).length < p.whole.toNat then
      (put (rest ++ [{ src := p.src.toNat, xtag := p.xtag, data := old ++ p.data }]), none)
    else (put rest, some (old ++ p.data))

/-- The 64-byte header of an entry (R291). A PAD entry holds its length and kind; its other fields are zero (DESIGN CHOICE, log 66). -/
def entryHeader (len kind replica expert chip ctx lant wick : Nat) (key : Nat) : List Byte :=
  leBytes 4 len ++ leBytes 1 kind ++ leBytes 1 replica ++ leBytes 2 expert ++ leBytes 2 chip ++ leBytes 2 ctx
    ++ leBytes 1 lant ++ leBytes 1 wick ++ leBytes 2 0 ++ leBytes 4 key ++ leBytes 44 0

/-- Signal a ring's WAKE word with PROD (R290); a word that cannot be signalled is left. -/
def State.wakeRing (s : State) (d : Nat) (wake prod : DWord) : State :=
  let o := offOf wake
  if wake = 0 || o % 8 != 0 then s
  else match spaceOf wake with
    | some .fence => if o + 8 ≤ spaceSize .fence then s.fenceWord d (o / 8) (sigWord prod) else s
    | some .dom =>
      if 2 ^ 57 < o + 8 || !(s.dom d).mapOk o 8 { w := true, k := false } then s
      else s.wrDom d o (leBytes 8 (sigWord prod (BitVec.ofNat 64 (leNat (s.rdDom d o 8)))).toNat)
    | _ => s

/-- Count a delivered token (R295). -/
def State.countTok (s : State) (d : Nat) : State :=
  { s with fab := { s.fab with doms := FMap.modify {} s.fab.doms d fun (x : FabDom) => { x with tdlv := satAdd 64 x.tdlv 1 } } }

/-- Deliver a token of `data` to its ring, or refuse it FULL or DISABLED (R291, R292). -/
def State.deliverTok (s : State) (d : Nat) (p : Pkt) (data : List Byte) (direct : Bool) (replica : BitVec 2) (expert : BitVec 16) : State :=
  match (s.dom d).binding.bind fun b => ringEntry b (fld p.adr 0 6) (fld p.aux 32 4) with
  | none => s.nak p nakDISABLED
  | some e =>
    let s := s.reads d e 64 { r := true, w := true, k := false }
    match s.ringAt d e with
    | none => s.nak p nakDISABLED
    | some r =>
      let n := 1 + data.length / 64
      let pos := r.prod.toNat % r.size
      let pad := if r.size < pos + n then r.size - pos else 0
      if r.size < (r.prod - r.cons).toNat + n + pad then s.nak p nakFULL
      else
        let s := if pad = 0 then s
          else s.wrDom d (r.base + 64 * pos) (entryHeader (64 * (pad - 1)) 2 0 0 0 0 0 0 0)
        let hd := entryHeader data.length (if direct then 3 else 1) (if direct then 0 else replica.toNat)
          (if direct then 0 else expert.toNat) p.src.toNat (fld p.adr 16 16) (fld p.adr 32 6) (fld p.adr 38 3) (fld p.aux 0 32)
        let s := s.wrDom d (r.base + 64 * ((pos + pad) % r.size)) (hd ++ data)
        let prod := r.prod + BitVec.ofNat 64 (n + pad)
        let s := s.wrDom d (e + 0x10) (leBytes 8 prod.toNat)
        ((s.wakeRing d r.wake prod).countTok d).ack p

/-- TOKEN (R291). `direct`, `replica` and `expert` are what the entry header says of the TOKD; how the packet carries them is not in the
spec (DESIGN CHOICE, log 45). -/
def execPktToken (p : Pkt) (direct : Bool) (replica : BitVec 2) (expert : BitVec 16) (s : State) : Out :=
  .next (s.onPkt p 6 fun s d =>
    match s.tokJoin p with
    | (s, some data) => s.deliverTok d p data direct replica expert
    | (s, none) => s)

/-! ### ACK and NAK at the source (R271, R272, R292, R293) -/

/-- Take a dispatched token off its Wick's list; a Wick that waited for it halts (R180). -/
def State.takeTok (s : State) (d c k : Nat) (x : BitVec 16) : State × Option TokRec :=
  let w := s.wickAt d c k
  (s.setWickAt d c k ({ w with tokd := w.tokd.filter fun t => t.xtag != x.toNat } : Wick).settle, w.tokd.find? fun t => t.xtag == x.toNat)

/-- The bounce record (R293). -/
def bounceBytes (c : Nat) (t : TokRec) (code : Nat) : List Byte :=
  leBytes 8 t.src.toNat ++ leBytes 8 t.se.toNat ++ leBytes 4 t.key.toNat ++ leBytes 4 (fld t.len 0 32)
    ++ leBytes 8 (match t.fence with | some f => f.adr.toNat | none => 0)
    ++ leBytes 8 (match t.fence with | some f => f.val.toNat | none => 0)
    ++ leBytes 2 c ++ leBytes 1 code ++ leBytes 1 t.ring ++ leBytes 20 0

def State.modFabDom (s : State) (d : Nat) (f : FabDom → FabDom) : State :=
  { s with fab := { s.fab with doms := FMap.modify {} s.fab.doms d f } }

/-- A bounce is counted in FAB_DOM_BLOST (R293). -/
def State.bounceLost (s : State) (d : Nat) : State := s.modFabDom d fun x => { x with blost := satAdd 32 x.blost 1 }

/-- Write a bounce record, or count it lost (R293): without a usable log, a control block that can be read and written, room, and a page
for the record. -/
def State.logBounce (s₀ : State) (d : Nat) (bs : List Byte) : State :=
  match (s₀.dom d).binding, (FMap.get {} s₀.fab.doms d : FabDom).blog.ring with
  | some b, some (base, log2) =>
    let cb := offOf b.blog
    let s := s₀.reads d cb 64 { r := true, w := true, k := false }
    let l := (FMap.get {} s.fab.doms d : FabDom).blog
    let m := s.dom d
    let cons := leNat (s.rdDom d (cb + 0x18) 8)
    let a := offOf base + 64 * (l.prod % 2 ^ log2)
    if !m.mapOk cb 64 { r := true, w := true, k := false } || (s.poisonAt d cb 64).isSome
      || decide (2 ^ log2 ≤ (l.prod + 2 ^ 64 - cons) % 2 ^ 64) || !m.mapOk a 64 { w := true, k := false } then s.bounceLost d
    else
      ((s.wrDom d a bs).wrDom d (cb + 0x10) (leBytes 8 (l.prod + 1))).modFabDom d
        fun x => { x with blog := { x.blog with prod := (x.blog.prod + 1) % 2 ^ 64 } }
  | _, _ => s₀.bounceLost d

/-- A dispatched token is bounced: counted, and a record (R292, R293). -/
def State.bounced (s : State) (d c : Nat) (t : TokRec) (code : Nat) : State :=
  (s.modFabDom d fun y => { y with bnc := satAdd 64 y.bnc 1 }).logBounce d (bounceBytes c t code)

/-- A token is bounced: the fence raised as aborted, and a record (R292). -/
def State.bounce (s : State) (d c k : Nat) (x : BitVec 16) (code : Nat) : State :=
  match s.takeTok d c k x with
  | (s, some t) => (s.abortFence d c t.fence).bounced d c t code
  | (s, none) => s

/-- ACK (R271). -/
def execPktAck (p : Pkt) (s : State) : Out :=
  .next (if s.dev.st != .run || p.ptype != 4 || p.dst.toNat != s.fab.chip then s
    else if p.malformed then (s.freeIn p).countMalform
    else match s.heldBy p with
      | none => s.freeIn p
      | some h =>
        let s := s.freeIn p
        let s := s.dropHeld h.pkt.xtag
        match h.owner with
        | .dma d c k q => s.dmaAcked d c k q
        | .tok d c k =>
          (match s.takeTok d c k h.pkt.xtag with
           | (t, some r) => t.signalFence d c r.fence r.pc
           | (t, none) => t)
        | .coll d id seq => (s.modOp d id seq fun o => { o with unacked := o.unacked - 1 }).collRun d id
        | .ckpt d => s.modCk d fun x => { x with left := x.left - 1 }
        | _ => s)

/-- The fault that a refused transfer ends with: PERM, or the one the NAK reports (R92, R285). -/
def nakFault (p : Pkt) : FCode := if p.fault = 5 then .nomap else if p.fault = 7 then .poison else .perm

/-- A packet was refused at its destination (R285). -/
def State.refused (s : State) (h : Held) (e : FCode) : State :=
  let s := s.dropHeld h.pkt.xtag
  match h.owner with
  | .dma d c k q | .readReq d c k q => s.dmaFailed d c k q e
  | .tok d c k =>
    (match s.takeTok d c k h.pkt.xtag with
     | (t, some r) => (t.abortFence d c r.fence).asyncFault d c k e r.pc r.se
     | (t, none) => t)
  | .coll d id seq =>
    (match s.comm? d id with
     | some x => (match x.op? seq with
       | some o => s.collFault d id o 5 e o.src
       | none => s)
     | none => s)
  | .ckpt d => s.modCk d fun x => { x with left := x.left - 1, bad := true }
  | _ => s

/-- Mark a held packet. -/
def State.markHeld (s : State) (x : BitVec 16) (st : HeldSt) : State :=
  { s with fab := { s.fab with held := s.fab.held.map fun h => if h.pkt.xtag = x then { h with st := st } else h } }

/-- NAK (R272, R280): by its reason. A NAK with a reserved code is malformed. -/
def execPktNak (p : Pkt) (s : State) : Out :=
  let code := p.aux.toNat
  .next (if s.dev.st != .run || p.ptype != 5 || p.dst.toNat != s.fab.chip then s
    else if p.malformed || code = 0 || decide (6 < code) then (s.freeIn p).countMalform
    else match s.fab.held.find? fun h => h.pkt.xtag == p.xtag with
      | none => s.freeIn p
      | some h =>
        let s := s.freeIn p
        match h.owner, code with
        | .tok d c k, 1 | .tok d c k, 2 | .tok d c k, 5 => (s.dropHeld h.pkt.xtag).bounce d c k h.pkt.xtag code
        | .lateTok d c t, 1 | .lateTok d c t, 2 | .lateTok d c t, 5 => (s.dropHeld h.pkt.xtag).bounced d c t code
        | .nobody, 1 | .nobody, 2 => s.dropHeld h.pkt.xtag
        | _, 3 => s.refused h (nakFault p)
        | _, 4 => s.markHeld h.pkt.xtag (.busy s.clk)
        | _, 5 => s.markHeld h.pkt.xtag (.stranded s.beacon)
        | _, 6 => s.markHeld h.pkt.xtag (.noroute s.beacon)
        | _, _ => s)

/-- Send a held packet again. -/
def State.resendHeld (s : State) (x : BitVec 16) : State :=
  match s.fab.held.find? fun h => h.pkt.xtag == x with
  | some h => s.onFab fun f => f.resend h
  | none => s

/-- STRAND_RESEND (R272, R616): 1 ms of Beacon time after the NAK. -/
def execStrandResend (x : BitVec 16) (s : State) : Out :=
  .next (match s.fab.held.find? fun h => h.pkt.xtag == x with
    | some h => (match h.st with
      | .stranded t => if decide (t + 1000000 ≤ s.beacon) && s.dev.st == .run then s.resendHeld x else s
      | .noroute _ => if s.dev.st = .run then s.onFab fun f => f.norouteEnd h.pkt.dst s.beacon else s
      | _ => s)
    | none => s)

/-- READ_REQ_RETRY (R272): 1 µs after NAK BUSY. -/
def execReadReqRetry (x : BitVec 16) (s : State) : Out :=
  .next (match s.fab.held.find? fun h => h.pkt.xtag == x with
    | some h => (match h.st with
      | .busy t => if decide (t + 1000 ≤ s.clk) && s.dev.st == .run then s.resendHeld x else s
      | _ => s)
    | none => s)

/-! ### Joint sessions and closing bindings (R335, R430) -/

/-- The body of JOINT_PEER: JOB_TAG, SESSION_ID, POLICY_DIGEST; its place in the packet is not in the spec (DESIGN CHOICE,
log 43). -/
def State.peerBytes (s : State) (d : Nat) : List Byte :=
  match (s.dom d).binding, (s.sec.dom d).policy with
  | some b, some p => leBytes 8 b.tag.toNat ++ (p.drop 16).take 16 ++ sha384 p
  | _, _ => []

/-- Send JOINT_PEER to a chip of the binding. -/
def State.sendPeer (s : State) (d chip : Nat) : State :=
  let bs := s.peerBytes d
  s.send { s.pktTo d chip with
    tag := 0, tc := 3, ptype := 8, pspec := 0x0300, bytes := BitVec.ofNat 32 bs.length, data := bs }

/-- A chip is confirmed: what waited for it is sent. -/
def State.confirmPeer (s : State) (d chip : Nat) : State :=
  let x := s.sec.dom d
  let s := { s with sec := s.sec.setDom d { x with confirmed := x.confirmed ++ [chip] } }
  let go := s.fab.held.filter fun h => h.st == .unconf && h.pkt.sdom.toNat == d && h.pkt.dst.toNat == chip
  s.onFab fun f => go.foldl FabSt.resend f

/-- JOINT_PEER (R430): a chip that holds the same three values is confirmed, and answered unless it was so before. -/
def execJointPeer (p : Pkt) (s : State) : Out :=
  .next (if s.dev.st != .run || p.ptype != 8 || p.dst.toNat != s.fab.chip then s
    else if p.badCtrl || p.pspec.toNat % 2 ^ 16 != 0x300 then (s.freeIn p).countMalform
    else match s.ctrlDom p with
      | none => (s.freeIn p).reject p
      | some d =>
        let s := (s.freeIn p).ack p
        if (s.sec.dom d).joint == .none || p.data != s.peerBytes d || (s.sec.dom d).confirmed.contains p.src.toNat then s
        else (s.confirmPeer d p.src.toNat).sendPeer d p.src.toNat)

/-- CLOSING_BINDING_EXPIRE (R335): 1 s of Beacon time after the removal. -/
def execClosingBindingExpire (d : BitVec 8) (s : State) : Out :=
  .next (match (s.dom d.toNat).closing with
    | some (_, t) => if t + 1000000000 ≤ s.beacon then s.modDom d.toNat fun m => { m with closing := none } else s
    | none => s)

end Sys2Proof.Machine
end

