-- ==== Sys2Proof/Machine/CollRows.lean ====
section
/-! DEFINITION. The packets, control messages and timers of the collective engine as commands (R299, R300, R304, R308 to
R323). -/

namespace Sys2Proof.Machine

/-! ### Arrival of a collective's packets (R285, R305, R323, R335) -/

/-- A packet that names a communicator that is BROKEN or not here: counted late (R299, R323). -/
def State.countLate (s : State) (id : Nat) : State :=
  s.modColl (engOf id) fun e => { e with late := satAdd 64 e.late 1 }

/-- Fields of a REDUCE packet (R315). -/
def Pkt.redComm (p : Pkt) : Nat := p.pspec.toNat % 2 ^ 16
def Pkt.redKind (p : Pkt) : Nat := p.pspec.toNat / 2 ^ 16 % 2 ^ 8
def Pkt.redLevel (p : Pkt) : Nat := p.pspec.toNat / 2 ^ 24 % 2 ^ 8
def Pkt.redSeq (p : Pkt) : Nat := p.pspec.toNat / 2 ^ 32 % 2 ^ 32
def Pkt.redRank (p : Pkt) : Nat := p.pspec.toNat / 2 ^ 64 % 2 ^ 32
def Pkt.redShard (p : Pkt) : Nat := p.pspec.toNat / 2 ^ 96 % 2 ^ 32
def Pkt.redChunk (p : Pkt) : Nat := p.pspec.toNat / 2 ^ 128 % 2 ^ 32
def Pkt.redSig (p : Pkt) : BitVec 32 := p.pspec.extractLsb' 160 32
def Pkt.item (p : Pkt) : Item := { kind := p.redKind, level := p.redLevel, shard := p.redShard, chunk := p.redChunk }

/-- The full sequence number of a packet's low 32 bits: the one nearest to those in use. -/
def fullSeq (issued q : Nat) : Nat :=
  let c := issued / 2 ^ 32 * 2 ^ 32 + q
  if c + 2 ^ 31 < issued then c + 2 ^ 32 else if issued + 2 ^ 31 < c ∧ 2 ^ 32 ≤ c then c - 2 ^ 32 else c

/-- The checks every REDUCE packet passes first; `f` gets the domain and the communicator, its packet acknowledged. -/
def State.onReduce (s : State) (p : Pkt) (kind : Nat) (f : Nat → Comm → State → State) : State :=
  let d := p.ddom.toNat
  let id := p.redComm
  if s.dev.st != .run || p.ptype != 7 || p.dst.toNat != s.fab.chip then s
  else if p.malformed || p.redKind = 0 || decide (8 < p.redKind) || (p.redKind != 2 && p.redLevel != 0) then
    (s.freeIn p).countMalform
  else if p.redKind != kind then s
  else
  let s := s.freeIn p
  if !s.admits p then (if s.admitsClosing p then (s.countLate id).ack p else s.reject p)
  else
    match s.comm? d id with
    | none => (s.countLate id).ack p
    | some x =>
      if x.st = .broken || x.ranks.getD p.redRank 0x2000 != p.src.toNat then (s.countLate id).ack p
      else
        let s := s.setComm d id { x with peerSeq := max x.peerSeq (fullSeq x.issued p.redSeq + 1) }
        f d x (s.ack p)

/-- Bytes that an item's packet carries (R306, R315). -/
def CollOp.itemLen (o : CollOp) (n : Nat) (i : Item) : Nat :=
  if i.kind = 1 then o.chunkLen n i.shard i.chunk * o.esz
  else if i.kind = 2 ∨ i.kind = 3 then 4 * o.chunkLen n i.shard i.chunk
  else if i.kind = 8 then 64 else o.blockLen i.chunk

/-- An item of a stream arrives for an outstanding collective. A SIG that differs faults this member's context (R305); an item
that is not of the stream, or came before, has no effect. -/
def State.onItem (s : State) (p : Pkt) (kind : Nat) (f : Nat → Comm → CollOp → State → State) : State :=
  s.onReduce p kind fun d x s =>
    match x.op? (fullSeq x.issued p.redSeq) with
    | none => s
    | some o =>
      if p.redSig != o.sig then s.collFault d p.redComm o 4 (if o.upd.isSome then .badrule else .illegal) 0
      else if p.data.length != o.itemLen x.nranks p.item then s.countMalform
      else if (x.itemsOf o p.redRank x.myrank).contains p.item && !x.arrived o p.redRank p.item then
        (f d x o s).collArrive d p.redComm o.seq
      else s

/-- Land an item's bytes at an address of the domain, and note it arrived. -/
def State.landItem (s : State) (d : Nat) (p : Pkt) (o : CollOp) (a : DWord) : State :=
  match s.engWrite d a p.data with
  | .error (e, b) => s.collFault d p.redComm o 5 e b
  | .ok t => t.modOp d p.redComm o.seq fun q => { q with got := FMap.set false q.got (chunkKey p.redShard p.redChunk * 2) true }

/-- CONTRIB (R308): added when its turn has come, otherwise stored in the rank's RBUF slot. -/
def execCollContrib (p : Pkt) (s : State) : Out :=
  .next (s.onItem p 1 fun d x o s =>
    match FMap.find? o.sums p.redChunk with
    | none => s
    | some (k, nx, acc) =>
      if nx = p.redRank then
        let ws := o.promote p.data
        (s.modColl (engOf p.redComm) fun e => { e with adds := e.adds + (if nx = 0 then 0 else ws.length) }).modOp
          d p.redComm o.seq fun q => { q with
            sums := FMap.insert q.sums p.redChunk (k, nx + 1, if nx = 0 then ws else addWords acc ws) }
      else match s.engWrite d (x.slotAdr p.redRank k) p.data with
        | .error (e, b) => s.collFault d p.redComm o 5 e b
        | .ok t =>
          (t.modColl (engOf p.redComm) fun e => { e with rbuf := e.rbuf + p.data.length }).modOp d p.redComm o.seq
            fun q => { q with stored := FMap.set false q.stored (p.redChunk * 8192 + p.redRank) true })

/-- PARTIAL (R310): added when the node's first child is there; otherwise it waits in its combine slot. -/
def execCollPartial (p : Pkt) (s : State) : Out :=
  .next (s.onItem p 2 fun d _ o s =>
    (s.modOp d p.redComm o.seq fun q =>
      { q with slots := FMap.insert q.slots (chunkKey p.redShard p.redChunk * 16 + p.redLevel) (toWords p.data) }).treeMerge
        16 d p.redComm o.seq p.redShard p.redChunk)

/-- RESULT (R306, R318): to DST, or into the update engine's FIFO in element order. -/
def execReduceResult (p : Pkt) (s : State) : Out :=
  .next (s.onItem p 3 fun d x o s =>
    match o.upd with
    | none => s.landItem d p o (o.resAdr x.nranks p.redShard p.redChunk)
    | some u =>
      if o.resultIndex x.nranks p.redShard p.redChunk != o.fed then s
      else (s.feed u (toWords p.data)).modOp d p.redComm o.seq fun q => { q with
        fed := q.fed + 1, got := FMap.set false q.got (chunkKey p.redShard p.redChunk * 2) true })

/-- GATHER (R311). -/
def execCollGather (p : Pkt) (s : State) : Out :=
  .next (s.onItem p 4 fun d _ o s => s.landItem d p o (movAdr o.dst (p.redShard * o.count + 4096 * p.redChunk)))

/-- BCAST (R312): it lands, and goes on down the tree. -/
def execCollBcast (p : Pkt) (s : State) : Out :=
  .next (s.onItem p 5 fun d _ o s => s.landItem d p o (movAdr o.dst (4096 * p.redChunk)))

/-- BARRIER_UP (R313): counted against its sequence number. -/
def execBarrierUp (p : Pkt) (s : State) : Out :=
  .next (s.onReduce p 6 fun d x s =>
    let q := fullSeq x.issued p.redSeq
    if q < x.done || !((childPos x.nranks x.myrank).map (·.2)).contains p.redRank then s
    else
      (s.modComm d p.redComm fun y => { y with ups := FMap.set none y.ups (q * 8192 + p.redRank) (some p.redSig) }).barrierRun
        d p.redComm q)

/-- BARRIER_DOWN (R313). -/
def execBarrierDown (p : Pkt) (s : State) : Out :=
  .next (s.onReduce p 7 fun d x s =>
    let q := fullSeq x.issued p.redSeq
    if q < x.done || x.myrank = 0 || p.redRank != parentPos x.myrank then s
    else
      (s.modComm d p.redComm fun y => { y with downs := FMap.set none y.downs q (some p.redSig) }).barrierRun d p.redComm q)

/-- TOKSUM (R318): into the sender's token area, and summed when every word has come. -/
def execCollToksum (p : Pkt) (s : State) : Out :=
  .next (s.onItem p 8 fun d x o s =>
    match s.engWrite d (x.tokAdr p.redRank (o.seq % 8)) (p.data.take 8) with
    | .error (e, b) => s.collFault d p.redComm o 5 e b
    | .ok t => t.modOp d p.redComm o.seq fun q =>
      { q with toks := FMap.set none q.toks p.redRank (some (BitVec.ofNat 64 (leNat (p.data.take 8)))) })

/-! ### Control messages (R299, R314, R316, R322) -/

def Pkt.msgType (p : Pkt) : Nat := p.pspec.toNat % 2 ^ 16
def Pkt.ctlComm (p : Pkt) : Nat := p.pspec.toNat / 2 ^ 16 % 2 ^ 16
def Pkt.ctlRank (p : Pkt) : Nat := p.pspec.toNat / 2 ^ 32 % 2 ^ 32
def Pkt.ctlValue (p : Pkt) : Nat := p.pspec.toNat / 2 ^ 64 % 2 ^ 64
def Pkt.ctlCause (p : Pkt) : Nat := p.pspec.toNat / 2 ^ 128 % 2 ^ 32

/-- A binding or closing binding of the domain lists the sender (R335). -/
def State.ctrlClosing (s : State) (p : Pkt) : Bool :=
  match (s.dom p.ddom.toNat).closing with
  | some (b, _) => b.domOn p.src.toNat == some p.sdom.toNat
  | none => false

/-- The checks of a collective control message; `f` gets the domain and the communicator. -/
def State.onCollMsg (s : State) (p : Pkt) (ty : Nat) (late : Bool) (f : Nat → Comm → State → State) : State :=
  if s.dev.st != .run || p.ptype != 8 || p.dst.toNat != s.fab.chip then s
  else if p.badCtrl || (decide (0x103 ≤ p.msgType) && decide (p.msgType ≤ 0x1FF)) || p.pspec.toNat / 2 ^ 160 != 0 then
    (s.freeIn p).countMalform
  else if p.msgType != ty then s
  else
  let s := s.freeIn p
  match s.ctrlDom p with
    | none => if s.ctrlClosing p then (if late then s.countLate p.ctlComm else s).ack p else s.reject p
    | some d =>
      match s.comm? d p.ctlComm with
      | none => (if late then s.countLate p.ctlComm else s).ack p
      | some x =>
        if x.ranks.getD p.ctlRank 0x2000 != p.src.toNat || p.ctlRank = x.myrank then s.ack p
        else f d x (s.ack p)

/-- The descriptor check (R299). -/
def Comm.check (x : Comm) : Nat :=
  (crc32c (leBytes 4 x.nranks ++ leBytes 2 (if x.algo then 1 else 0) ++ leBytes 1 x.depth
    ++ (x.ranks.map fun r => leBytes 2 r).flatten)).toNat

/-- Send READY to ranks. -/
def State.sendReady (s : State) (d id : Nat) (x : Comm) (to_ : List Nat) : State :=
  to_.foldl (fun t r => t.sendColl d id x r 0x0100 x.check 0) s

/-- A communicator whose peers have all sent a matching READY becomes READY (R299). -/
def State.commReadyNow (s : State) (d id : Nat) : State :=
  match s.comm? d id with
  | none => s
  | some x =>
    if x.st = .creating && x.others.all fun r => FMap.get false x.ready r then
      let y := { x with st := .ready }
      ((s.setComm d id y).writeStatus d y).collRun d id
    else s

/-- READY (R299). -/
def execCommReady (p : Pkt) (s : State) : Out :=
  .next (s.onCollMsg p 0x100 true fun d x s =>
    let id := p.ctlComm
    if x.st = .broken then s
    else if p.ctlValue % 2 ^ 32 != x.check then s.breakComm d id 4 p.ctlRank
    else if x.st = .ready then s.sendReady d id x [p.ctlRank]
    else (s.modComm d id fun y => { y with ready := FMap.set false y.ready p.ctlRank true }).commReadyNow d id)

/-- READY_RESEND (R299): every 1 ms of Beacon time while CREATING, to each member not yet heard. -/
def execCommReadyResend (d : BitVec 8) (id : BitVec 16) (s : State) : Out :=
  .next (match s.comm? d.toNat id.toNat with
    | some x =>
      if s.dev.st == .run && x.st == .creating && decide (x.readyAt + 1000000 ≤ s.beacon) then
        (s.modComm d.toNat id.toNat fun y => { y with readyAt := s.beacon }).sendReady d.toNat id.toNat x
          (x.others.filter fun r => !FMap.get false x.ready r)
      else s
    | none => s)

/-- GRANT (R314): the limit is cumulative. -/
def execCommGrant (p : Pkt) (s : State) : Out :=
  .next (s.onCollMsg p 0x101 true fun d x s =>
    if x.st = .broken then s.countLate p.ctlComm
    else (s.modComm d p.ctlComm fun y =>
      { y with limit := FMap.modify 0 y.limit p.ctlRank fun l => max l p.ctlValue }).collRun d p.ctlComm)

/-- BREAK (R322): reserved causes are treated as FAULT. -/
def execCommBreak (p : Pkt) (s : State) : Out :=
  .next (s.onCollMsg p 0x102 false fun d _ s =>
    s.breakComm d p.ctlComm (if 1 ≤ p.ctlCause ∧ p.ctlCause ≤ 5 then p.ctlCause else 5) p.ctlRank)

/-! ### Completion and timers -/

/-- COLLECTIVE_COMPLETE (R304): the oldest collective of the communicator. -/
def execCollectiveComplete (d : BitVec 8) (id : BitVec 16) (s : State) : Out :=
  .next (if s.dev.st = .run then s.collComplete d.toNat id.toNat else s)

/-- COLLWAIT (R321): a collective has stayed outstanding for another WDOG ms. -/
def execCollwait (d : BitVec 8) (id : BitVec 16) (seq : BitVec 64) (s : State) : Out :=
  .next (match s.comm? d.toNat id.toNat with
    | none => s
    | some x =>
      match x.op? seq.toNat with
      | none => s
      | some o =>
        if s.dev.st != .run || decide (s.beacon < o.issued + (o.dog + 1) * x.wdog * 1000000) then s
        else
          let miss := x.missing
          let s := s.logErr d.toNat { time := s.beacon, kind := 3
                                      detail := leBytes 2 id.toNat ++ leBytes 2 0 ++ leBytes 8 o.seq ++ leBytes 4 miss.length
                                        ++ leBytes 4 (match miss with | [] => 0xFFFFFFFF | r :: _ => r) }
          let y := { (x.modOp o.seq fun q => { q with dog := q.dog + 1 }) with waits := satAdd 32 x.waits 1 }
          let s := s.setComm d.toNat id.toNat y
          let s := { s with eng := { s.eng with wait := FMap.modify 0 s.eng.wait d.toNat fun c => satAdd 32 c 1 } }
          s.writeStatus d.toNat y)

/-- COMM_STATUS_WRITE (R300): every 1 ms of Beacon time while a collective is outstanding. -/
def execCommStatusWrite (d : BitVec 8) (id : BitVec 16) (s : State) : Out :=
  .next (match s.comm? d.toNat id.toNat with
    | none => s
    | some x =>
      if s.dev.st == .run && !x.ops.isEmpty && decide (x.statAt + 1000000 ≤ s.beacon) then
        let y := { x with statAt := s.beacon }
        (s.setComm d.toNat id.toNat y).writeStatus d.toNat y
      else s)

end Sys2Proof.Machine
end

