-- ==== Sys2Proof/Machine/Queue.lean ====
section
/-! DEFINITION. Submission and completion queues (R330, R338 to R343), and how a command starts and completes (R341, R345 to
R347, R357). -/

namespace Sys2Proof.Machine

/-! ### Whose stream (R330) -/

/-- The Secure stream that serves a VF's memory requests: the one bound to a locked TDI, else a Selective stream of the VF, else
the Link stream. -/
def State.stream (s : State) (d : Nat) : Option Nat :=
  let sec (n : Nat) : Bool := (FMap.get {} s.sec.streams n : IdeStream).secure
  let link := if sec 0 then some 0 else none
  let own := (List.find? (fun (p : Nat × IdeStream) => p.1 != 0 && p.2.secure && p.2.fn == d + 1) s.sec.streams).map (·.1)
  match (s.dom d).tdi with
  | .locked | .run => match FMap.find? s.sec.tdiStream d with
    | some n => if sec n then some n else none
    | none => none
  | _ => match own with
    | some n => some n
    | none => link

/-- The VF issues memory requests (R330, R332). -/
def State.issues (s : State) (d : Nat) : Bool := (s.dom d).there && (s.stream d).isSome && (s.dom d).tdi != .locked

/-! ### Fetching (R340) -/

def SQueue.size (q : SQueue) : Nat := 2 ^ q.log2

/-- Commands fetched whose completion entries are not consumed. -/
def SQueue.reserved (q : SQueue) : Nat := q.fetched.length + q.started.length + q.late.length + q.unread

/-- Fetch while R340 lets it, at most `n` entries. -/
def SQueue.fetchAll : Nat → SQueue → SQueue
  | 0, q => q
  | n + 1, q =>
    if q.en && q.head != q.tail && decide (q.reserved < q.size) then
      SQueue.fetchAll n { q with head := (q.head + 1) % q.size, fetched := q.fetched ++ [q.ring.headD {}], ring := q.ring.tail }
    else q

/-- Fetch what a queue may fetch now. -/
def State.fetch (s : State) (d q : Nat) : State :=
  if s.issues d then s.setQueue d q (SQueue.fetchAll (s.queue d q).size (s.queue d q)) else s

/-! ### Completion (R342, R347) -/

/-- The 32 bytes of a completion entry. -/
def CplEntry.bytes (e : CplEntry) (head : Nat) (phase : Bool) : List Byte :=
  leBytes 4 e.cmd.cmdid.toNat ++ leBytes 2 e.st ++ leBytes 2 e.cmd.ctx.toNat ++ leBytes 8 e.result.toNat ++ leBytes 8 e.time
    ++ leBytes 2 head ++ leBytes 1 e.cmd.opcode.toNat ++ leBytes 1 (if phase then 1 else 0) ++ leBytes 4 0

/-- Write a completion entry, then raise the queue's vector (R342). -/
def State.writeCpl (s : State) (d q : Nat) (e : CplEntry) : State :=
  let x := s.queue d q
  let wrap := x.cqTail + 1 == x.size
  let s := { s with hostMem := Memory.wrN s.hostMem (x.cqBase.toNat + 32 * x.cqTail) (e.bytes x.head x.phase) }
  (s.setQueue d q { x with
    cqTail := if wrap then 0 else x.cqTail + 1, phase := xor x.phase wrap, unread := x.unread + 1 }).raiseIrq (d + 1) (1 + q)

/-- Write the entries that waited for a Secure stream, in completion order. -/
def State.flushLate (s : State) (d q : Nat) : State :=
  if s.issues d then
    (s.queue d q).late.foldl (fun t e => t.writeCpl d q e) (s.setQueue d q { s.queue d q with late := [] })
  else s

/-- The entry of a completed command; QUIET with OK writes none. -/
def State.complete (s : State) (d q : Nat) (c : Cmd) (st : Nat) (result : DWord) : State :=
  let x := s.queue d q
  let s := if c.flags.getLsbD 2 && st == 0 then s
    else s.setQueue d q { x with late := x.late ++ [{ cmd := c, st := st, result := result, time := s.beacon }] }
  (s.flushLate d q).fetch d q

/-- A VF's streams have changed: held entries are written and fetching goes on. -/
def State.wakeQueues (s : State) (d : Nat) : State :=
  (s.dom d).qs.foldl (fun t p => (t.flushLate d p.1).fetch d p.1) s

/-! ### Registers and doorbells (R338, R339, R343) -/

/-- A doorbell write that is dropped (R369). -/
def State.dbErr (s : State) (d q v : Nat) : State :=
  s.logErr d { time := s.beacon, kind := 6, detail := leBytes 1 q ++ leBytes 3 0 ++ leBytes 4 v }

/-- A doorbell is taken: the domain exists and is not fenced (R336). -/
def State.doorOpen (s : State) (d : Nat) : Bool := (s.dom d).there && !(s.dom d).fenced

/-- SQ_TAIL: `ring` is what the ring holds from HEAD on. -/
def State.ringTail (s : State) (d q v : Nat) (ring : List Cmd) : State :=
  let x := s.queue d q
  if !s.doorOpen d then s
  else if !x.en || decide (x.size ≤ v) then s.dbErr d q v
  else (s.setQueue d q { x with tail := v, ring := ring }).fetch d q

/-- CQ_HEAD: the entries passed are consumed. -/
def State.ringHead (s : State) (d q v : Nat) : State :=
  let x := s.queue d q
  if !s.doorOpen d then s
  else if !x.en || decide (x.size ≤ v) then s.dbErr d q v
  else (s.setQueue d q { x with cqHead := v, unread := x.unread - (v + x.size - x.cqHead) % x.size }).fetch d q

/-- Setting EN (R338). -/
def State.enableQueue (s : State) (d q : Nat) : State :=
  let x := s.queue d q
  if !s.doorOpen d || x.en then s
  else if x.log2 < 4 ∨ 12 < x.log2 ∨ x.sqBase.toNat % 4096 ≠ 0 ∨ x.cqBase.toNat % 4096 ≠ 0 then
    s.logErr d { time := s.beacon, kind := 7, detail := leBytes 1 q }
  else s.setQueue d q { x with en := true, head := 0, tail := 0, cqHead := 0, cqTail := 0, phase := true, unread := 0, ring := [] }

/-- Clearing EN: what was fetched and not started completes with ABORTED, in order (R343). -/
def State.disableQueue (s : State) (d q : Nat) : State :=
  let x := s.queue d q
  if !s.doorOpen d || !x.en then s
  else x.fetched.foldl (fun t c => (t.cmdFence d c false).complete d q c stABORTED 0)
    (s.setQueue d q { x with en := false, fetched := [] })

/-! ### Starting a command (R341, R344 to R348, R357) -/

/-- Bytes `o` to `o + n − 1` of a command, in its ARGS. -/
def Cmd.arg (c : Cmd) (o n : Nat) : Nat := c.args.toNat / 2 ^ (8 * (o - 0x28)) % 2 ^ (8 * n)
def Cmd.arg64 (c : Cmd) (o : Nat) : DWord := BitVec.ofNat 64 (c.arg o 8)

/-- How many low bits of ARGS an opcode uses (R348, R350 to R356, R513); none for an opcode that is not listed. -/
def argBits : Nat → Option Nat
  | 0x01 => some 0 | 0x08 => some 128 | 0x09 => some 64 | 0x10 => some 155 | 0x11 => some 0 | 0x12 => some 64
  | 0x18 => some 76 | 0x19 => some 64 | 0x20 => some 176 | 0x28 => some 64 | 0x29 => some 0 | 0x2A => some 128
  | 0x2B => some 64 | 0x30 => some 64 | 0x31 => some 16 | 0x32 => some 16 | 0x38 => some 64 | 0x39 => some 0
  | 0x3A => some 128 | 0x3B => some 66 | 0x3C => some 0
  | _ => none

/-- A reserved value in the opcode's own fields (R344): LAUNCH's ARGLEN, NLANT and an ARGS without bytes; MAP's PLACE and PERM;
COPY's DIR; EHT_LOAD's COUNT. -/
def Cmd.badArgs (c : Cmd) : Bool :=
  let place := c.arg 0x30 1
  let perm := c.arg 0x31 1
  let rsv := decide (2 ^ 56 ≤ offOf (c.arg64 0x28))
  match c.opcode.toNat with
  | 0x10 => decide (c.arg 0x38 2 % 64 ≠ 0 ∨ 4096 < c.arg 0x38 2 ∨ c.arg 0x3A 1 = 0 ∨ 64 < c.arg 0x3A 1
      ∨ (c.arg 0x38 2 = 0 ∧ c.arg 0x30 8 ≠ 0))
  | 0x18 => decide (32 ≤ place ∨ (16 ≤ place ∧ place % 16 ≠ 0)) || (!rsv && decide (12 ≤ place % 16))
      || (perm.testBit 2 && !(perm.testBit 3 && perm.testBit 0))
  | 0x20 => decide (2 ≤ c.arg 0x3C 1)
  | 0x2A => decide (c.arg 0x34 4 = 0 ∨ 65536 < c.arg 0x34 4)
  | _ => false

/-- BADCMD: an opcode that is not listed, or a reserved field, unused byte or reserved value (R344, R348). -/
def Cmd.malformed (c : Cmd) : Bool :=
  decide (16 ≤ c.flags.toNat) || (!c.flags.getLsbD 0 && (c.wref != 0 || c.wval != 0))
    || (c.flags.getLsbD 1 && (c.sref != 0 || c.sval != 0))
    || (match argBits c.opcode.toNat with | some n => decide (2 ^ n ≤ c.args.toNat) | none => true) || c.badArgs

/-- A fence reference that R346 refuses. -/
def Dom.badRef (m : Dom) (ref val : DWord) : Bool :=
  let o := offOf ref
  decide (o % 8 ≠ 0) || val.getLsbD 63 || (match spaceOf ref with
    | some .fence => decide (4096 ≤ o)
    | some .dom => !m.mapOk o 8 { r := true, w := true, k := false }
    | _ => true)

/-- The opcodes that need a context (R348, R513). -/
def needsCtx (op : Nat) : Bool := [0x10, 0x11, 0x12, 0x2B, 0x38, 0x3B].contains op

/-- Whether the command at a queue's head starts now: none while it waits, `some none` when it goes on to its context, or the status it
completes with (R336, R345 to R347). -/
def State.headCheck (s : State) (d : Nat) (c : Cmd) : Option (Option Nat) :=
  let m := s.dom d
  let wait := c.flags.getLsbD 0
  if m.fenced then some (some stFENCED)
  else
    let w := s.fenceGet d 0 0 c.wref
    let badW := wait && m.badRef c.wref c.wval
    -- the checks are made when the command starts, and it starts when its wait ends (R341, R345)
    if wait && !badW && decide (w.toNat < c.wval.toNat) then none
    else if c.malformed then some (some stBADCMD)
    else if badW || (!c.flags.getLsbD 1 && m.badRef c.sref c.sval) then some (some stBADFENCE)
    else if wait && w.getLsbD 63 then some (some stDEPABORT)
    else some none

/-- The context check (R345, R357): a status, or the state in which the command's tag is live. CTX_DESTROY makes no tag live (R358). -/
def State.tagFor (s : State) (d : Nat) (c : Cmd) : Except Nat State :=
  let op := c.opcode.toNat
  if c.ctx = 0 then (if needsCtx op then .error stBADCTX else .ok s)
  else if op = 0x11 then .ok s
  else match s.ctx? d c.ctx.toNat with
    | some x => if x.status = .aborted then .error stABORTED else .ok s
    | none => if 4096 ≤ (s.dom d).ctxs.length then .error stCTXLIMIT else .ok (s.setCtx d c.ctx.toNat {})

/-- What a command's own part answers: the state, its status (none while it runs), its RESULT. -/
abbrev CmdOut := State × Option Nat × DWord

/-- Completed with OK, or with another status. -/
def State.done (s : State) (result : DWord := 0) : CmdOut := (s, some stOK, result)
def State.fails (s : State) (st : Nat) : CmdOut := (s, some st, 0)

/-- The command at the head of a queue starts, if it is one the event is about and nothing holds it back (R341). `run` is what it
does; a COPY that runs keeps the host's bytes. -/
def State.startHead (s : State) (d q : Nat) (mine : Cmd → Bool) (data : List Byte) (run : State → Cmd → CmdOut) : State :=
  let x := s.queue d q
  match x.fetched with
  | [] => s
  | c :: rest =>
    if !(s.dom d).there || !mine c || decide (16 ≤ x.started.length) || (c.flags.getLsbD 3 && !x.started.isEmpty) then s
    else match s.headCheck d c with
      | none => s
      | some st =>
        let s := s.setQueue d q { x with fetched := rest }
        let r := match st with
          | some e => s.fails e
          | none => match s.tagFor d c with
            | .error e => s.fails e
            | .ok t => run t c
        let y := r.1.queue d q
        r.1.setQueue d q { y with started := y.started ++
          [{ cmd := c, st := r.2.1, result := r.2.2, data := if c.opcode = 0x20 ∧ r.2.1 = none then data else [] }] }

/-- A LAUNCH has run to its end: every Wick halted, every collective and update done (R351). -/
def State.launchDone (s : State) (d c : Nat) : Bool :=
  match s.ctx? d c with
  | some x => (match x.prog with
    | some p => p.wicks.all (fun k => (x.wick k).run == .halted) && !s.workLeft d c
    | none => false)
  | none => false

/-- The program leaves its Lanterns, and its save slots return to the quota. -/
def State.endProg (s : State) (d c : Nat) : State :=
  match s.ctx? d c with
  | some x =>
    let s := { s with lanterns := s.lanterns.map fun (p : Nat × Lantern) => (p.1, p.2.release d c) }
    let s := match x.prog with | some p => s.releaseSlots p | none => s
    s.setCtx d c { x with prog := none, wicks := [], lmem := [], retire := false }
  | none => s

end Sys2Proof.Machine
end

