-- ==== Sys2Proof/Machine/Commands.lean ====
section
/-! DEFINITION. What the host commands do: programs and launching (R350 to R352), memory (R353, R354, R428, R429), fabric, Expert Home
Table and communicators (R355, R356), contexts (R358). -/

namespace Sys2Proof.Machine

/-- Read a DOMAIN range for a command: BADADDR when misaligned, outside DOMAIN, unmapped or not readable, POISON when poisoned (R243,
R349). -/
def State.cmdRead (s : State) (d : Nat) (adr : DWord) (al n : Nat) : Except Nat (List Byte) :=
  let o := offOf adr
  if spaceOf adr ≠ some .dom ∨ o % al ≠ 0 ∨ 2 ^ 57 < o + n ∨ (s.dom d).mapOk o n { r := true, k := false } = false then
    .error stBADADDR
  else if (s.poisonAt d o n).isSome then .error stPOISON
  else .ok (s.rdDom d o n)

/-- The lines of a range that a command reads are read (R230), when `cmdRead` takes the range. -/
def State.cmdReads (s : State) (d : Nat) (adr : DWord) (al n : Nat) : State :=
  if spaceOf adr ≠ some .dom ∨ offOf adr % al ≠ 0 ∨ 2 ^ 57 < offOf adr + n then s else s.reads d (offOf adr) n

/-! ### Programs (R145, R350, R431) -/

/-- The record of a program handle. -/
def Dom.program (m : Dom) (h : DWord) : Option AllocRec :=
  if spaceOf h = some .dom then m.recs.find? fun r => r.kind == .prog && r.base == offOf h else none

/-- The checks of R145 on a code object of LEN bytes. -/
def goodImage (bs : List Byte) : Bool :=
  let size := fieldAt bs 8 8
  let entry := fieldAt bs 0x10 8
  decide (128 ≤ bs.length) && bs.take 4 == [0x41, 0x4D, 0x53, 0x4D] && fieldAt bs 4 2 == 0x100 && fieldAt bs 6 2 == 0
    && size != 0 && size % 32 == 0 && entry % 32 == 0 && decide (entry < size) && fieldAt bs 0x18 8 == 0
    && fieldAt bs 0x50 48 == 0 && bs.length == 128 + size && (bs.drop 0x20).take 48 == sha384 (bs.drop 128)

/-- N, NPROG, NRANGE of a policy table, and where its parts begin (R417). -/
def polN (p : List Byte) : Nat := fieldAt p 8 1
def polNProg (p : List Byte) : Nat := fieldAt p 9 1
def polNRange (p : List Byte) : Nat := fieldAt p 10 2
def polProgs (p : List Byte) : List (List Byte) :=
  (List.range (polNProg p)).map fun i => (p.drop (0x80 + 48 * (polN p + i))).take 48
/-- The egress ranges: BASE, LEN, TAG. -/
def polRanges (p : List Byte) : List (Nat × Nat × Nat) :=
  (List.range (polNRange p)).map fun i =>
    let o := 0x80 + 48 * (polN p + polNProg p) + 32 * i
    (fieldAt p o 8, fieldAt p (o + 8) 8, fieldAt p (o + 16) 1)

/-- The program measurement after an accepted load (R431). -/
def pmrNext (pmr header : List Byte) : List Byte :=
  sha384 ((if pmr.isEmpty then List.replicate 48 0 else pmr) ++ sha384 header)

/-- PROG_LOAD. -/
def State.progLoad (s₀ : State) (d : Nat) (c : Cmd) : CmdOut :=
  let s := s₀.cmdReads d (c.arg64 0x28) 64 (c.arg 0x30 8)
  match s.cmdRead d (c.arg64 0x28) 64 (c.arg 0x30 8) with
  | .error e => s.fails e
  | .ok bs =>
    let hdr := bs.take 128
    let x := s.sec.dom d
    let barred := match x.policy with | some p => !(polProgs p).contains (sha384 hdr) | none => false
    if !goodImage bs || barred then s.fails stBADIMAGE
    else match s.allocPages d .prog false ((bs.length + 2 ^ 21 - 1) / 2 ^ 21) 0
        (fun f => { frame := f, r := true, w := false, x := true, k := true }) (fieldAt bs 0x10 8) with
      | .error e => s.fails e
      | .ok (t, off) =>
        let t := t.wrDom d off bs
        let t := { t with sec := t.sec.setDom d { t.sec.dom d with pmr := pmrNext x.pmr hdr } }
        t.done (BitVec.ofNat 64 (2 * 2 ^ 61 + off))

/-- PROG_UNLOAD. -/
def State.progUnload (s : State) (d : Nat) (c : Cmd) : CmdOut :=
  let h := c.arg64 0x28
  match (s.dom d).program h with
  | none => s.fails stBADADDR
  | some r =>
    if (s.dom d).ctxs.any fun p => match p.2.prog with | some g => g.handle == h | none => false then s.fails stBUSY
    else (s.releaseRec d r).done

/-! ### Launching (R351, R491) -/

/-- Lanterns in service. -/
def State.inService (s : State) : List Nat :=
  (List.range 64).filter fun l => !(s.lantern l).whole && !(s.lantern l).dog

/-- Contexts on a Lantern's run list. -/
def State.runList (s : State) (l : Nat) : Nat := (s.placed.filter fun x => x.p.lants.contains l).length

/-- The order in which LAUNCH takes Lanterns: fewest contexts, then the tile with the most such Lanterns, then rising numbers. -/
def State.lantOrder (s : State) : List Nat :=
  let l := s.inService.map fun l => (s.runList l, l)
  let peers (x : Nat × Nat) : Nat := (l.filter fun y => y.1 == x.1 && y.2 / 16 == x.2 / 16).length
  (sortBy (fun x y => decide (x.1 < y.1) || (x.1 == y.1 && (decide (peers y < peers x) || (peers x == peers y && decide (x.2 ≤ y.2)))))
    l).map Prod.snd

/-- LAUNCH: `none` as status while the program runs. -/
def State.launch (s₀ : State) (d : Nat) (c : Cmd) : CmdOut :=
  let tag := c.ctx.toNat
  let n := c.arg 0x3A 1
  let s := s₀.cmdReads d (c.arg64 0x30) 64 (c.arg 0x38 2)
  match s.ctx? d tag with
  | none => s.fails stBADCTX
  | some x =>
    if x.prog.isSome then s.fails stBUSY
    else match (s.dom d).program (c.arg64 0x28), (if c.arg 0x38 2 = 0 then .ok [] else s.cmdRead d (c.arg64 0x30) 64 (c.arg 0x38 2)) with
      | none, _ => s.fails stBADADDR
      | some _, .error e => s.fails e
      | some r, .ok args =>
        if s.inService.length < n then s.fails stNOSPACE
        else
          let lants := sortBy (fun (a b : Nat) => decide (a ≤ b)) (s.lantOrder.take n)
          let need := sumBy (fun l => (s.lantern l).slotFrames) lants
          let m := s.memDom d
          if s.quota d false < m.usedH + need then s.fails stQUOTA
          else if s.freeCount false < need then s.fails stNOFRAME
          else
            -- the program counter has no space tag (R75, R122)
            let pc : DWord := BitVec.ofNat 64 (offOf (c.arg64 0x28) + 0x80 + r.entry)
            let q := s.takeSlots d (lants.map fun l => (l, (s.lantern l).slotFrames))
            (q.1.setCtx d tag { x with
              prog := some { handle := c.arg64 0x28, prio := c.arg 0x3B 1, lants := lants, resident := false, since := s.beacon
                             saved := false, slots := q.2 }
              wicks := (List.range (8 * n)).map fun k => (k, { pc := pc, run := .running : Wick })
              lmem := (List.range n).foldl (fun (l : FMap Memory) i => FMap.set [] l i (Memory.wrN [] 0 args)) []
              retire := false, ended := none }, none, 0)

/-- CTX_STEP (R352). -/
def State.ctxStep (s : State) (d : Nat) (c : Cmd) : CmdOut :=
  match s.ctx? d c.ctx.toNat with
  | none => s.fails stBADCTX
  | some x => if x.prog.isSome then s.fails stBUSY else (s.setCtx d c.ctx.toNat { x with step := c.arg64 0x28 }).done

/-- CTX_DESTROY (R358). -/
def State.ctxDestroy (s : State) (d : Nat) (c : Cmd) : CmdOut :=
  let tag := c.ctx.toNat
  match s.ctx? d tag with
  | none => s.done
  | some x =>
    if x.status = .aborted then (s.dropCtx d tag).done
    else
      let n := s.abortCount d tag
      (((s.teardown d tag .destroyed).logErr d
        { time := s.beacon, kind := 2, ctx := tag, detail := leBytes 4 n }).dropCtx d tag).done (BitVec.ofNat 64 n)

/-! ### Pages (R353) -/

/-- A frame for MAP: of the stack or package named, or as R366 chooses. -/
def State.mapFrame (s : State) (d : Nat) (rsv any : Bool) (u : Nat) : Option (State × Nat) :=
  if any then
    let r := s.takeFrames d rsv (if rsv then s.rsvTile else 0) 1 none
    r.2.head?.map fun f => (r.1, f)
  else
    (s.freeFrame rsv u).map fun f =>
      let t := s.takeFrame d f
      (if rsv then { t with mem := { t.mem with lastPkg := FMap.set 0 t.mem.lastPkg (u / 8) ((u % 8 + 1) % 8) } } else t, f)

/-- MAP. -/
def State.mapPage (s : State) (d : Nat) (c : Cmd) : CmdOut :=
  let va := c.arg64 0x28
  let o := offOf va
  let rsv := decide (2 ^ 56 ≤ o)
  let pg := if rsv then (o - 2 ^ 56) / 2 ^ 18 else o / 2 ^ 21
  let perm := c.arg 0x31 1
  let place := c.arg 0x30 1
  let m := s.dom d
  if !m.driver then s.fails stMODE
  else if spaceOf va ≠ some .dom ∨ o % frameSize rsv ≠ 0 ∨ (m.pte o).isSome then s.fails stBADADDR
  else if s.quota d rsv < (s.memDom d).used rsv + 1 then s.fails stQUOTA
  else if s.freeCount rsv = 0 then s.fails stNOFRAME
  else match s.mapFrame d rsv (decide (16 ≤ place)) (place % 16) with
    | none => s.fails stNOFRAME
    | some (t, f) =>
      (t.modDom d fun m => { (m.setPt rsv (FMap.insert (m.pt rsv) pg
        { frame := f, r := perm.testBit 0, w := perm.testBit 1, x := perm.testBit 2, k := perm.testBit 3 })) with
          recs := m.recs ++ [{ kind := .map, base := o, pages := 1 }] }).done

/-- UNMAP. -/
def State.unmapPage (s : State) (d : Nat) (c : Cmd) : CmdOut :=
  let va := c.arg64 0x28
  match (s.dom d).recs.find? fun r => r.kind == .map && r.base == offOf va with
  | some r => if spaceOf va = some .dom then (s.releaseRec d r).done else s.fails stBADADDR
  | none => s.fails stBADADDR

/-! ### COPY (R354, R428, R429) -/

/-- Every byte of a range lies in egress ranges with a tag. -/
def tagged (p : List Byte) (tag off n : Nat) : Bool :=
  let mine := (polRanges p).filter fun r => r.2.2 == tag
  -- a range's cover of [off, off + n), in bytes: the ranges of a policy never overlap
  sumBy (fun (r : Nat × Nat × Nat) => min (off + n) (offOf (BitVec.ofNat 64 r.1) + r.2.1) - max off (offOf (BitVec.ofNat 64 r.1))) mine == n

/-- The egress policy lets a COPY run (R428). -/
def State.mayCopy (s : State) (d : Nat) (out : Bool) (slot off n : Nat) : Bool :=
  let x := s.sec.dom d
  match x.policy with
  | some p =>
    if x.joint = .none then true
    else if slot = 0 then !out
    else match FMap.find? x.slots slot with
      | some k => tagged p k.owner off n
      | none => false
  | none => true

/-- The 16-byte header of a sealed record. -/
def recHdr (nonce : DWord) (i n : Nat) : List Byte := leBytes 8 nonce.toNat ++ leBytes 4 i ++ leBytes 4 n

/-- The first `k` of the `n` sealed records of a range. -/
def State.sealRecs (s : State) (d : Nat) (key : List Byte) (off n k : Nat) : List Byte :=
  ((List.range k).map fun i =>
    let h := recHdr s.rnd i n
    let ct := Config.gcmEnc key (h.take 12) (s.rdDom d (off + 4096 * i) 4096)
    h ++ ct ++ (Config.gcmTag key h ct).take 16).flatten

/-- Unseal `k` records from the `i`-th on, in order; the first that fails ends it (R429). -/
def State.unsealRecs (s : State) (d : Nat) (key data : List Byte) (off n i : Nat) : Nat → CmdOut
  | 0 => s.done
  | k + 1 =>
    let r := (data.drop (4128 * i)).take 4128
    let h := r.take 16
    let ct := (r.drop 16).take 4096
    if fieldAt h 8 4 ≠ i ∨ fieldAt h 12 4 ≠ n ∨ r.drop 4112 ≠ (Config.gcmTag key h ct).take 16 then s.fails stBADDESC
    else (s.wrDom d (off + 4096 * i) (Config.gcmDec key (h.take 12) ct)).unsealRecs d key data off n (i + 1) k

/-- The key of the slot that a COPY names. -/
def State.copyKey (s : State) (d : Nat) (c : Cmd) : Option (List Byte) := (FMap.find? (s.sec.dom d).slots (c.arg 0x3D 1)).map KeySlot.key

/-- A COPY may start on the slot: it holds a key that no KEY_ERASE has named (R423, R428). -/
def State.copySlotOpen (s : State) (d slot : Nat) : Bool :=
  match FMap.find? (s.sec.dom d).slots slot with
  | some k => !k.dying
  | none => false

/-- A COPY that names the slot has started and is not complete. -/
def State.copyNames (s : State) (d slot : Nat) : Bool :=
  (s.dom d).qs.any fun p => p.2.started.any fun r => r.cmd.opcode == 0x20 && r.cmd.arg 0x3D 1 == slot

/-- The slots whose KEY_ERASE waited for a COPY are erased once none names them (R423). -/
def State.dropDying (s : State) (d : Nat) : State :=
  { s with sec := s.sec.setDom d (
    let x := s.sec.dom d
    { x with slots := x.slots.filter fun p => !p.2.dying || s.copyNames d p.1 }) }

/-- COPY's DADDR range is mapped for its direction. -/
def State.copyMapped (s : State) (d : Nat) (c : Cmd) : Bool :=
  let out := c.arg 0x3C 1 == 1
  (s.dom d).mapOk (offOf (c.arg64 0x30)) (c.arg 0x38 4) { r := out, w := !out, k := false }

/-- COPY's checks when it starts (R330, R354, R428); then it runs. -/
def State.copyCmd (s : State) (d : Nat) (c : Cmd) : CmdOut :=
  let o := offOf (c.arg64 0x30)
  let n := c.arg 0x38 4
  let slot := c.arg 0x3D 1
  if slot ≠ 0 ∧ s.copySlotOpen d slot = false then s.fails stBADCMD
  else if n = 0 ∨ n % 64 ≠ 0 ∨ 2 ^ 31 < n ∨ (slot ≠ 0 ∧ n % 4096 ≠ 0) then s.fails stBADSIZE
  else if c.arg 0x28 8 % 64 ≠ 0 ∨ o % 64 ≠ 0 ∨ spaceOf (c.arg64 0x30) ≠ some .dom ∨ 2 ^ 57 < o + n ∨ s.copyMapped d c = false then
    s.fails stBADADDR
  else if !s.mayCopy d (c.arg 0x3C 1 == 1) slot o n then s.fails stEGRESS
  else if !s.issues d then s.fails stNOIDE
  else (s, none, 0)

/-- The first `m` bytes of a COPY move; `data` is what the device reads in host memory. Its pages and its key must still be there, and
what it reads in domain memory must not be poisoned. -/
def State.copyMove (s : State) (d : Nat) (c : Cmd) (data : List Byte) (m : Nat) : CmdOut :=
  let host := c.arg 0x28 8
  let o := offOf (c.arg64 0x30)
  let n := c.arg 0x38 4
  let plain := c.arg 0x3D 1 == 0
  if !s.copyMapped d c then s.fails stBADADDR
  else if !plain && (s.copyKey d c).isNone then s.fails stBADCMD
  else
    let key := (s.copyKey d c).getD []
    if c.arg 0x3C 1 = 1 then
      let s := s.reads d o m
      if (s.poisonAt d o m).isSome then s.fails stPOISON
      else if plain then ({ s with hostMem := Memory.wrN s.hostMem host (s.rdDom d o m) } : State).done
      else ({ s with hostMem := Memory.wrN s.hostMem host (s.sealRecs d key o (n / 4096) (m / 4096)) } : State).drew 1 |>.done
    else if plain then (s.wrDom d o ((data ++ List.replicate (m - data.length) 0).take m)).done
    else s.unsealRecs d key data o (n / 4096) 0 (m / 4096)

/-- A COPY that runs: its bytes move, and it ends with its status (R354). Its reads and writes are ordered against others by fences alone, so
the model moves them when it completes (DESIGN CHOICE, log 67). -/
def State.copyEnd (s : State) (d : Nat) (r : RunCmd) : CmdOut := s.copyMove d r.cmd r.data (r.cmd.arg 0x38 4)

/-- The 4 KiB boundary at which a COPY stops: how far it had come is open, a free value (R330, log 67). -/
def State.copyStop (s : State) (n : Nat) : Nat := min n (4096 * (1 + s.rnd.toNat % ((n + 4095) / 4096)))

/-- The streams of a VF are no longer Secure: a COPY that runs stops at its next 4 KiB boundary with NOIDE (R330). -/
def State.cutCopy (s : State) (d q i : Nat) : State :=
  let r := (s.queue d q).started.getD i { cmd := {} }
  if r.cmd.opcode != 0x20 || r.st.isSome then s
  else
    let t := (s.copyMove d r.cmd r.data (s.copyStop (r.cmd.arg 0x38 4))).1.drew 1
    let x := t.queue d q
    t.setQueue d q { x with started := x.started.set i { r with st := some stNOIDE, data := [] } }

/-- Every COPY of a VF stops. -/
def State.cutCopies (s : State) (d : Nat) : State :=
  (s.dom d).qs.foldl (fun t p => (List.range p.2.started.length).foldl (fun u i => u.cutCopy d p.1 i) t) s

/-! ### Fabric and the Expert Home Table (R284, R289, R293, R355) -/

/-- Read entries of `w` bytes at a DOMAIN address aligned to `al`. -/
def State.cmdReadTable (s : State) (d : Nat) (adr : DWord) (al w n : Nat) : Except Nat (List Nat) :=
  (s.cmdRead d adr al (w * n)).map fun bs => (List.range n).map fun i => fieldAt bs (w * i) w

/-- Strictly rising. -/
def rising : List Nat → Bool
  | a :: b :: l => decide (a < b) && rising (b :: l)
  | _ => true

/-- The bounce log of a new binding: BASE and LOG2 are read, PROD is written 0 (R293). A control block that is no DOMAIN address, cannot be
read or written or is poisoned, a BASE outside DOMAIN and a LOG2 above 16 leave the binding without a log (log 66). -/
def State.startBounce (s₀ : State) (d : Nat) (adr : DWord) : State :=
  let o := offOf adr
  let s := s₀.readAll d [(adr, 64)]
  let base := BitVec.ofNat 64 (leNat (s.rdDom d o 8))
  let log2 := leNat (s.rdDom d (o + 8) 1)
  if spaceOf adr = some .dom && (s.poisonAt d o 64).isNone && (s.dom d).mapOk o 64 { r := true, w := true, k := false } then
    (s.modFabDom d fun x => { x with blog :=
      { ring := if spaceOf base = some .dom ∧ log2 ≤ 16 then some (base, log2) else none } }).wrDom d (o + 0x10) (leBytes 8 0)
  else s.modFabDom d fun x => { x with blog := {} }

/-- FABRIC_BIND. -/
def State.fabricBind (s : State) (d : Nat) (c : Cmd) : CmdOut :=
  let m := s.dom d
  if (s.sec.dom d).policy.isSome then s.fails stBUSY
  else if m.binding.isSome then s.fails stEXISTS
  else
    let s := s.cmdReads d (c.arg64 0x28) 64 64
    match s.cmdRead d (c.arg64 0x28) 64 64 with
    | .error e => s.fails e
    | .ok h =>
      let n := fieldAt h 8 2
      let s := s.cmdReads d (BitVec.ofNat 64 (fieldAt h 0x10 8)) 4 (4 * n)
      match s.cmdReadTable d (BitVec.ofNat 64 (fieldAt h 0x10 8)) 4 4 n with
      | .error e => s.fails e
      | .ok t =>
        let chips := t.map fun e => (e % 2 ^ 13, e / 2 ^ 13 % 2 ^ 8)
        if fieldAt h 0xA 6 ≠ 0 ∨ fieldAt h 0x28 24 ≠ 0 ∨ t.any (fun e => decide (2 ^ 21 ≤ e)) ∨ fieldAt h 0 8 = 0 ∨ n = 0 ∨ 4128 < n
            ∨ rising (chips.map Prod.fst) = false ∨ chips.contains (s.fab.chip, d) = false then s.fails stBADDESC
        else
          let blog : DWord := BitVec.ofNat 64 (fieldAt h 0x20 8)
          let b : Binding := { tag := BitVec.ofNat 64 (fieldAt h 0 8), chips := chips, rings := BitVec.ofNat 64 (fieldAt h 0x18 8)
                               blog := blog, digest := sha384 (h ++ (t.map (leBytes 4)).flatten) }
          ((s.modDom d fun m => { m with binding := some b, closing := none }).startBounce d blog).done

/-- FABRIC_UNBIND. -/
def State.fabricUnbind (s : State) (d : Nat) : CmdOut :=
  if (s.sec.dom d).policy.isSome then s.fails stBUSY
  else if (s.dom d).binding.isNone then s.fails stNOTBOUND
  else if !(FMap.get [] s.eng.comms d).isEmpty then s.fails stBUSY
  else (s.unbind d).done

/-- The new active bank is copied into the inactive one (R289). -/
def FabSt.bankCopy (f : FabSt) (d : Nat) : FabSt :=
  let seg := FMap.get ({} : EhtSeg) f.segs d
  if seg.copying then
    let lo := seg.base * 256
    let hi := (seg.base + seg.len) * 256
    let inside (p : Nat × BitVec 128) : Bool := decide (lo ≤ p.1) && decide (p.1 < hi)
    let copy (src dst : FMap (BitVec 128)) : FMap (BitVec 128) :=
      (src.filter inside).foldl (fun m p => FMap.set 0 m p.1 p.2) (dst.filter fun p => !inside p)
    let f := { f with segs := FMap.set {} f.segs d { seg with copying := false } }
    if seg.active then { f with bankA := copy f.bankB f.bankA } else { f with bankB := copy f.bankA f.bankB }
  else f

/-- R289 refuses an entry. -/
def State.badEntry (s : State) (d : Nat) (e : Nat) : Bool :=
  let n := e / 2 ^ 76 % 4 + 1
  decide (2 ^ 79 ≤ e) || (e.testBit 78 &&
    (((List.range n).any fun r => !s.bound d (ehtDest (BitVec.ofNat 128 e) r).1) || decide (2 ^ (19 * n) ≤ e % 2 ^ 76)))

/-- EHT_LOAD; it waits for a copy of the banks that is not finished. -/
def State.ehtLoad (s : State) (d : Nat) (c : Cmd) : CmdOut :=
  let first := c.arg 0x30 4
  let n := c.arg 0x34 4
  let seg := FMap.get ({} : EhtSeg) s.fab.segs d
  if (s.dom d).binding.isNone then s.fails stNOTBOUND
  else if seg.len * 256 < first + n then s.fails stBADADDR
  else
    let s := s.cmdReads d (c.arg64 0x28) 1 (16 * n)
    match s.cmdReadTable d (c.arg64 0x28) 1 16 n with
    | .error e => s.fails e
    | .ok t =>
      if t.any (s.badEntry d) then s.fails stBADDESC
      else
        let f := s.fab.bankCopy d
        let put (b : FMap (BitVec 128)) : FMap (BitVec 128) :=
          (List.range n).foldl (fun m i => FMap.set 0 m (seg.base * 256 + first + i) (BitVec.ofNat 128 (t.getD i 0))) b
        ({ s with fab := if seg.active then { f with bankA := put f.bankA } else { f with bankB := put f.bankB } } : State).done

/-- EHT_COMMIT. -/
def State.ehtCommit (s : State) (d : Nat) (c : Cmd) : CmdOut :=
  let n := c.arg64 0x28
  match s.ctx? d c.ctx.toNat with
  | none => s.fails stBADCTX
  | some x =>
    if n.toNat ≤ x.step.toNat then s.fails stSTALE
    else ({ s with fab := { s.fab with
      segs := FMap.set {} s.fab.segs d { FMap.get ({} : EhtSeg) s.fab.segs d with commit := some (c.ctx.toNat, n) } } } : State).done

/-! ### Communicators (R296 to R299, R356) -/

/-- A chip appears once. -/
def noRepeat : List Nat → Bool
  | [] => true
  | a :: l => !l.contains a && noRepeat l

/-- The combine slots of a communicator (R298). -/
def combNeed (algo : Bool) (depth n : Nat) : Nat := if algo then depth * treeLevels n else 0
def sumNeed (algo : Bool) (depth : Nat) : Nat := if algo then 0 else depth

/-- COMM_CREATE, checked in the order of R297. -/
def State.commCreate (s₀ : State) (d : Nat) (c : Cmd) : CmdOut :=
  let s := s₀.cmdReads d (c.arg64 0x28) 1 64
  match s.cmdRead d (c.arg64 0x28) 1 64 with
  | .error e => s.fails e
  | .ok h =>
    let id := fieldAt h 0 2
    let algo := fieldAt h 2 2 == 1
    let n := fieldAt h 4 4
    let me := fieldAt h 8 4
    let depth := fieldAt h 0xC 1
    let rbuf : DWord := BitVec.ofNat 64 (fieldAt h 0x18 8)
    let stat : DWord := BitVec.ofNat 64 (fieldAt h 0x20 8)
    let m := s.dom d
    let rlen := if algo then n * 64 else n * (depth * 4096 + 64)
    let eng := FMap.get ({} : CollEng) s.eng.coll (id % 2)
    if 2 ≤ fieldAt h 2 2 ∨ fieldAt h 0xD 3 ≠ 0 ∨ fieldAt h 0x2C 20 ≠ 0 ∨ id = 0 ∨ n = 0 ∨ 4128 < n ∨ n ≤ me ∨ depth = 0 ∨ 16 < depth
        ∨ offOf rbuf % 4096 ≠ 0 ∨ offOf stat % 64 ≠ 0 then s.fails stBADDESC
    else
      let s := s.cmdReads d (BitVec.ofNat 64 (fieldAt h 0x10 8)) 1 (2 * n)
      match s.cmdReadTable d (BitVec.ofNat 64 (fieldAt h 0x10 8)) 1 2 n with
      | .error e => s.fails e
      | .ok t =>
        if spaceOf rbuf ≠ some .dom ∨ 2 ^ 56 < offOf rbuf + rlen ∨ m.mapOk (offOf rbuf) rlen { r := true, w := true, k := false } = false
            ∨ (pageStarts (offOf rbuf) rlen).any (fun a => match m.pte a with | some p => p.k | none => false)
            ∨ spaceOf stat ≠ some .dom ∨ m.mapOk (offOf stat) 64 { w := true, k := false } = false then s.fails stBADADDR
        else if t.any (fun e => decide (2 ^ 13 ≤ e)) || !noRepeat t || t.getD me 0x2000 != s.fab.chip then s.fails stBADDESC
        else if m.binding.isNone || t.any (fun e => !s.bound d e) then s.fails stNOTBOUND
        else if (s.comm? d id).isSome then s.fails stEXISTS
        else if 256 ≤ (FMap.get [] s.eng.comms d).length ∨ 1024 ≤ sumBy (fun (p : Nat × FMap Comm) => p.2.length) s.eng.comms
            ∨ 2048 < eng.sums + sumNeed algo depth ∨ 1024 < eng.comb + combNeed algo depth n then s.fails stNOSPACE
        else
          let x : Comm := { algo := algo, nranks := n, myrank := me, depth := depth, ranks := t, rbuf := rbuf, status := stat
                            wdog := if fieldAt h 0x28 4 = 0 then 10000 else fieldAt h 0x28 4, readyAt := s.beacon }
          let s := s.modColl (id % 2) fun e => { e with sums := e.sums + sumNeed algo depth, comb := e.comb + combNeed algo depth n }
          ((((s.setComm d id x).writeStatus d x).sendReady d id x x.others).commReadyNow d id).done

/-- Peers are not idle (R356): a peer's item for a later collective was seen, or one is held and not consumed. -/
def Comm.peersBusy (x : Comm) : Bool :=
  decide (x.issued < x.peerSeq) || !x.ups.isEmpty || !x.downs.isEmpty
    || x.limit.any fun p => decide (FMap.get 0 x.sent p.1 < p.2)

/-- COMM_DESTROY. -/
def State.commDestroy (s : State) (d : Nat) (c : Cmd) : CmdOut :=
  let id := c.arg 0x28 2
  match s.comm? d id with
  | none => s.fails stNOCOMM
  | some x =>
    let s := if !x.ops.isEmpty || x.peersBusy then s.breakComm d id 3 x.myrank else s
    (s.removeComm d id).done

/-- COMM_ABORT. -/
def State.commAbort (s : State) (d : Nat) (c : Cmd) : CmdOut :=
  let id := c.arg 0x28 2
  match s.comm? d id with
  | none => s.fails stNOCOMM
  | some x => (s.breakComm d id 2 x.myrank).done

/-- COMMAND_COMPLETE: the first started command of this CMDID whose status is known, or a LAUNCH or a COPY at its end, completes. -/
def State.completeCmd (s : State) (d q : Nat) (id : BitVec 32) : State :=
  let x := s.queue d q
  let known (r : RunCmd) : Bool :=
    r.cmd.cmdid == id && (r.st.isSome || r.cmd.opcode == 0x20 || (r.cmd.opcode == 0x10 && s.launchDone d r.cmd.ctx.toNat))
  match x.started.findIdx? known with
  | none => s
  | some i =>
    let r := x.started.getD i { cmd := {} }
    let s := s.setQueue d q { x with started := x.started.eraseIdx i }
    let o := match r.st with
      | some st => (s, some st, r.result)
      | none => if r.cmd.opcode = 0x20 then s.copyEnd d r else ((s.endProg d r.cmd.ctx.toNat).done r.result)
    let st := o.2.1.getD stOK
    let s := if r.raised then o.1 else o.1.cmdFence d r.cmd (st == stOK)
    (s.complete d q r.cmd st o.2.2).dropDying d

end Sys2Proof.Machine
end

