-- ==== Sys2Proof/Machine/CkptCmds.lean ====
section
/-! DEFINITION. The checkpoint and Relight commands (R513 to R517, R528 to R531). -/

namespace Sys2Proof.Machine

/-! ### CKPT_CONFIG (R514, R515) -/

/-- The partner chip is in the domain's binding. -/
def State.buddyBound (s : State) (d : Nat) : Bool := s.bound d (buddyOf s.fab.chip)

/-- The section entries of a checkpoint descriptor. -/
def sectsOf (bs : List Byte) : List CkSect :=
  (List.range (fieldAt bs 0 1)).map fun i =>
    let o := 64 + 32 * i
    { kind := fieldAt bs o 1, llant := fieldAt bs (o + 1) 1, len := fieldAt bs (o + 8) 8
      sadr := BitVec.ofNat 64 (fieldAt bs (o + 16) 8) }

/-- A section breaks R514 in its own fields. -/
def CkSect.bad (x : CkSect) : Bool :=
  decide (x.kind = 0 ∨ 7 < x.kind) || (if x.kind = 4 then decide (64 ≤ x.llant) else x.llant != 0)
    || (if x.kind = 6 then x.len != 0 || x.sadr != 0 else decide (x.len = 0 ∨ x.len % 64 ≠ 0 ∨ offOf x.sadr % 64 ≠ 0))

def sectSum (k : Nat) (l : List CkSect) : Nat := sumBy CkSect.len (l.filter fun x => x.kind == k)

/-- BADDESC of CKPT_CONFIG. -/
def badCkDesc (bs : List Byte) : Bool :=
  let l := sectsOf bs
  decide (fieldAt bs 0 1 = 0 ∨ 64 < fieldAt bs 0 1 ∨ fieldAt bs 1 7 ≠ 0 ∨ fieldAt bs 0x24 28 ≠ 0)
    || (List.range l.length).any (fun i => fieldAt bs (64 + 32 * i + 2) 6 != 0 || fieldAt bs (64 + 32 * i + 24) 8 != 0)
    || l.any CkSect.bad || decide (32 * 2 ^ 20 < sectSum 4 l) || decide (4096 < sectSum 5 l)
    || decide (1 < (l.filter fun x => x.kind == 6).length)

/-- No page of a range carries Wick permission. -/
def Dom.noWick (m : Dom) (o n : Nat) : Bool := (pageStarts o n).all fun a => match m.pte a with | some p => !p.k | none => true

/-- A section's range is where its KIND says, mapped and readable. -/
def Dom.sectOk (m : Dom) (x : CkSect) : Bool :=
  let o := offOf x.sadr
  let dom := spaceOf x.sadr == some .dom && decide (o + x.len ≤ 2 ^ 57) && m.mapOk o x.len { r := true, k := false }
  match x.kind with
  | 1 => dom && decide (o + x.len ≤ 2 ^ 56)
  | 2 | 3 => dom && decide (2 ^ 56 ≤ o) && m.noWick o x.len
  | 4 => spaceOf x.sadr == some .lant && decide (o + x.len ≤ spaceSize .lant)
  | 6 => true
  | _ => dom

/-- CKPT_CONFIG. -/
def State.ckptConfig (s : State) (d : Nat) (c : Cmd) : CmdOut :=
  let m := s.dom d
  if !s.buddyBound d then s.fails stNOTBOUND
  else if (s.ckptKey d).isNone then s.fails stEGRESS
  else if (s.ck d).conf then s.fails stEXISTS
  else
    let s := s.cmdReads d (c.arg64 0x28) 64 64
    match s.cmdRead d (c.arg64 0x28) 64 64 with
    | .error e => s.fails e
    | .ok h =>
      let s := s.cmdReads d (c.arg64 0x28) 64 (64 + 32 * fieldAt h 0 1)
      match s.cmdRead d (c.arg64 0x28) 64 (64 + 32 * fieldAt h 0 1) with
      | .error e => s.fails e
      | .ok bs =>
        let l := sectsOf bs
        let rgn : DWord := BitVec.ofNat 64 (fieldAt bs 8 8)
        let rlen := fieldAt bs 0x10 8
        let ro := offOf rgn
        if badCkDesc bs then s.fails stBADDESC
        else if l.any (fun x => !m.sectOk x) || decide (ro % 2 ^ 18 ≠ 0) || decide (rlen % 4096 ≠ 0) || spaceOf rgn != some .dom
            || decide (ro < 2 ^ 56) || decide (2 ^ 57 < ro + rlen) || !m.mapOk ro rlen { r := true, w := true, k := false }
            || !m.noWick ro rlen
            || l.any (fun x => x.kind != 4 && x.kind != 6 && overlaps ro rlen (offOf x.sadr) x.len) then s.fails stBADADDR
        else
          let lim := fieldAt bs 0x20 4
          let s := s.modCk d fun k => { k with
            conf := true, ctx := c.ctx.toNat, sects := l, rgn := rgn, rgnLen := rlen, base := BitVec.ofNat 64 (fieldAt bs 0x18 8)
            limitMs := if lim = 0 then 60000 else lim, sized := false, latch := [] }
          ((s.buddyCheck d).sendSize d).done

/-- CKPT_REQUEST: reason HOST; it runs until the cut ends (R517, R520). -/
def State.ckptRequest (s : State) (d : Nat) : CmdOut :=
  if !(s.ck d).conf then s.fails stNOTBOUND else (s.cutRequest d 2, none, 0)

/-- CKPT_DECONFIG (R517). -/
def State.ckptDeconfig (s : State) (d : Nat) : CmdOut :=
  if (s.ck d).req then s.fails stBUSY
  else (s.modCk d fun k => { k with conf := false, buddyOk := false, sects := [], latch := [] }).done

/-- CKPT_EXPORT (R528). -/
def State.ckptExport (s : State) (d : Nat) (c : Cmd) : CmdOut :=
  let k := s.ck d
  let n := c.arg 0x30 8
  let host := c.arg 0x28 8
  let o := offOf k.rgn
  if !k.conf then s.fails stNOTBOUND
  else if k.rgnState != 3 || k.req then s.fails stBUSY
  else if n ≠ 4096 + leNat (s.rdDom d (o + 0xB0) 8) then s.fails stBADSIZE
  else if host % 4096 ≠ 0 ∨ (s.dom d).mapOk o n { r := true, k := false } = false then s.fails stBADADDR
  else if !s.issues d then s.fails stNOIDE
  else
    let s := s.reads d o n
    if (s.poisonAt d o n).isSome then s.fails stPOISON
    else ({ s with hostMem := Memory.wrN s.hostMem host (s.rdDom d o n) } : State).done

/-! ### RELIGHT (R529 to R531) -/

/-- The Relight descriptor is malformed in its own fields. -/
def badRelight (bs : List Byte) : Bool :=
  let nc := fieldAt bs 2 1
  let nr := fieldAt bs 3 1
  let cand (i : Nat) : Bool :=
    let o := 0x20 + 16 * i
    let kind := fieldAt bs o 1
    if nc ≤ i then fieldAt bs o 16 != 0
    else fieldAt bs (o + 1) 7 != 0 || !(kind == 1 || kind == 2) || (kind == 1 && fieldAt bs (o + 8) 8 != 0)
  let remap (i : Nat) : Bool :=
    let o := 0x60 + 16 * i
    decide (1 < fieldAt bs (o + 1) 1) || fieldAt bs (o + 2) 6 != 0
  decide (nc = 0 ∨ 4 < nc ∨ 64 < nr ∨ fieldAt bs 4 4 ≠ 0 ∨ fieldAt bs 0x10 16 ≠ 0 ∨ 2 ^ 13 ≤ fieldAt bs 0 2)
    || (List.range 4).any cand || (List.range nr).any remap
    || !noRepeat ((List.range nr).map fun i => fieldAt bs (0x60 + 16 * i) 1)

/-- A candidate that passes R529. -/
def State.validImage (s : State) (d : Nat) (key : List Byte) (src maxE : Nat) (im : List Byte) : Bool :=
  let lab := im.take 256
  let lk := labelKey key
  let pol := (s.sec.dom d).policy.getD []
  let tag := match (s.dom d).binding with | some b => b.tag | none => 0
  im.take 4 == ascii "SCKP" && fieldAt im 4 2 == 0x100
    && (im.drop 0x100).take 16 == (Config.gcmTag lk ((im.drop 0x24).take 12) lab).take 16
    && (im.drop 0x110).take 16 == (Config.gcmTag lk ((im.drop 0x30).take 12) (lab ++ ascii "Siloft commit")).take 16
    && fieldAt im 0x18 8 == tag.toNat && (im.drop 0x40).take 16 == (pol.drop 16).take 16 && (im.drop 0x50).take 48 == sha384 pol
    && fieldAt im 0x20 2 == src && decide (fieldAt im 8 8 ≤ maxE)

def imEpoch (im : List Byte) : Nat := fieldAt im 8 8
def imDigest (im : List Byte) : List Byte := (im.drop 0x80).take 48

/-- The choice of R529 among valid candidates, with at most `n` rounds. -/
def chooseImage : Nat → List (List Byte) → Option (List Byte)
  | 0, _ => none
  | n + 1, l =>
    let e := l.foldl (fun m x => max m (imEpoch x)) 0
    let same := l.filter fun x => imEpoch x == e
    match same with
    | [] => none
    | x :: _ =>
      if same.all fun y => imDigest y == imDigest x then some x
      else chooseImage n (l.filter fun x => imEpoch x != e)

/-- The plaintext body of an image (R527). -/
def imBody (key im : List Byte) : List Byte :=
  let bk := bodyKey key (BitVec.ofNat 64 (imEpoch im)) (fieldAt im 0x20 2)
  ((units ((im.drop 4096).take (fieldAt im 0xB0 8))).map fun u => Config.xtsDec bk u.1 u.2).flatten

/-- A section of an image with its offset in the body. -/
structure ImSect where
  kind : Nat
  len : Nat
  sadr : DWord
  off : Nat

def imSects (n : Nat) (body : List Byte) : List ImSect :=
  (List.range n).map fun i =>
    let o := 32 * i
    { kind := fieldAt body o 1, len := fieldAt body (o + 8) 8, sadr := BitVec.ofNat 64 (fieldAt body (o + 16) 8)
      off := fieldAt body (o + 24) 8 }

/-- The REMAP of a section: SKIP, and DADDR. -/
def remapOf (bs : List Byte) (i : Nat) : Bool × DWord :=
  match (List.range (fieldAt bs 3 1)).find? (fun j => fieldAt bs (0x60 + 16 * j) 1 == i) with
  | some j => (fieldAt bs (0x60 + 16 * j + 1) 1 == 1, BitVec.ofNat 64 (fieldAt bs (0x60 + 16 * j + 8) 8))
  | none => (false, 0)

/-- What is restored of an image: its sections that are not skipped, each with its restore address. -/
def restores (bs : List Byte) (l : List ImSect) : List (ImSect × DWord) :=
  (List.range l.length).filterMap fun i =>
    match l[i]? with
    | some x => let r := remapOf bs i; if r.1 then none else some (x, if r.2 = 0 then x.sadr else r.2)
    | none => none

/-- Write the active bank's section into both banks (R531). -/
def State.restoreEht (s : State) (d : Nat) (bs : List Byte) : State :=
  let seg := FMap.get ({} : EhtSeg) s.fab.segs d
  let n := min (seg.len * 256) (bs.length / 16)
  let put (b : FMap (BitVec 128)) : FMap (BitVec 128) :=
    (List.range n).foldl (fun m i => FMap.set 0 m (seg.base * 256 + i) (BitVec.ofNat 128 (fieldAt bs (16 * i) 16))) b
  { s with fab := { s.fab with bankA := put s.fab.bankA, bankB := put s.fab.bankB } }

/-- RELIGHT: `parts` are the candidates' images (R531). -/
def State.relight (s₀ : State) (d : Nat) (c : Cmd) (parts : List (List Byte)) : CmdOut :=
  let s := s₀.cmdReads d (c.arg64 0x28) 64 64
  match s.cmdRead d (c.arg64 0x28) 64 64 with
  | .error e => s.fails e
  | .ok h =>
    let s := s.cmdReads d (c.arg64 0x28) 64 (0x60 + 16 * fieldAt h 3 1)
    match s.cmdRead d (c.arg64 0x28) 64 (0x60 + 16 * fieldAt h 3 1) with
    | .error e => s.fails e
    | .ok bs =>
      let src := fieldAt bs 0 2
      let key? := s.ckptKey d
      let key := key?.getD []
      let good := ((parts.take (fieldAt bs 2 1)).filter (s.validImage d key src (fieldAt bs 8 8)))
      let pick := if key?.isSome then chooseImage 5 good else none
      let im := pick.getD []
      let body := imBody key im
      let sects := imSects (fieldAt im 0x23 1) body
      let todo := restores bs sects
      let eht (x : ImSect) : Bool := x.kind == 6
      let badSects := pick.isSome &&
        ((List.range (fieldAt bs 3 1)).any (fun i => decide (sects.length ≤ fieldAt bs (0x60 + 16 * i) 1))
          || todo.any (fun p => p.1.kind == 4 && spaceOf p.2 != some .dom))
      let busy := (match s.ctx? d c.ctx.toNat with | some x => x.prog.isSome | none => false) || (s.ck d).req
      let probe := (c.arg 0x30 1).testBit 0
      let verify := (c.arg 0x30 1).testBit 1
      let digestOk := sha384 body == imDigest im
      let epoch : DWord := BitVec.ofNat 64 (imEpoch im)
      if badRelight bs || badSects then s.fails stBADDESC
      else if busy then s.fails stBUSY
      else if key?.isNone then s.fails stEGRESS
      else if pick.isNone then s.fails stBADIMAGE
      else if todo.any (fun p => !eht p.1 && (spaceOf p.2 != some .dom || decide (2 ^ 57 < offOf p.2 + p.1.len)
          || !(s.dom d).mapOk (offOf p.2) p.1.len { w := true, k := false })) then s.fails stBADADDR
      else if probe then (if verify && !digestOk then s.fails stBADIMAGE else s.done epoch)
      else
        let s := todo.foldl (fun t p =>
          let data := (body.drop p.1.off).take p.1.len
          if eht p.1 then (if src = t.fab.chip then t.restoreEht d data else t) else t.wrDom d (offOf p.2) data) s
        if !digestOk then s.fails stBADIMAGE
        else
          let s := s.modCtx d c.ctx.toNat fun x => { x with step := BitVec.ofNat 64 (fieldAt im 0x10 8) }
          (s.modDom d fun m => { m with jobSeed := BitVec.ofNat 64 (fieldAt im 0xC0 8) }).done epoch

end Sys2Proof.Machine
end

