-- ==== Sys2Proof/Machine/CmdRows.lean ====
section
/-! DEFINITION. The host queue and its commands as rows of the table: the doorbells and EN (R338, R339, R343), each opcode's start, the
end of a wait, completion (R341 to R347). -/

namespace Sys2Proof.Machine

/-- What each opcode does (R348). -/
def State.runCmd (s : State) (d : Nat) (c : Cmd) (io : CmdIn) : CmdOut :=
  match c.opcode.toNat with
  | 0x01 => s.done
  | 0x08 => s.progLoad d c
  | 0x09 => s.progUnload d c
  | 0x10 => s.launch d c
  | 0x11 => s.ctxDestroy d c
  | 0x12 => s.ctxStep d c
  | 0x18 => s.mapPage d c
  | 0x19 => s.unmapPage d c
  | 0x20 => s.copyCmd d c
  | 0x28 => s.fabricBind d c
  | 0x29 => s.fabricUnbind d
  | 0x2A => s.ehtLoad d c
  | 0x2B => s.ehtCommit d c
  | 0x30 => s.commCreate d c
  | 0x31 => s.commDestroy d c
  | 0x32 => s.commAbort d c
  | 0x38 => s.ckptConfig d c
  | 0x39 => s.ckptRequest d
  | 0x3A => s.ckptExport d c
  | 0x3B => s.relight d c io.parts
  | 0x3C => s.ckptDeconfig d
  | _ => s.fails stBADCMD

/-- A command starts when it is `op`. -/
def State.startOp (s : State) (d q op : Nat) (io : CmdIn) : State :=
  s.startHead d q (fun c => c.opcode.toNat == op) io.data fun s c => s.runCmd d c io

/-- SQ_TAIL (R339). -/
def execSqTail (d : BitVec 8) (q : BitVec 6) (val : BitVec 32) (ring : List Cmd) (s : State) : Out :=
  .next (s.ringTail d.toNat q.toNat (val.toNat % 2 ^ 16) ring)
/-- CQ_HEAD (R339). -/
def execCqHead (d : BitVec 8) (q : BitVec 6) (val : BitVec 32) (s : State) : Out :=
  .next (s.ringHead d.toNat q.toNat (val.toNat % 2 ^ 16))
/-- SQ_ENABLE (R338). -/
def execSqEnable (d : BitVec 8) (q : BitVec 6) (s : State) : Out := .next (s.enableQueue d.toNat q.toNat)
/-- SQ_DISABLE (R343). -/
def execSqDisable (d : BitVec 8) (q : BitVec 6) (s : State) : Out := .next (s.disableQueue d.toNat q.toNat)
/-- COMMAND_WAIT_END (R347): the command at the head starts, whatever its opcode. -/
def execCommandWaitEnd (d : BitVec 8) (q : BitVec 6) (io : CmdIn) (s : State) : Out :=
  .next (s.startHead d.toNat q.toNat (fun _ => true) io.data fun s c => s.runCmd d.toNat c io)
/-- COMMAND_COMPLETE (R342, R347). -/
def execCommandComplete (d : BitVec 8) (q : BitVec 6) (cmdid : BitVec 32) (s : State) : Out :=
  .next (s.completeCmd d.toNat q.toNat cmdid)
/-- EHT_BANK_COPY (R289). -/
def execEhtBankCopy (d : BitVec 8) (s : State) : Out := .next { s with fab := s.fab.bankCopy d.toNat }

/-- NOP (opcode 0x01) starts (R362). -/
def execCmdNop (d : BitVec 8) (q : BitVec 6) (io : CmdIn) (s : State) : Out := .next (s.startOp d.toNat q.toNat 0x01 io)
/-- PROG_LOAD (opcode 0x08) starts (R350). -/
def execProgLoad (d : BitVec 8) (q : BitVec 6) (io : CmdIn) (s : State) : Out := .next (s.startOp d.toNat q.toNat 0x08 io)
/-- PROG_UNLOAD (opcode 0x09) starts (R350). -/
def execProgUnload (d : BitVec 8) (q : BitVec 6) (io : CmdIn) (s : State) : Out := .next (s.startOp d.toNat q.toNat 0x09 io)
/-- LAUNCH (opcode 0x10) starts (R351). -/
def execLaunch (d : BitVec 8) (q : BitVec 6) (io : CmdIn) (s : State) : Out := .next (s.startOp d.toNat q.toNat 0x10 io)
/-- CTX_DESTROY (opcode 0x11) starts (R358). -/
def execCtxDestroy (d : BitVec 8) (q : BitVec 6) (io : CmdIn) (s : State) : Out := .next (s.startOp d.toNat q.toNat 0x11 io)
/-- CTX_STEP (opcode 0x12) starts (R352). -/
def execCtxStep (d : BitVec 8) (q : BitVec 6) (io : CmdIn) (s : State) : Out := .next (s.startOp d.toNat q.toNat 0x12 io)
/-- MAP (opcode 0x18) starts (R353). -/
def execMapPage (d : BitVec 8) (q : BitVec 6) (io : CmdIn) (s : State) : Out := .next (s.startOp d.toNat q.toNat 0x18 io)
/-- UNMAP (opcode 0x19) starts (R353). -/
def execUnmapPage (d : BitVec 8) (q : BitVec 6) (io : CmdIn) (s : State) : Out := .next (s.startOp d.toNat q.toNat 0x19 io)
/-- COPY (opcode 0x20) starts (R354). -/
def execCopyData (d : BitVec 8) (q : BitVec 6) (io : CmdIn) (s : State) : Out := .next (s.startOp d.toNat q.toNat 0x20 io)
/-- FABRIC_BIND (opcode 0x28) starts (R355). -/
def execFabricBind (d : BitVec 8) (q : BitVec 6) (io : CmdIn) (s : State) : Out := .next (s.startOp d.toNat q.toNat 0x28 io)
/-- FABRIC_UNBIND (opcode 0x29) starts (R355). -/
def execFabricUnbind (d : BitVec 8) (q : BitVec 6) (io : CmdIn) (s : State) : Out := .next (s.startOp d.toNat q.toNat 0x29 io)
/-- EHT_LOAD (opcode 0x2A) starts (R355). -/
def execEhtLoad (d : BitVec 8) (q : BitVec 6) (io : CmdIn) (s : State) : Out := .next (s.startOp d.toNat q.toNat 0x2A io)
/-- EHT_COMMIT (opcode 0x2B) starts (R355). -/
def execEhtCommit (d : BitVec 8) (q : BitVec 6) (io : CmdIn) (s : State) : Out := .next (s.startOp d.toNat q.toNat 0x2B io)
/-- COMM_CREATE (opcode 0x30) starts (R356). -/
def execCommCreate (d : BitVec 8) (q : BitVec 6) (io : CmdIn) (s : State) : Out := .next (s.startOp d.toNat q.toNat 0x30 io)
/-- COMM_DESTROY (opcode 0x31) starts (R356). -/
def execCommDestroy (d : BitVec 8) (q : BitVec 6) (io : CmdIn) (s : State) : Out := .next (s.startOp d.toNat q.toNat 0x31 io)
/-- COMM_ABORT (opcode 0x32) starts (R356). -/
def execCommAbort (d : BitVec 8) (q : BitVec 6) (io : CmdIn) (s : State) : Out := .next (s.startOp d.toNat q.toNat 0x32 io)
/-- CKPT_CONFIG (opcode 0x38) starts (R515). -/
def execCkptConfig (d : BitVec 8) (q : BitVec 6) (io : CmdIn) (s : State) : Out := .next (s.startOp d.toNat q.toNat 0x38 io)
/-- CKPT_REQUEST (opcode 0x39) starts (R517). -/
def execCkptRequest (d : BitVec 8) (q : BitVec 6) (io : CmdIn) (s : State) : Out := .next (s.startOp d.toNat q.toNat 0x39 io)
/-- CKPT_EXPORT (opcode 0x3A) starts (R528). -/
def execCkptExport (d : BitVec 8) (q : BitVec 6) (io : CmdIn) (s : State) : Out := .next (s.startOp d.toNat q.toNat 0x3A io)
/-- RELIGHT (opcode 0x3B) starts (R531). -/
def execRelight (d : BitVec 8) (q : BitVec 6) (io : CmdIn) (s : State) : Out := .next (s.startOp d.toNat q.toNat 0x3B io)
/-- CKPT_DECONFIG (opcode 0x3C) starts (R517). -/
def execCkptDeconfig (d : BitVec 8) (q : BitVec 6) (io : CmdIn) (s : State) : Out := .next (s.startOp d.toNat q.toNat 0x3C io)

end Sys2Proof.Machine
end

