-- ==== Sys2Proof/Machine/Security.lean ====
section
/-! DEFINITION. The security core's own commands (spec/11_security_roots.md): masking, alarms, life-cycle requests, erases, the OTP. -/

namespace Sys2Proof.Machine

def State.modSec (s : State) (f : SecSt → SecSt) : State := { s with sec := f s.sec }
def State.modNvs (s : State) (f : NvsSt → NvsSt) : State := { s with mgmt := { s.mgmt with nvs := f s.mgmt.nvs } }

/-- The security core runs: main power is up and a start has completed phase 1. -/
def State.secRuns (s : State) : Bool := s.dev.st == .hold || s.dev.st == .run

/-! ### Random values (R374) -/

/-- A new SEC_NONCE (R391). -/
def State.newNonce (s : State) : State :=
  ({ s with sec := { s.sec with nonce := (List.range 4).map fun i => Config.freeValue (s.free + i) } } : State).drew 4

/-! ### Masking (R383) -/

/-- Re-mask with a fresh mask: both shares are XORed with D, so that K is never formed. -/
def Masked.remask (k : Masked) (m : List Byte) : Masked :=
  let d := List.zipWith (· ^^^ ·) k.m m
  { a := List.zipWith (· ^^^ ·) k.a d, m := List.zipWith (· ^^^ ·) k.m d }

def KeySlot.remask (k : KeySlot) (m : List Byte) : KeySlot :=
  let d := List.zipWith (· ^^^ ·) k.m m
  { k with a := List.zipWith (· ^^^ ·) k.a d, m := List.zipWith (· ^^^ ·) k.m d }

/-! Each of these re-masks what it is given with the draws from number `i` on, and answers the number of the next draw. -/

def Masked.fresh (i : Nat) (k : Masked) : Masked × Nat := (k.remask (drawAt i k.m.length), i + (k.m.length + 7) / 8)
def KeySlot.fresh (i : Nat) (k : KeySlot) : KeySlot × Nat := (k.remask (drawAt i k.m.length), i + (k.m.length + 7) / 8)

def freshOpt {α : Type} (f : Nat → α → α × Nat) (i : Nat) : Option α → Option α × Nat
  | none => (none, i)
  | some k => let r := f i k; (some r.1, r.2)

def freshMap {α : Type} (f : Nat → α → α × Nat) : Nat → FMap α → FMap α × Nat
  | i, [] => ([], i)
  | i, p :: l => let r := f i p.2; let q := freshMap f r.2 l; ((p.1, r.1) :: q.1, q.2)

def LinkKey.fresh (i : Nat) (k : LinkKey) : LinkKey × Nat := let r := k.key.fresh i; ({ k with key := r.1 }, r.2)

/-- The slots of a link's engines. -/
def Link.fresh (i : Nat) (l : Link) : Link × Nat :=
  let a := freshOpt LinkKey.fresh i l.txKey
  let b := freshOpt LinkKey.fresh a.2 l.rxKey
  let c := freshOpt LinkKey.fresh b.2 l.rxNext
  let d := freshOpt LinkKey.fresh c.2 l.rxOld
  ({ l with txKey := a.1, rxKey := b.1, rxNext := c.1, rxOld := d.1 }, d.2)

/-- The slots of a domain's generations on a controller. -/
def GenSt.fresh (i : Nat) (g : GenSt) : GenSt × Nat :=
  let a := freshOpt Masked.fresh i g.key
  let b := freshOpt Masked.fresh a.2 g.keyOld
  ({ g with key := a.1, keyOld := b.1 }, b.2)

/-- The slots of a memory controller's engine. -/
def MemCtl.fresh (i : Nat) (x : MemCtl) : MemCtl × Nat :=
  let a := freshOpt Masked.fresh i x.devKey
  let b := freshMap GenSt.fresh a.2 x.gens
  ({ x with devKey := a.1, gens := b.1 }, b.2)

/-- The domain key slots and shares of a domain. -/
def DomSec.fresh (i : Nat) (x : DomSec) : DomSec × Nat :=
  let a := freshMap KeySlot.fresh i x.slots
  let b := freshMap KeySlot.fresh a.2 x.shares
  ({ x with slots := a.1, shares := b.1 }, b.2)

def Session.fresh (i : Nat) (x : Session) : Session × Nat := let r := freshOpt Masked.fresh i x.secret; ({ x with secret := r.1 }, r.2)
def IdeStream.fresh (i : Nat) (x : IdeStream) : IdeStream × Nat := let r := freshOpt Masked.fresh i x.key; ({ x with key := r.1 }, r.2)

/-- The slots of the security core, the die-to-die ports and the IDE engine. -/
def SecSt.fresh (i : Nat) (x : SecSt) : SecSt × Nat :=
  let a := freshOpt Masked.fresh i x.seed
  let b := freshOpt Masked.fresh a.2 x.root
  let c := freshOpt Masked.fresh b.2 x.idSeed
  let d := freshOpt Masked.fresh c.2 x.nvsKey
  let e := freshMap Masked.fresh d.2 x.d2d
  let f := freshMap DomSec.fresh e.2 x.doms
  let g := freshMap Session.fresh f.2 x.spdm.sessions
  let h := freshMap IdeStream.fresh g.2 x.streams
  ({ x with
    seed := a.1, root := b.1, idSeed := c.1, nvsKey := d.1, d2d := e.1, doms := f.1
    spdm := { x.spdm with sessions := g.1 }, streams := h.1 }, h.2)

/-- Every key slot in the device is re-masked. -/
def State.remask (s : State) : State :=
  let x := s.sec.fresh s.free
  let c := freshMap MemCtl.fresh x.2 s.mem.ctls
  let l := freshMap Link.fresh c.2 s.fab.links
  ({ s with
    sec := { x.1 with remaskAt := s.clk }
    mem := { s.mem with ctls := c.1 }
    fab := { s.fab with links := l.1 } } : State).drew (l.2 - s.free)

/-- REMASK (R383): every 1 ms, counted on FWCLK. -/
def execRemask (s : State) : Out :=
  .next (if s.secRuns && decide (s.sec.remaskAt + 1000000 ≤ s.clk) then s.remask else s)

/-- MASKFAIL (R383): 2 ms without re-masking. -/
def execMaskfail (s : State) : Out :=
  .next (if s.secRuns && decide (s.sec.remaskAt + 2000000 ≤ s.clk) then s.secEvent 0x12 none else s)

/-! ### Sensors (R374, R399) -/

/-- An event of the security core's sensors. -/
def State.alarm (s : State) (e : Nat) : State := if s.secRuns then s.secEvent e none else s

/-- RNGFAIL (R374): key generation stops. -/
def execRngfail (s : State) : Out :=
  .next (if s.secRuns then (s.modSec fun x => { x with rngDead := true }).secEvent 0x11 none else s)

/-- VGLITCH (R399). -/
def execVglitch (s : State) : Out := .next (s.alarm 7)
/-- CLOCK (R399). -/
def execClockAlarm (s : State) : Out := .next (s.alarm 8)
/-- TEMP (R399). -/
def execTempAlarm (s : State) : Out := .next (s.alarm 9)
/-- FAULTDET (R399). -/
def execFaultdet (s : State) : Out := .next (s.alarm 0xA)
/-- MESH (R399). -/
def execMeshAlarm (s : State) : Out := .next (s.alarm 0xB)
/-- LIGHT (R399). -/
def execLightAlarm (s : State) : Out := .next (s.alarm 0xC)
/-- ENCL (R399, R404): TAMPER_N counts while SEC_SNUF_ARM.ENCL is 1. -/
def execEnclAlarm (s : State) : Out := .next (if s.sec.armEncl then s.alarm 0xD else s)
/-- INTEG_D2D (R399). -/
def execIntegD2d (s : State) : Out := .next (s.alarm 6)

/-! ### The OTP (R386, R387, R392, R396) -/

/-- Cell `i` of the array reads programmed. -/
def otpBit (m : Memory) (i : Nat) : Bool := (Memory.rd m (i / 8)).getLsbD (i % 8)
/-- Program a cell. -/
def otpSet (m : Memory) (i : Nat) : Memory := Memory.wr m (i / 8) (Memory.rd m (i / 8) ||| BitVec.ofNat 8 (2 ^ (i % 8)))

/-- Pulse cells in order: a cell of `bad` stays unprogrammed, one of `weak` reads programmed at normal margin only (R392). -/
def SecSt.pulse (x : SecSt) (cells : List Nat) (bad weak : List (BitVec 16)) : SecSt :=
  cells.foldl (fun y c =>
    let i : BitVec 16 := BitVec.ofNat 16 c
    if bad.contains i then { y with otpStale := true }
    else { y with
      otpStale := true, otp := otpSet y.otp c
      otpTight := if weak.contains i then y.otpTight else otpSet y.otpTight c }) x

/-- All cells read programmed at both margins. -/
def SecSt.held (x : SecSt) (cells : List Nat) : Bool := cells.all fun c => otpBit x.otp c && otpBit x.otpTight c

/-- The copies' byte offsets, in the order A, B, C. -/
def lcBases : List Nat := [0x100, 0x900, 0x1100]

/-- Decode a copy: both margins must read the same listed code (R387). -/
def SecSt.decodeCopy (x : SecSt) (base : Nat) : Lc :=
  let a := leNat (Memory.rdN x.otp base 4)
  if a = leNat (Memory.rdN x.otpTight base 4) then Lc.ofCode a else .invalid

/-- The cells of a code that a copy has to hold. -/
def codeCells (base : Nat) (t : Lc) : List Nat := ((List.range 32).filter fun i => t.code.testBit i).map (8 * base + ·)

/-- Program copies A, B and C toward a state: the cells not yet read programmed at tightened margin get pulses (R392). -/
def SecSt.program (x : SecSt) (t : Lc) (bad weak : List (BitVec 16)) : SecSt :=
  lcBases.foldl (fun y b => y.pulse ((codeCells b t).filter fun c => !y.held [c]) bad weak) x

/-- The permitted transitions (R390). -/
def lcMay (a t : Lc) : Bool :=
  match a, t with
  | .blank, .test | .test, .mfg | .mfg, .prov | .prov, .field | .field, .rma => true
  | .scrap, _ => false
  | _, .scrap => true
  | _, _ => false

/-- The transition needs an authorisation blob. -/
def lcNeedsBlob (a t : Lc) : Bool :=
  match a, t with
  | .test, .mfg | .mfg, .prov | .field, .rma => true
  | _, _ => false

/-- The blob is accepted (R391). -/
def State.blobOk (s : State) (t : Lc) (b : List Byte) : Bool :=
  let msg := b.take 0xAC9
  decide (b.length = 7484) && b.take 4 == ascii "LCAU" && fieldAt b 4 1 == t.num && fieldAt b 5 3 == 0
    && sha384 ((b.drop 0x48).take (97 + 2592)) == Config.romDigest t.num
    && Config.ecdsaOk ((b.drop 0x48).take 97) msg ((b.drop 0xAC9).take 96)
    && Config.mldsaOk ((b.drop 0xA9).take 2592) msg ((b.drop 0xB29).take 4627)
    && (b.drop 8).take 32 == Memory.rdN s.sec.otp 0 32
    && (b.drop 0x28).take 32 == (s.sec.nonce.map fun w => leBytes 8 w.toNat).flatten

/-- SEC_ERASE_STAT.DONE: domain key slots empty, the user area and the operator's counters erased, owner seeds erased (R405). -/
def State.keysEmpty (s : State) : Bool := s.sec.doms.all fun p => p.2.slots.isEmpty && p.2.shares.isEmpty
def State.userEmpty (s : State) : Bool := s.mgmt.nvs.user.isEmpty && !s.mgmt.nvs.ctrs.any fun p => decide (10 ≤ p.1)
/-- No domain exists. -/
def State.noDomains (s : State) : Bool := !s.doms.any fun p => p.2.there

/-- SEC_LC_RESULT.STATUS: 0 OK, 1 DENIED, 2 AUTH, 3 SECRETS, 4 PENDING, 5 OTPFAIL; none while nothing stands in the way (R390 to
R393). -/
def State.lcStop (s : State) (t : Option Lc) (blob : List Byte) : Option Nat :=
  let x := s.sec
  if x.pend then some 4
  else match t with
    | none => some 1
    | some t =>
      if !lcMay x.lc t then some 1
      else if lcNeedsBlob x.lc t && !s.blobOk t blob then some 2
      else if x.lc == .mfg && t == .prov && !s.mgmt.nvs.enrolled then some 1
      else if x.lc == .prov && t == .field && !((FMap.find? x.spdm.chains 0).any fun c =>
          Config.certLeaf c == some (Config.idKey 0 (x.idSecret 0))) then some 1
      else if x.lc == .field && t == .rma && !(s.keysEmpty && s.noDomains && s.userEmpty && !x.ownSeeds) then some 3
      else none

/-- The request of R392: the progress mark, the three copies, and the result. -/
def State.lcRequest (s : State) (v : Word) (blob : List Byte) (bad weak : List (BitVec 16)) : State :=
  let n := v.toNat % 16
  let s := s.modSec fun x => { x with lcReq := n }
  (match s.lcStop (Lc.ofNum n) blob, Lc.ofNum n with
    | some e, _ => s.modSec fun x => { x with lcStatus := e }
    | none, none => s
    | none, some t =>
      let x := s.sec
      let y := { x with mark := some (x.lc, t, x.markSeq + 1), markSeq := x.markSeq + 1 }.program t bad weak
      let all := (lcBases.map fun b => codeCells b t).flatten
      s.modSec fun _ =>
        if y.held all then { y with mark := none, pend := true, lcStatus := 0 } else { y with lcStatus := 5 }).newNonce

/-- SEC_LC_REQ (R392): the complement of the guarded write arrives; `blob` is what SEC_AUTH_ADDR points to. -/
def execSecLcReq (compl : BitVec 32) (blob : List (BitVec 8)) (bad weak : List (BitVec 16)) (s : State) : Out :=
  .next (s.gdwCompl 0x200010 compl (fun _ => true) fun s v => s.lcRequest v blob bad weak)

/-! ### Reading the NVS (R448) -/

/-- Read words in the NVS sectors `at_`: where one holds a wrong bit, its ECC corrects it and the Soot ring gets an entry, whose code the
spec does not give (log 39). `ecc` are the sectors struck by now. -/
def State.nvsRead (s : State) (ecc : List (BitVec 4 × BitVec 7)) (at_ : Nat × Nat → Bool) : State :=
  let new := (ecc.map fun p => (p.1.toNat, p.2.toNat)).filter fun p => !s.mgmt.nvs.struck.contains p
  let s := s.modNvs fun n => { n with struck := n.struck ++ new }
  (s.mgmt.nvs.struck.filter at_).foldl (fun s p => (s.drew 1).sootLog 0 1 6 [s.rnd.toNat, p.1, p.2]) s

/-- Read words in the NVS sectors `at_`, in which what has gone wrong by now is a free value (log 39). -/
def State.nvsLook (s : State) (at_ : Nat × Nat → Bool) : State := (s.drew 1).nvsRead (Config.nvsNoise s.free) at_

/-! ### Erases (R393, R403, R405) -/

/-- Queue an NVS program or erase of the security core (R449, R450): one that fails a check is not queued, and a 17th request completes
with BUSY. -/
def State.nvsPut (s : State) (r : NvsReq) : State × Bool :=
  let st := s.mgmt.nvs.checkAll .security r.work
  if st ≠ 0 then (s.modNvs fun n => { n with last := st }, false)
  else if s.mgmt.nvs.queue.length < 16 then (s.modNvs fun n => { n with queue := n.queue ++ [r] }, true)
  else (s.modNvs fun n => { n with last := 6 }, false)

/-- SEC_ERASE is accepted with value `v`: each part that is named, then the Snuffer. -/
def State.secErase (s : State) (v : Word) : State :=
  let s := s.modSec fun x => { x with erase := v.toNat % 32 }
  let s := if v.getLsbD 0 && s.noDomains then
      s.modSec fun x => { x with doms := x.doms.map fun (p : Nat × DomSec) => (p.1, { p.2 with slots := [], shares := [] }) }
    else s
  let s := if v.getLsbD 1 then (s.nvsPut { work := .eraseUser }).1 else s
  let s := if v.getLsbD 2 then (s.nvsPut { work := .eraseSeeds }).1 else s
  let s := if v.getLsbD 3 && s.sec.lc == .rma then (s.nvsPut { work := .tamper false }).1 else s
  if v.getLsbD 4 then s.secEvent 0 none else s

/-- A guarded write of SEC_ERASE whose value has bit `n`. -/
def State.eraseRow (s : State) (n : Nat) (c : Word) : State :=
  s.gdwCompl 0x200020 c (fun v => v.getLsbD n) State.secErase

/-- DOMKEYS (R405). -/
def execDomkeys (compl : BitVec 32) (s : State) : Out := .next (s.eraseRow 0 compl)
/-- NVSUSER (R457). -/
def execNvsuser (compl : BitVec 32) (s : State) : Out := .next (s.eraseRow 1 compl)
/-- OWNSEEDS (R405). -/
def execOwnseeds (compl : BitVec 32) (s : State) : Out := .next (s.eraseRow 2 compl)
/-- TAMPERCLR (R403). -/
def execTamperclr (compl : BitVec 32) (s : State) : Out := .next (s.eraseRow 3 compl)
/-- SNUFF (R405): an A2 with event code 0. -/
def execSnuffNow (compl : BitVec 32) (s : State) : Out := .next (s.eraseRow 4 compl)

/-! ### Security version and OTP words (R396, R405) -/

/-- V: one more than the highest thermometer cell that reads programmed at both margins (R396). -/
def SecSt.svn (x : SecSt) : Nat :=
  ((List.range 256).filter fun i => x.held [8 * 0x200 + i]).foldl (fun _ i => i + 1) 0

/-- Program cell `i`; a cell that cannot be programmed is passed by programming the next, while the version it gives is not above
`top` (R396, R397). -/
def SecSt.raiseFrom (x : SecSt) (top : Nat) (bad weak : List (BitVec 16)) : Nat → Nat → SecSt × Bool
  | 0, _ => (x, false)
  | n + 1, i =>
    if 256 ≤ i ∨ top < i + 1 then (x, false)
    else
      let y := x.pulse [8 * 0x200 + i] bad weak
      if y.held [8 * 0x200 + i] then (y, true) else SecSt.raiseFrom y top bad weak n (i + 1)

/-- SVN_RAISE: DENIED outside FIELD, SVNHIGH above the running bundle's version, OTPFAIL when no cell could be programmed (R396). -/
def State.svnRaise (s : State) (bad weak : List (BitVec 16)) : State :=
  let x := s.sec
  let st (n : Nat) (y : SecSt) : State := { s with sec := { y with otpStatus := n, otpOp := 1 } }
  if x.lc != .field then st 1 x
  else if s.mgmt.fw.bsvn < x.svn + 1 then st 6 x
  else
    let r := x.raiseFrom s.mgmt.fw.bsvn bad weak 256 x.svn
    st (if r.2 then 0 else 5) r.1

/-- The fields a state may program word by word (R386): identity in TEST, MODULE and SHIP_FENCED in MFG, trims in both. -/
def otpMay (lc : Lc) (a : Nat) : Bool :=
  match lc with
  | .test => decide (a < 0x20 ∨ (0x400 ≤ a ∧ a < 0x800))
  | .mfg => decide ((0x40 ≤ a ∧ a < 0x48) ∨ (0x80 ≤ a ∧ a < 0xC0) ∨ (0x400 ≤ a ∧ a < 0x800))
  | _ => false

/-- PROGRAM_WORD: the word at SEC_OTP_ADDR gets the cells of SEC_OTP_DATA. -/
def State.programWord (s : State) (bad weak : List (BitVec 16)) : State :=
  let x := s.sec
  let st (n : Nat) (y : SecSt) : State := { s with sec := { y with otpStatus := n, otpOp := 2 } }
  if x.otpAddr % 4 ≠ 0 ∨ otpMay x.lc x.otpAddr = false then st 1 x
  else
    let cells := ((List.range 32).filter fun i => x.otpData.getLsbD i).map (8 * x.otpAddr + ·)
    let y := x.pulse (cells.filter fun c => !x.held [c]) bad weak
    st (if y.held cells then 0 else 5) y

/-- SVN_RAISE (R396). -/
def execSvnRaise (compl : BitVec 32) (bad weak : List (BitVec 16)) (s : State) : Out :=
  .next (s.gdwCompl 0x200030 compl (fun v => v.toNat % 16 == 1) fun s _ => s.svnRaise bad weak)

/-- PROGRAM_WORD (R405). -/
def execProgramWord (compl : BitVec 32) (bad weak : List (BitVec 16)) (s : State) : Out :=
  .next (s.gdwCompl 0x200030 compl (fun v => v.toNat % 16 == 2) fun s _ => s.programWord bad weak)

/-! ### Arming and the voltage override (R404, R567) -/

/-- SEC_SNUF_ARM is accepted: a bit that is set stays; a write that would clear one is a locked write. -/
def State.snufArm (s : State) (v : Word) : State :=
  let x := s.sec
  let clears := (x.armEncl && !v.getLsbD 0) || (x.armEsc && !v.getLsbD 1)
  let s := s.modSec fun x => { x with armEncl := x.armEncl || v.getLsbD 0, armEsc := x.armEsc || v.getLsbD 1 }
  if clears then s.lockErr 0 0x200040 else s

/-- SEC_SNUF_ARM (R404). -/
def execSecSnufArm (compl : BitVec 32) (s : State) : Out :=
  .next (s.gdwCompl 0x200040 compl (fun _ => true) State.snufArm)

/-- The states that open factory access: TEST, MFG and RMA (R388, R567, R587). -/
def Lc.factory (l : Lc) : Bool := l == .test || l == .mfg || l == .rma

/-- PWR_VOVR is accepted; outside TEST, MFG and RMA it is a locked write (R567). -/
def State.vovr (s : State) (v : Word) : State :=
  if s.sec.lc.factory then { s with mgmt := { s.mgmt with pwr := { s.mgmt.pwr with vovr := v.toNat % 512 } } }
  else s.lockErr 0 0x500030

/-- PWR_VOVR (R567). -/
def execPwrVovr (compl : BitVec 32) (s : State) : Out := .next (s.gdwCompl 0x500030 compl (fun _ => true) State.vovr)

end Sys2Proof.Machine
end

