-- ==== Sys2Proof/Machine/Spdm.lean ====
section
/-! DEFINITION. The SPDM responder (R406 to R415): the flows, the requests of the subset, sessions. -/

namespace Sys2Proof.Machine

def State.modSpdm (s : State) (f : SpdmSt → SpdmSt) : State := s.modSec fun x => { x with spdm := f x.spdm }
/-- The responder puts a response into the DOE mailbox. -/
def State.reply (s : State) (r : SRsp) : State := s.modSpdm fun x => { x with last := some r }
def State.refuse (s : State) (e : SErr) : State := s.reply (.error e)

/-- The flow of PF0 (R415). -/
def pf0Flow : FlowId := 256

/-- The responder answers: the security core runs and PF0's DOE mailbox is reachable. -/
def State.spdmUp (s : State) : Bool := s.pf0Up

/-- No root exists (R409): the Snuffer erased it, or the start derived none. -/
def State.noRoot (s : State) : Bool :=
  s.sec.snuffed || s.sec.lc == .blank || s.sec.lc == .scrap || s.sec.lc == .invalid || s.sec.root.isNone

/-- A request of the security core (R415): Busy when its flow holds four, else served in order; its response waits for
RESPOND_IF_READY. -/
def State.secReq (s : State) (fl : FlowId) (serve : State → State × SRsp) : State :=
  if 4 ≤ (FMap.get [] s.sec.spdm.ready fl).length then s.refuse .busy
  else
    let r := serve s
    (r.1.modSpdm fun x => { x with ready := FMap.modify [] x.ready fl (· ++ [r.2]) }).refuse .responseNotReady

/-- An SPDM request outside a session: `bare` ones are served without a root; all but the first three need a negotiated connection
(R409; the order from SPDM 1.3, PRESUMED, log 46). -/
def State.spdmReq (s : State) (bare : Bool) (need : Nat) (serve : State → State × SRsp) : State :=
  if !s.spdmUp then s
  else if (s.noRoot && !bare) || decide (s.sec.spdm.neg < need) then s.refuse .unexpectedRequest
  else s.secReq pf0Flow serve

/-! ### Sessions (R413, R414) -/

def State.session? (s : State) (i : Nat) : Option Session := FMap.find? s.sec.spdm.sessions i
def State.setSession (s : State) (i : Nat) (x : Session) : State :=
  s.modSpdm fun y => { y with sessions := FMap.insert y.sessions i x }
def State.dropSession (s : State) (i : Nat) : State := s.modSpdm fun y => { y with sessions := FMap.erase y.sessions i }

/-- The flow a session's messages go to. -/
def Session.flow (x : Session) : FlowId := x.dom.getD pf0Flow

/-- A message inside a secured session; DecryptError when there is none (SPDM 1.3, PRESUMED, log 46). -/
def State.inSession (s : State) (i : Nat) (f : Session → State) : State :=
  if !s.spdmUp then s
  else if s.noRoot then s.refuse .unexpectedRequest
  else match s.session? i with
    | some x => if x.open_ then f x else s.refuse .decryptError
    | none => s.refuse .decryptError

/-! ### Certificates and measurements (R407, R408, R412) -/

/-- A slot's chain: self-signed in TEST, MFG and RMA, else as installed. -/
def State.chain? (s : State) (slot : Nat) : Option (List Byte) :=
  if 2 ≤ slot then none
  else if s.sec.lc.factory then some (Config.selfCert slot (s.sec.idSecret slot) s.sec.lc.name)
  else FMap.find? s.sec.spdm.chains slot

/-- The measurement blocks present, ascending (R412). -/
def State.measBlocks (s : State) : List (Nat × List Byte) :=
  [(1, Config.romDigest 0x100), (2, Memory.rdN s.sec.otpCache 0 32),
   (3, leBytes 1 s.sec.lc.num ++ leBytes 1 s.sec.rootSrc ++ leBytes 1 (if s.sec.tamperSeen then 1 else 0)
      ++ leBytes 2 s.sec.svn ++ leBytes 1 (if s.dev.st = .hold then 1 else 0) ++ leBytes 2 0),
   (4, sha384 s.bcr), (5, leBytes 4 s.moduleWord ++ Memory.rdN s.sec.otpCache 0x80 64)]
    ++ (List.range s.mgmt.fw.comps.length).map fun k => (0x10 + k, (s.mgmt.fw.comps.getD k { type := 0, svn := 0, digest := [] }).digest)

/-- Chunks that a response takes: an ML-DSA-87 signature or long contents make it larger than 4,096 bytes (R409; the sizes of the
other fields are the published standard's, log 46). -/
def SRsp.chunks : SRsp → Nat
  | .challengeAuth => 2
  | .measurements sg bs => ((if sg then 4627 + 96 else 0) + (bs.map fun b => b.2.length + 7).sum + 4095) / 4096
  | .keyExchangeRsp _ _ => 2
  | .certificate c => (c.length + 4095) / 4096
  | .vendor _ _ b => (b.length + 4095) / 4096
  | .csr _ => 2
  | _ => 1

/-! ### Requests -/

/-- GET_VERSION (R409). -/
def execGetVersion (s : State) : Out :=
  .next (s.spdmReq true 0 fun s => (s.modSpdm fun x => { x with neg := 1 }, .version))

/-- GET_CAPABILITIES (R409): CSR and SET_CERT only in PROV. -/
def execGetCapabilities (mutAuth : Bool) (s : State) : Out :=
  .next (s.spdmReq true 1 fun s =>
    (s.modSpdm fun x => { x with neg := 2, mutAuth := mutAuth }, .capabilities (s.sec.lc == .prov)))

/-- NEGOTIATE_ALGORITHMS (R410): one bit per category, in the table's order, set when the requester offers the algorithm. -/
def execNegotiateAlgorithms (offers : BitVec 8) (s : State) : Out :=
  .next (s.spdmReq true 2 fun s =>
    if offers = 0xFF then (s.modSpdm fun x => { x with neg := 3 }, .algorithms) else (s, .error .invalidRequest))

/-- GET_DIGESTS (R409). -/
def execGetDigests (s : State) : Out :=
  .next (s.spdmReq false 3 fun s => (s, .digests ([0, 1].filter fun i => (s.chain? i).isSome)))

/-- GET_CERTIFICATE (R407): a portion of a chain. -/
def execGetCertificate (slot : BitVec 8) (off len : BitVec 16) (s : State) : Out :=
  .next (s.spdmReq false 3 fun s => match s.chain? slot.toNat with
    | some c => (s, .certificate ((c.drop off.toNat).take len.toNat))
    | none => (s, .error .invalidRequest))

/-- CHALLENGE (R411). -/
def execSpdmChallenge (slot : BitVec 8) (s : State) : Out :=
  .next (s.spdmReq false 3 fun s =>
    (s, if (s.chain? slot.toNat).isSome then .challengeAuth else .error .invalidRequest))

/-- GET_MEASUREMENTS (R412): unsigned ones are served without a root. -/
def execGetMeasurements (index : BitVec 8) (signed : Bool) (s : State) : Out :=
  .next (s.spdmReq (!signed) 3 fun s =>
    let l := if index = 0xFF then s.measBlocks else s.measBlocks.filter fun b => b.1 == index.toNat
    (s, if l.isEmpty then .error .invalidRequest else .measurements signed l))

/-- KEY_EXCHANGE (R411, R413): `elems` are the opaque element types it carries. -/
def execKeyExchange (slot : BitVec 8) (elems : List (BitVec 8)) (s : State) : Out :=
  .next (s.spdmReq false 3 fun s =>
    if s.dev.st = .hold then (s, .error .busy)
    else if !elems.contains 1 || elems.any (fun e => e == 0 || decide (4 ≤ e.toNat)) || (s.chain? slot.toNat).isNone then
      (s, .error .invalidRequest)
    else if 256 ≤ s.sec.spdm.sessions.length then (s, .error .sessionLimitExceeded)
    else
      let i := s.sec.spdm.nextSession
      let t := s.setSession i { auth := s.sec.spdm.mutAuth, beat := s.beacon }
      (t.modSpdm fun x => { x with nextSession := i + 1 }, .keyExchangeRsp i s.sec.spdm.mutAuth))

/-- FINISH (R409): `ok` says that what it carries verifies. TH2 and the export master secret are the session's from here. -/
def execSpdmFinish (ses : BitVec 32) (ok : Bool) (s : State) : Out :=
  let i := ses.toNat
  .next (if !s.spdmUp then s
    else if s.noRoot then s.refuse .unexpectedRequest
    else match s.session? i with
      | none => s.refuse .decryptError
      | some x =>
        if x.open_ || (x.auth && x.leaf.isNone) then s.refuse .unexpectedRequest
        else s.secReq pf0Flow fun s =>
          if !ok then (s.dropSession i, .error .decryptError)
          else
            let t := s.setSession i { x with
              open_ := true, beat := s.beacon, th2 := s.rndBytes 48, secret := (s.drewBytes 48).newKey 48 }
            ((t.drewBytes 48).drewKey 48, .finishRsp))

/-- HEARTBEAT (R409). -/
def execSpdmHeartbeat (ses : BitVec 32) (s : State) : Out :=
  .next (s.inSession ses.toNat fun x =>
    s.secReq x.flow fun s => (s.setSession ses.toNat { x with beat := s.beacon }, .heartbeatAck))

/-- HEARTBEAT_TIMEOUT (R414): no heartbeat for twice the period of 60 s (SPDM 1.3, PRESUMED, log 46). -/
def execHeartbeatTimeout (ses : BitVec 32) (s : State) : Out :=
  .next (match s.session? ses.toNat with
    | some x => if x.open_ && decide (x.beat + 120000000000 ≤ s.beacon) then s.dropSession ses.toNat else s
    | none => s)

/-- KEY_UPDATE (R409). -/
def execKeyUpdate (ses : BitVec 32) (s : State) : Out :=
  .next (s.inSession ses.toNat fun x => s.secReq x.flow fun s => (s, .keyUpdateAck))

/-- END_SESSION (R414): keys released through the session stay. -/
def execEndSession (ses : BitVec 32) (s : State) : Out :=
  .next (s.inSession ses.toNat fun x => s.secReq x.flow fun s => (s.dropSession ses.toNat, .endSessionAck))

/-- A session being set up whose requester is to authenticate itself (R413). -/
def State.inHandshake (s : State) (i : Nat) (f : Session → State) : State :=
  if !s.spdmUp then s
  else match s.session? i with
    | some x => if x.auth && !x.open_ && !s.noRoot then f x else s.refuse .unexpectedRequest
    | none => s.refuse .unexpectedRequest

/-- GET_ENCAPSULATED_REQUEST (R413): GET_DIGESTS or GET_CERTIFICATE for the requester. -/
def execGetEncapsulatedRequest (ses : BitVec 32) (s : State) : Out :=
  .next (s.inHandshake ses.toNat fun _ => s.secReq pf0Flow fun s => (s, .encapsulatedRequest))

/-- DELIVER_ENCAPSULATED_RESPONSE (R413): the requester's chain, when it verifies, authenticates the session. -/
def execDeliverEncapsulatedResponse (ses : BitVec 32) (chain : List (BitVec 8)) (s : State) : Out :=
  .next (s.inHandshake ses.toNat fun x => s.secReq pf0Flow fun s =>
    match Config.certLeaf chain with
    | some k => (s.setSession ses.toNat { x with leaf := some k }, .encapsulatedAck)
    | none => (s, .error .invalidRequest))

/-- CHUNK_SEND (R409): the message it ends is the next command. -/
def execChunkSend (data : List (BitVec 8)) (last : Bool) (s : State) : Out :=
  let l := s.sec.spdm.chunkIn ++ data
  .next (if !s.spdmUp then s
    else if s.noRoot then s.refuse .unexpectedRequest
    else if 65536 < l.length then (s.modSpdm fun x => { x with chunkIn := [] }).refuse .invalidRequest
    else (s.modSpdm fun x => { x with chunkIn := if last then [] else l }).reply .chunkSendAck)

/-- CHUNK_GET (R409): the last chunk completes the response. -/
def execChunkGet (s : State) : Out :=
  .next (if !s.spdmUp then s
    else if s.noRoot then s.refuse .unexpectedRequest
    else match s.sec.spdm.chunkOut with
      | none => s.refuse .unexpectedRequest
      | some (r, n) =>
        if n ≤ 1 then (s.modSpdm fun x => { x with chunkOut := none }).reply r
        else (s.modSpdm fun x => { x with chunkOut := some (r, n - 1) }).reply .chunkResponse)

/-- RESPOND_IF_READY (R415): the oldest response of a flow; a large one is fetched in chunks. -/
def execRespondIfReady (fl : BitVec 9) (s : State) : Out :=
  .next (if !s.spdmUp then s
    else match FMap.get [] s.sec.spdm.ready fl.toNat with
      | [] => s.refuse .invalidRequest
      | r :: l =>
        let s := s.modSpdm fun x => { x with ready := FMap.set [] x.ready fl.toNat l }
        if r.chunks ≤ 1 then s.reply r
        else (s.modSpdm fun x => { x with chunkOut := some (r, r.chunks) }).refuse .largeResponse)

/-- GET_CSR (R408): in PROV, for a slot that holds no chain. -/
def execGetCsr (slot : BitVec 8) (s : State) : Out :=
  let n := slot.toNat
  .next (if !s.spdmUp then s
    else if s.noRoot then s.refuse .unexpectedRequest
    else if s.sec.lc != .prov then s.refuse .unsupportedRequest
    else s.spdmReq false 3 fun s =>
      if 2 ≤ n then (s, .error .invalidRequest)
      else (s.modSpdm fun x => { x with csrs := if x.csrs.contains n then x.csrs else x.csrs ++ [n] }, .csr n))

/-- SET_CERTIFICATE (R408): once per slot, after GET_CSR, and only for the device's own FIELD identity key. -/
def execSetCertificate (slot : BitVec 8) (chain : List (BitVec 8)) (s : State) : Out :=
  let n := slot.toNat
  .next (if !s.spdmUp then s
    else if s.noRoot then s.refuse .unexpectedRequest
    else if s.sec.lc != .prov || (FMap.find? s.sec.spdm.chains n).isSome then s.refuse .unsupportedRequest
    else s.spdmReq false 3 fun s =>
      if decide (2 ≤ n) || Config.certLeaf chain != some (Config.idKey n (s.sec.idSecret n)) then (s, .error .invalidRequest)
      else if !s.sec.spdm.csrs.contains n then (s, .error .unexpectedRequest)
      else (s.modSpdm fun x => { x with chains := FMap.insert x.chains n chain }, .setCertificateRsp))

/-- SPDM_UNSUPPORTED (R409). -/
def execSpdmUnsupported (s : State) : Out :=
  .next (if !s.spdmUp then s else s.refuse (if s.noRoot then .unexpectedRequest else .unsupportedRequest))

end Sys2Proof.Machine
end

