-- ==== Sys2Proof/Machine/Vf.lean ====
section
/-! DEFINITION. Functions and interfaces (R327 to R336, R361, R578): VF Enable, resets, IDE streams, TDISP, the fence mirror. -/

namespace Sys2Proof.Machine

/-! ### TDISP state changes (R332, R424) -/

/-- Every owner key of a domain is erased and its joint session ends (R424). -/
def State.loseKeys (s : State) (d : Nat) : State :=
  { s with sec := s.sec.setDom d { s.sec.dom d with slots := [], shares := [], joint := .none, joined := 0, done := 0 } }

/-- REQ_TDI_RUN of the policy in force. -/
def State.needsRun (s : State) (d : Nat) : Bool :=
  match (s.sec.dom d).policy with | some p => (polByte p 6).testBit 0 | none => false

/-- DOM_ID changes: the TDI state (R328). -/
def State.tdiTo (s : State) (d : Nat) (t : Tdi) : State :=
  (s.modDom d fun m => { m with tdi := t }).raiseIrq (d + 1) 0

/-- The TDI of a locked or running interface enters ERROR (R332): owner keys first (R424), then the domain is fenced. -/
def State.tdiError (s : State) (d : Nat) : State :=
  match (s.dom d).tdi with
  | .locked => (s.tdiTo d .error).fenceDom d 2
  | .run => (((if s.needsRun d then s.loseKeys d else s) : State).tdiTo d .error).fenceDom d 2
  | _ => s

/-- Every interface that is locked or running enters ERROR: VF Enable or NumVFs changes. -/
def State.tdiErrorAll (s : State) : State := (s.doms.map Prod.fst).foldl (fun t d => t.tdiError d) s

/-! ### VF Enable and resets (R327, R333, R334) -/

/-- GLOBAL_STATUS.VFEN_OK: RUN, a life-cycle state that admits tenant domains, a first Beacon lock (R327, R388, R475). -/
def State.vfenOk (s : State) : Bool :=
  s.dev.st == .run && (s.sec.lc.factory || s.sec.lc == .field) && s.bcn.first

/-- VF Enable and NumVFs take new values: domains beyond are destroyed, missing ones created. -/
def State.setVfs (s : State) (en : Bool) (num : Nat) : State :=
  let n := if en then num else 0
  let s := if (s.dev.vfEnable, s.dev.numVfs) = (en, num) then s else s.tdiErrorAll
  let s := (s.doms.map Prod.fst).foldl (fun t d => if (t.dom d).there && decide (n ≤ d) then t.destroyDom d else t) s
  let s := (List.range n).foldl (fun t d => if (t.dom d).there then t else t.createDom d) s
  { s with dev := { s.dev with vfEnable := en, numVfs := num } }

/-- VF_ENABLE_SET (R333): with NumVFs `num`, which may rise while VF Enable is 1. -/
def execVfEnableSet (num : BitVec 9) (s : State) : Out :=
  .next (if s.vfenOk && decide (num.toNat ≤ 256) && (!s.dev.vfEnable || decide (s.dev.numVfs ≤ num.toNat)) then
      s.setVfs true num.toNat
    else s)

/-- VF_ENABLE_CLEAR (R334): VF Enable is cleared (`keep` none), or NumVFs is lowered. -/
def execVfEnableClear (keep : Option (BitVec 9)) (s : State) : Out :=
  .next (if !s.dev.vfEnable then s
    else match keep with
      | none => s.setVfs false s.dev.numVfs
      | some n => if n.toNat < s.dev.numVfs then s.setVfs true n.toNat else s)

/-- FLR_VF (R334): the domain is destroyed and created anew. -/
def execFlrVf (d : BitVec 8) (s : State) : Out :=
  .next (if (s.dom d.toNat).there then (s.destroyDom d.toNat).createDom d.toNat else s)

/-- PF0's pair latches, guard window, PCI configuration state and mailbox negotiation are cleared (R578); without VF Enable no domain
exists. -/
def State.resetPf0 (s : State) : State :=
  let s := s.destroyAll
  { s with
    dev := { s.dev with vfEnable := false, numVfs := 0 }
    mgmt := { s.mgmt with
      regs := { s.mgmt.regs with rlatch := none, wlatch := none, guard := none, mps := 128, mrrs := 512, d3 := [] }
      mbx := FMap.modify {} s.mgmt.mbx 0 fun m => { m with hello := none } } }

/-- FLR_PF0 (R578). -/
def execFlrPf0 (s : State) : Out := .next (if s.pf0Up then s.resetPf0 else s)

/-- The host link is down: its stream keys end with it (R327, R370, R380). -/
def State.hostDown (s : State) : State :=
  (s.modSec fun x => { x with streams := [], tdiStream := [] }).modRegs fun r => { r with linkSpeed := 0, linkWidth := 0, linkFlit := false }

/-- HOST_LINK_RESET (R327): every function is reset; stream keys end with the link (R380). -/
def execHostLinkReset (s : State) : Out :=
  .next (if s.dev.st = .off ∨ s.dev.st = .standby then s
    else s.resetPf0.hostDown)

/-- VF_CONFIG_WRITE (R332): a write that changes what a locked TDI was attested with. -/
def execVfConfigWrite (d : BitVec 8) (mse bme : Bool) (bar : BitVec 64) (s : State) : Out :=
  let m := s.dom d.toNat
  .next (if !m.there then s
    else
      let t := s.setDom d.toNat { m with mse := mse, bme := bme, bar := bar }
      if m.mse = mse ∧ m.bme = bme ∧ m.bar = bar then s else t.tdiError d.toNat)

/-! ### IDE streams (R329, R330) -/

/-- The domain whose TDI a stream is bound to. -/
def State.boundTdi (s : State) (n : Nat) : Option Nat :=
  (List.find? (fun (p : Nat × Nat) => p.2 == n && ((s.dom p.1).tdi == .locked || (s.dom p.1).tdi == .run)) s.sec.tdiStream).map (·.1)

/-- Every VF's queues look at their streams again; a VF whose NOIDE changed raises its vector 0. -/
def State.streamsChanged (s old : State) : State :=
  ((s.doms.filter fun p => p.2.there).map Prod.fst).foldl (fun t d =>
    let t := if (old.stream d).isSome = (t.stream d).isSome then t else t.raiseIrq (d + 1) 0
    let t := if (old.stream d).isSome && (t.stream d).isNone then t.cutCopies d else t
    t.wakeQueues d) s

/-- IDE_KM (R329, R413): the key of stream 0 (Link) or 1 to 8 (Selective), which goes into a slot of its own, with the function and the
address blocks that the stream is associated with. Key or association of a bound stream that change over another session than the TDI's
own put the TDI in ERROR (R332). -/
def execIdeKm (ses : BitVec 32) (n : BitVec 4) (k : IdeIn) (s : State) : Out :=
  .next (s.inSession ses.toNat fun x =>
    if x.dom.isSome then s.refuse .unexpectedRequest
    else s.secReq pf0Flow fun s =>
      if 8 < n.toNat ∨ 256 < k.fn.toNat ∨ k.key.length ≠ 32 ∨ 2 < k.blocks.length then (s, .error .invalidRequest)
      else
        let old : IdeStream := FMap.get {} s.sec.streams n.toNat
        let t := (s.modSec fun y => { y with streams := FMap.set {} y.streams n.toNat { old with
          key := some (s.maskKey k.key), fn := k.fn.toNat, blocks := k.blocks, pcrc := k.pcrc } }).drewBytes 32
        let t := match s.boundTdi n.toNat with
          | some d => if (s.dom d).tdiSes = some ses.toNat then t else t.tdiError d
          | none => t
        (t.streamsChanged s, .ideKm))

/-- IDE_STREAM_STATE_CHANGE (R330). -/
def execIdeStreamStateChange (n : BitVec 4) (secure : Bool) (s : State) : Out :=
  let old : IdeStream := FMap.get {} s.sec.streams n.toNat
  .next (if 8 < n.toNat ∨ (secure = true ∧ old.key = none) then s
    else (s.modSec fun y => { y with streams := FMap.set {} y.streams n.toNat { old with secure := secure } }).streamsChanged s)

/-! ### TDISP (R331, R332) -/

/-- A TDISP message for the interface of a VF (R413); codes of TDISP_ERROR from TDISP 1.0 (PRESUMED, log 47). -/
def State.tdisp (s : State) (ses d : Nat) (serve : State → Dom → State × SRsp) : State :=
  s.inSession ses fun x =>
    if x.dom.isSome then s.refuse .unexpectedRequest
    else s.secReq pf0Flow fun s => if (s.dom d).there then serve s (s.dom d) else (s, .tdispError 0x101)

/-- DOM_ID.TDI. -/
def Tdi.num : Tdi → Nat
  | .unlocked => 0 | .locked => 1 | .run => 2 | .error => 3

/-- The resources in force that the interface report lists (R332): quotas, floors, cache slices, Expert Home Table segment. -/
def State.resources (s : State) (d : Nat) : List Byte :=
  let m := s.memDom d
  let g := FMap.get {} s.fab.segs d
  leBytes 4 m.qh.toNat ++ leBytes 4 m.qr.toNat ++ leBytes 4 m.bw.toNat ++ leBytes 4 m.cc.toNat ++ leBytes 4 g.base ++ leBytes 4 g.len

/-- GET_TDISP_VERSION (R331). -/
def execGetTdispVersion (ses : BitVec 32) (d : BitVec 8) (s : State) : Out :=
  .next (s.tdisp ses.toNat d.toNat fun s _ => (s, .tdispVersion))

/-- GET_TDISP_CAPABILITIES (R331). -/
def execGetTdispCapabilities (ses : BitVec 32) (d : BitVec 8) (s : State) : Out :=
  .next (s.tdisp ses.toNat d.toNat fun s _ => (s, .tdispCapabilities))

/-- LOCK_INTERFACE_REQUEST (R332): the stream must be a Selective one of the VF, and Secure. -/
def execLockInterfaceRequest (ses : BitVec 32) (d : BitVec 8) (stream : BitVec 4) (s : State) : Out :=
  .next (s.tdisp ses.toNat d.toNat fun s m =>
    let n := d.toNat
    let x : IdeStream := FMap.get {} s.sec.streams stream.toNat
    if m.tdi != .unlocked then (s, .tdispError 4)
    else if stream = 0 ∨ x.fn ≠ n + 1 ∨ x.secure = false then (s, .tdispError 1)
    else
      let t := (s.modDom n fun m => { m with
        lockRep := s.resources n, tdiSes := some ses.toNat, tdiNonce := s.rndBytes 32 }).drewBytes 32
      ((t.modSec fun y => { y with tdiStream := FMap.insert y.tdiStream n stream.toNat }).tdiTo n .locked, .lockRsp))

/-- The interface report (R331): one MMIO range, the 16 pages of VF BAR0, flagged as holding the MSI-X table and the PBA; then the
domain ID and the resources in force at the lock. The layout is that of TDISP 1.0 (PRESUMED, log 47). -/
def reportBytes (d : Nat) (bar : DWord) (res : List Byte) : List Byte :=
  let own := leBytes 1 d ++ res
  leBytes 2 2 ++ leBytes 2 0 ++ leBytes 2 64 ++ leBytes 2 0 ++ leBytes 4 0 ++ leBytes 4 1
    ++ leBytes 8 (bar.toNat / 4096) ++ leBytes 4 16 ++ leBytes 4 3 ++ leBytes 4 own.length ++ own

/-- GET_DEVICE_INTERFACE_REPORT (R331, R332). -/
def execGetDeviceInterfaceReport (ses : BitVec 32) (d : BitVec 8) (s : State) : Out :=
  .next (s.tdisp ses.toNat d.toNat fun s m =>
    (s, if m.tdi == .locked || m.tdi == .run then .report (reportBytes d.toNat m.bar m.lockRep) else .tdispError 4))

/-- GET_DEVICE_INTERFACE_STATE (R331). -/
def execGetDeviceInterfaceState (ses : BitVec 32) (d : BitVec 8) (s : State) : Out :=
  .next (s.tdisp ses.toNat d.toNat fun s m => (s, .interfaceState m.tdi.num))

/-- START_INTERFACE_REQUEST (R332): with the nonce that the lock answered. -/
def execStartInterfaceRequest (ses : BitVec 32) (d : BitVec 8) (nonce : List (BitVec 8)) (s : State) : Out :=
  .next (s.tdisp ses.toNat d.toNat fun s m =>
    if m.tdi != .locked then (s, .tdispError 4)
    else if nonce != m.tdiNonce then (s, .tdispError 0x102)
    else ((s.tdiTo d.toNat .run).wakeQueues d.toNat, .startRsp))

/-- STOP_INTERFACE_REQUEST (R332). -/
def execStopInterfaceRequest (ses : BitVec 32) (d : BitVec 8) (s : State) : Out :=
  .next (s.tdisp ses.toNat d.toNat fun s _ => (s.tdiError d.toNat, .stopRsp))

/-- TDISP_UNSUPPORTED (R331). -/
def execTdispUnsupported (ses : BitVec 32) (d : BitVec 8) (s : State) : Out :=
  .next (s.tdisp ses.toNat d.toNat fun s _ => (s, .tdispError 7))

/-! ### The fence mirror (R361, R576) -/

/-- A write to half of a word of the mirror. -/
def State.mirror (s : State) (d n : Nat) (high : Bool) (v : Word) : State :=
  let m := s.dom d
  if !high then s.setDom d { m with wlatch := some (0x4000 + 8 * n, v) }
  else
    let lo := match m.wlatch with | some (o, w) => if o = 0x4000 + 8 * n then w else 0 | none => 0
    let x : DWord := v ++ lo
    let s := match m.wlatch with
      | some (o, _) =>
        if o = 0x4000 + 8 * n then s.setDom d { m with wlatch := none } else s.accErr (d + 1) (0x4004 + 8 * n) 7 true
      | none => s
    if x.getLsbD 63 then s.logErr d { time := s.beacon, kind := 5, detail := leBytes 2 n } else s.fenceWord d n (sigWord x)

/-- FENCE_MIRROR_WRITE (R361). -/
def execFenceMirrorWrite (d : BitVec 8) (n : BitVec 9) (high : Bool) (val : BitVec 32) (s : State) : Out :=
  .next (if s.doorOpen d.toNat then s.mirror d.toNat n.toNat high val else s)

end Sys2Proof.Machine
end

