-- ==== Sys2Proof/Machine/Zyndowin.lean ====
section
/-! DEFINITION. Zyndowin messages (R414, R420 to R432): binding a session, the domain report, owner keys and joint sessions. -/

namespace Sys2Proof.Machine

/-! ### Statuses (R420) -/

def zOK : Nat := 0
def zBADREQ : Nat := 1
def zSTATE : Nat := 2
def zNOTOWNER : Nat := 3
def zPOLICY : Nat := 4
def zTDI : Nat := 5
def zSLOTUSED : Nat := 6
def zNOSPACE : Nat := 7
def zUNWRAP : Nat := 8
def zEMPTY : Nat := 9

/-- A Zyndowin message on a session: served in the session's flow, the answer carries OPCODE, STATUS and body. -/
def State.zyn (s : State) (ses op : Nat) (serve : State → Session → State × Nat × List Byte) : State :=
  s.inSession ses fun x => s.secReq x.flow fun s =>
    let r := serve s x
    (match r.1.session? ses with
      | some y => r.1.setSession ses { y with zyn := true }
      | none => r.1, .vendor op r.2.1 r.2.2)

/-- A refusal that changes nothing. -/
def State.zfail (s : State) (st : Nat) : State × Nat × List Byte := (s, st, [])

/-! ### Policies (R417) -/

/-- The owner whose identity digest this is. -/
def ownerOf (p ident : List Byte) : Option Nat :=
  (List.range (polN p)).find? fun o => (p.drop (0x80 + 48 * o)).take 48 == ident

/-- How many of the first `n` bits are set. -/
def bitCount (n v : Nat) : Nat := ((List.range n).filter fun i => v.testBit i).length

/-- Key slots of the device in use (R384). -/
def SecSt.slotsUsed (x : SecSt) : Nat := (x.doms.map fun p => p.2.slots.length + p.2.shares.length).sum

/-- A key in two shares under a fresh mask (R383). -/
def State.slotKey (s : State) (owner : Nat) (k : List Byte) : KeySlot :=
  { owner := owner, a := List.zipWith (· ^^^ ·) k (s.rndBytes 32), m := s.rndBytes 32 }

def State.modJoint (s : State) (d : Nat) (f : DomSec → DomSec) : State := { s with sec := s.sec.setDom d (f (s.sec.dom d)) }

/-! ### BIND_DOMAIN (R414) -/

def State.bindDomain (s : State) (ses : Nat) (x : Session) (d rsv : Nat) (key sig : List Byte) : State × Nat × List Byte :=
  if x.zyn || x.dom.isSome || decide (rsv ≠ 0 ∨ key.length ≠ 2592 ∨ sig.length ≠ 4627) then s.zfail zBADREQ
  else match x.leaf with
    | none => s.zfail zSTATE
    | some leaf =>
      if !(s.dom d).there || decide (32 ≤ (s.sec.spdm.sessions.filter fun p => p.2.dom == some d).length) then s.zfail zSTATE
      else if !Config.mldsaOk key (ascii "Siloft bind" ++ x.th2) sig then s.zfail zNOTOWNER
      else (s.setSession ses { x with dom := some d, ident := sha384 (leaf ++ key) }, zOK, [])

/-- BIND_DOMAIN (R414). -/
def execBindDomain (ses : BitVec 32) (d rsv : BitVec 8) (key sig : List (BitVec 8)) (s : State) : Out :=
  .next (s.zyn ses.toNat 1 fun s x => s.bindDomain ses.toNat x d.toNat rsv.toNat key sig)

/-! ### DOMAIN_REPORT (R431) -/

/-- Bytes 0x000 to 0x13F. -/
def State.reportBytes (s : State) (d : Nat) (nonce : List Byte) : List Byte :=
  let m := s.dom d
  let x := s.sec.dom d
  let z (n : Nat) : List Byte := List.replicate n 0
  ascii "SDRP" ++ leBytes 2 0x100 ++ z 2 ++ nonce ++ sha384 ((s.measBlocks.map Prod.snd).flatten)
    ++ leBytes 1 d ++ leBytes 1 m.tdi.num ++ leBytes 1 x.joint.num ++ leBytes 1 (if m.fenced then 1 else 0)
    ++ leBytes 2 x.joined ++ leBytes 2 x.done ++ (if x.pmr.isEmpty then z 48 else x.pmr)
    ++ (match m.binding with | some b => b.digest | none => z 48)
    ++ (match x.policy with | some p => sha384 p ++ (p.drop 16).take 16 | none => z 64)
    ++ leBytes 32 (x.slots.foldl (fun v p => v + 2 ^ p.1) 0) ++ leBytes 8 s.beacon ++ z 24

/-- The report: its bytes and the two signatures. -/
def State.report (s : State) (d : Nat) (nonce : List Byte) : List Byte :=
  let b := s.reportBytes d nonce
  let msg := ascii "Siloft domain report" ++ b
  b ++ Config.idSign 0 (s.sec.idSecret 0) msg ++ Config.idSign 1 (s.sec.idSecret 1) msg

/-- DOMAIN_REPORT (R431). -/
def execDomainReport (ses : BitVec 32) (nonce : List (BitVec 8)) (s : State) : Out :=
  .next (s.zyn ses.toNat 2 fun s x =>
    if nonce.length ≠ 32 then s.zfail zBADREQ
    else match x.dom with
      | none => s.zfail zNOTOWNER
      | some d => (s, zOK, s.report d nonce))

/-! ### KEY_RELEASE (R421 to R426) -/

/-- The wrapping key of a session (R421). -/
def Session.wrapKey (x : Session) : List Byte := hkdfExpand ((x.secret.map Masked.key).getD []) (ascii "Siloft release") 32

/-- K_model from the shares in owner order (R426). -/
def modelKeyOf (p : List Byte) (shares : FMap KeySlot) : List Byte :=
  let ikm := ((List.range (polN p)).map fun o => match FMap.find? shares o with | some k => k.key | none => []).flatten
  hkdfExpand (hmac384 ((p.drop 16).take 16 ++ sha384 p) ikm) (ascii "Siloft model key") 32

/-- The last share has been installed: the model key is derived, the shares are erased, the session is ACTIVE. -/
def State.activate (s : State) (d : Nat) (p : List Byte) : State :=
  let k := s.slotKey 0xFE (modelKeyOf p (s.sec.dom d).shares)
  (s.modJoint d fun x => { x with slots := FMap.insert x.slots (modelSlot p) k, shares := [], joint := .active }).drew 4

/-- Checks 4 to 6 of R422 for owner `o`; none when they pass. -/
def State.releaseStop (s : State) (d o slot kind : Nat) (p : List Byte) : Option Nat :=
  let x := s.sec.dom d
  if s.needsRun d && (s.dom d).tdi != .run then some zTDI
  else if kind = 1 ∧ (slot = 0 ∨ (FMap.find? x.slots slot).isSome = true ∨ slot = modelSlot p) then some zSLOTUSED
  else if kind = 1 ∧ x.joint ≠ .forming ∧ x.joint ≠ .active then some zSTATE
  else if kind = 2 ∧ slot ≠ 0 then some zSLOTUSED
  else if kind = 2 ∧ (x.joint ≠ .forming ∨ x.joined.testBit o = true) then some zSTATE
  else if 16384 ≤ s.sec.slotsUsed then some zNOSPACE
  else none

/-- The unwrapped key goes into its slot; the Nth share makes the session ACTIVE (R422, R425). -/
def State.installKey (s : State) (d o slot kind : Nat) (p k : List Byte) : State :=
  let ks := s.slotKey o k
  let s := s.drew 4
  if kind = 1 then s.modJoint d fun x => { x with slots := FMap.insert x.slots slot ks }
  else
    let s := s.modJoint d fun x => { x with shares := FMap.insert x.shares o ks, joined := x.joined ||| 2 ^ o }
    if bitCount (polN p) (s.sec.dom d).joined = polN p then s.activate d p else s

/-- The checks of R422 in order, then the key. -/
def State.keyRelease (s : State) (x : Session) (slot kind rsv : Nat) (digest wrapped : List Byte) : State × Nat × List Byte :=
  if rsv ≠ 0 ∨ (kind ≠ 1 ∧ kind ≠ 2) ∨ wrapped.length ≠ 40 then s.zfail zBADREQ
  else match x.dom with
    | none => s.zfail zNOTOWNER
    | some d =>
      if s.sec.lc != .field || (s.dom d).fenced then s.zfail zSTATE
      else match (s.sec.dom d).policy with
        | none => s.zfail zPOLICY
        | some p =>
          if sha384 p ≠ digest then s.zfail zPOLICY
          else match ownerOf p x.ident with
            | none => s.zfail zNOTOWNER
            | some o =>
              match s.releaseStop d o slot kind p with
              | some e => s.zfail e
              | none => match Config.keyUnwrap x.wrapKey wrapped with
                | none => s.zfail zUNWRAP
                | some k => (s.installKey d o slot kind p k, zOK, [])

/-- KEY_RELEASE (R422). -/
def execKeyRelease (ses : BitVec 32) (slot kind : BitVec 8) (rsv : BitVec 16) (digest wrapped : List (BitVec 8)) (s : State) : Out :=
  .next (s.zyn ses.toNat 3 fun s x => s.keyRelease x slot.toNat kind.toNat rsv.toNat digest wrapped)

/-! ### KEY_ERASE (R423) -/

def State.keyErase (s : State) (x : Session) (slot kind rsv : Nat) : State × Nat × List Byte :=
  if rsv ≠ 0 ∨ (kind ≠ 1 ∧ kind ≠ 2) then s.zfail zBADREQ
  else match x.dom with
    | none => s.zfail zNOTOWNER
    | some d =>
      let y := s.sec.dom d
      match y.policy with
      | none => s.zfail zPOLICY
      | some p => match ownerOf p x.ident with
        | none => s.zfail zNOTOWNER
        | some o =>
          if y.joint = .finished then s.zfail zSTATE
          else if kind = 1 then
            match FMap.find? y.slots slot with
            | some k =>
              if k.owner = o ∧ k.dying = false then
                ((s.modJoint d fun y => { y with slots := FMap.insert y.slots slot { k with dying := true } }).dropDying d, zOK, [])
              else s.zfail zEMPTY
            | none => s.zfail zEMPTY
          else if y.joint = .forming ∧ (FMap.find? y.shares o).isSome = true then
            (s.modJoint d fun y => { y with shares := FMap.erase y.shares o, joined := y.joined &&& (2 ^ 16 - 1 - 2 ^ o) }, zOK, [])
          else s.zfail zEMPTY

/-- KEY_ERASE (R423). -/
def execKeyErase (ses : BitVec 32) (slot kind : BitVec 8) (rsv : BitVec 16) (s : State) : Out :=
  .next (s.zyn ses.toNat 4 fun s x => s.keyErase x slot.toNat kind.toNat rsv.toNat)

/-! ### JOINT_FINISH, MODEL_KEY_FETCH (R425, R427) -/

/-- An owner's finish is recorded; the Nth makes the session FINISHED. -/
def State.jointFinish (s : State) (x : Session) (digest : List Byte) : State × Nat × List Byte :=
  match x.dom with
  | none => s.zfail zNOTOWNER
  | some d =>
    let y := s.sec.dom d
    if (s.dom d).fenced then s.zfail zSTATE
    else match y.policy with
      | none => s.zfail zPOLICY
      | some p =>
        if sha384 p ≠ digest then s.zfail zPOLICY
        else match ownerOf p x.ident with
          | none => s.zfail zNOTOWNER
          | some o =>
            if y.joint ≠ .active ∨ y.done.testBit o = true then s.zfail zSTATE
            else
              let n := y.done ||| 2 ^ o
              (s.modJoint d fun y => { y with
                done := n, joint := if bitCount (polN p) n = polN p then .finished else .active }, zOK, [])

/-- JOINT_FINISH (R425). -/
def execJointFinish (ses : BitVec 32) (digest : List (BitVec 8)) (s : State) : Out :=
  .next (s.zyn ses.toNat 5 fun s x => s.jointFinish x digest)

/-- K_model, wrapped for the session, to an owner in FINISHED. -/
def State.modelKeyFetch (s : State) (x : Session) : State × Nat × List Byte :=
  match x.dom with
  | none => s.zfail zNOTOWNER
  | some d =>
    if (s.dom d).fenced then s.zfail zSTATE
    else match (s.sec.dom d).policy with
      | none => s.zfail zPOLICY
      | some p =>
        if (ownerOf p x.ident).isNone then s.zfail zNOTOWNER
        else if (s.sec.dom d).joint ≠ .finished then s.zfail zSTATE
        else match s.modelKey d with
          | some k => (s, zOK, Config.keyWrap x.wrapKey k)
          | none => s.zfail zEMPTY

/-- MODEL_KEY_FETCH (R427). -/
def execModelKeyFetch (ses : BitVec 32) (s : State) : Out :=
  .next (s.zyn ses.toNat 6 fun s x => s.modelKeyFetch x)

end Sys2Proof.Machine
end

