-- ==== Sys2Proof/Machine/Mailbox.lean ====
section
/-! DEFINITION. The mailboxes (R440 to R446) and their operations (R368, R418, R445, R487, R549). -/

namespace Sys2Proof.Machine

/-! ### Windows and framing (R440 to R443) -/

def State.mbx (s : State) (fn : Nat) : Mbx := FMap.get {} s.mgmt.mbx fn
def State.modMbx (s : State) (fn : Nat) (f : Mbx → Mbx) : State :=
  { s with mgmt := { s.mgmt with mbx := FMap.modify {} s.mgmt.mbx fn f } }

/-- A little-endian field of the request. -/
def Mbx.fld (m : Mbx) (o n : Nat) : Nat := leNat (Memory.rdN m.win o n)
def Mbx.op (m : Mbx) : Nat := m.fld 2 2
def Mbx.payload (m : Mbx) : List Byte := Memory.rdN m.win 0x20 (m.fld 8 4)

/-- A 32-byte header with its CHECK (R441). -/
def mbxHeader (op seq dom st ctx : Nat) (payload : List Byte) : List Byte :=
  let h := leBytes 2 0x100 ++ leBytes 2 op ++ leBytes 4 seq ++ leBytes 4 payload.length ++ leBytes 2 dom ++ leBytes 2 st
    ++ leBytes 4 0 ++ leBytes 2 ctx ++ leBytes 6 0
  h ++ leBytes 4 (crc32c (h ++ leBytes 4 0 ++ payload)).toNat

/-- MBX_FRAME of a message (R443): 0 OK, 1 VERSION, 2 CHECK, 3 LENGTH, 4 DOMAIN, 5 NOHELLO. -/
def Mbx.framing (m : Mbx) (fn : Nat) : Nat :=
  if m.fld 1 1 ≠ 1 then 1
  else if 4032 < m.fld 8 4 then 3
  else if m.fld 0x1C 4 ≠ (crc32c (Memory.rdN m.win 0 0x1C ++ leBytes 4 0 ++ m.payload)).toNat then 2
  else if m.fld 0xC 2 ≠ (if fn = 0 then 0xFFFF else fn - 1) then 4
  else if m.hello.isNone && m.op != 1 then 5
  else 0

/-- The feature bit of an operation in its mailbox's table (R444, R445, R368, R418, R487). -/
def mbxFeature (fn op : Nat) : Option Nat :=
  if op = 1 then some 0
  else if fn = 0 then
    match op with
    | 0x100 => some 0 | 0x101 | 0x102 => some 1 | 0x103 | 0x104 | 0x105 => some 2 | 0x106 | 0x107 => some 3 | _ => none
  else
    match op with
    | 0x205 | 0x206 | 0x207 => some 0 | 0x200 | 0x201 => some 1 | 0x202 => some 2 | 0x203 => some 3 | 0x204 => some 4
    | _ => none

/-- BADCMD after framing: FLAGS, CONTEXT, STATUS or a reserved byte nonzero, an operation unknown or not negotiated (R441, R443). -/
def Mbx.badCmd (m : Mbx) (fn : Nat) : Bool :=
  m.fld 0x10 4 != 0 || m.fld 0x14 2 != 0 || m.fld 0xE 2 != 0 || m.fld 0x16 6 != 0
    || (match mbxFeature fn m.op with
        | none => true
        | some b => m.op != 1 && !(m.hello.getD 0).testBit b)

/-- Who serves the mailbox runs: firmware in RUN, the recovery monitor in HOLD for PF0 (R446, R453). -/
def State.mbxServed (s : State) (fn : Nat) : Bool :=
  !s.sec.snuffed && (if fn = 0 then s.dev.st == .run || (s.dev.st == .hold && s.mgmt.fw.monitor)
    else s.dev.st == .run && s.doorOpen (fn - 1))

/-- The monitor serves these; every other operation completes with BUSY (R446). -/
def monitorOps : List Nat := [1, 0x100, 0x101, 0x102]

/-- Firmware replies: the window, READY, vector 0 (R442). -/
def State.mbxReply (s : State) (fn st : Nat) (payload : List Byte) : State :=
  let m := s.mbx fn
  let h := mbxHeader m.op (m.fld 4 4) (m.fld 0xC 2) st (m.fld 0x14 2) payload
  (s.modMbx fn fun m => { m with go := false, ready := true, rep := Memory.wrN m.rep 0 (h ++ payload) }).raiseIrq fn 0

/-- Trace point MBX_FRAME (R460): a message fails framing. The scheduler core serves mailboxes, the monitor PF0's in HOLD (R433, R446;
level and SRC log 22). -/
def State.frameLog (s : State) (fn frame : Nat) : State :=
  s.sootLog (if s.dev.st == .hold then 0 else 1) 2 9 [fn, frame] (if fn = 0 then 0xFFFF else fn - 1)

/-- GO is written (R442): FRAME BUSY while a message or reply is outstanding; else the message is framed, and one that cannot be
acted on is answered. -/
def State.mbxSubmit (s : State) (fn : Nat) : State :=
  let m := s.mbx fn
  if m.go || m.ready then s.modMbx fn fun m => { m with frame := 6 }
  else if !s.mbxServed fn then s.modMbx fn fun m => { m with go := true }
  else
    let c := m.framing fn
    let s := s.modMbx fn fun m => { m with go := true, frame := c }
    if c ≠ 0 then (s.frameLog fn c).mbxReply fn stBADCMD []
    else if m.badCmd fn then s.mbxReply fn stBADCMD []
    else if s.dev.st == .hold && !monitorOps.contains m.op then s.mbxReply fn stBUSY []
    else s

/-- What an operation answers: the state, its status and reply payload; none while NVS works on it. -/
abbrev MbxOut := State × Option (Nat × List Byte)

def State.mOk (s : State) (p : List Byte := []) : MbxOut := (s, some (stOK, p))
def State.mFail (s : State) (st : Nat) : MbxOut := (s, some (st, []))

/-- A submitted operation waits to be served. -/
def State.mbxWaits (s : State) (fn op : Nat) : Bool :=
  let m := s.mbx fn
  m.go && s.mbxServed fn && m.framing fn == 0 && !m.badCmd fn && m.op == op
    && (fn != 0 || !s.mgmt.nvs.queue.any fun r => r.who == .mailbox)

/-- Firmware acts on the message in the window, if it is this operation. -/
def State.mbxRun (s : State) (fn op : Nat) (serve : State → List Byte → MbxOut) : State :=
  if !s.mbxWaits fn op then s
  else if s.dev.st == .hold && !monitorOps.contains op then s.mbxReply fn stBUSY []
  else
    let r := serve s (s.mbx fn).payload
    match r.2 with
    | some (st, p) => r.1.mbxReply fn st p
    | none => r.1

/-- MBX_GO (R442, R443). -/
def execMbxGo (fn : BitVec 9) (s : State) : Out :=
  .next (if fn = 0 then s.pfWrite 0x301FF0 fun s => s.mbxSubmit 0
    else if s.doorOpen (fn.toNat - 1) then s.mbxSubmit fn.toNat else s)

/-- MBX_READY (R442). -/
def execMbxReady (fn : BitVec 9) (s : State) : Out :=
  let f := fun (s : State) => s.modMbx fn.toNat fun m => { m with ready := false }
  .next (if fn = 0 then s.pfWrite 0x302FF0 f else if s.doorOpen (fn.toNat - 1) then f s else s)

/-- The feature bits firmware sets (R444). -/
def mbxBits (fn : Nat) : Nat := if fn = 0 then 0xF else 0x1F

/-- HELLO (R444). -/
def execMbxHello (fn : BitVec 9) (s : State) : Out :=
  .next (s.mbxRun fn.toNat 1 fun s p =>
    if p.length ≠ 16 ∨ (leNat p).testBit 0 = false then s.mFail stBADCMD
    else
      let b := leNat p &&& mbxBits fn.toNat
      (s.modMbx fn.toNat fun m => { m with hello := some b }).mOk (leBytes 16 b ++ leBytes 16 (mbxBits fn.toNat)))

/-! ### Domain operations (R368, R418, R487) -/

/-- A domain operation whose payload has `n` bytes. -/
def State.domOp (s : State) (d op n : Nat) (serve : State → Dom → List Byte → MbxOut) : State :=
  s.mbxRun (d + 1) op fun s p => if p.length ≠ n then s.mFail stBADDESC else serve s (s.dom d) p

/-- PIN_ADD (R184, R368). -/
def execPinAdd (d : BitVec 8) (s : State) : Out :=
  .next (s.domOp d.toNat 0x200 12 fun s m p =>
    let t := fieldAt p 0 4
    let n := fieldAt p 4 8
    if n = 0 ∨ 2 ^ 37 ≤ n ∨ 2 ^ 24 ≤ t then s.mFail stBADDESC
    else if m.pins.any fun x => x.tensor == t then s.mFail stEXISTS
    else if 32 * 2 ^ 20 < 2 * (n + sumBy Pin.nelem m.pins) then s.mFail stQUOTA
    else (s.setDom d.toNat { m with pins := m.pins ++ [{ tensor := t, nelem := n }] }).mOk)

/-- PIN_REMOVE (R368). -/
def execPinRemove (d : BitVec 8) (s : State) : Out :=
  .next (s.domOp d.toNat 0x201 4 fun s m p =>
    let t := leNat p
    if !m.pins.any fun x => x.tensor == t then s.mFail stBADADDR
    else if s.eng.upds.any fun u => u.dom == d.toNat && u.tensor == t && u.store == 1 then s.mFail stBUSY
    else (s.setDom d.toNat { m with pins := m.pins.filter fun x => x.tensor != t }).mOk)

/-- SET_TIMEOUT (R368). -/
def execSetTimeout (d : BitVec 8) (s : State) : Out :=
  .next (s.domOp d.toNat 0x202 4 fun s m p =>
    if leNat p = 0 then s.mFail stBADDESC else (s.setDom d.toNat { m with timeoutUs := leNat p }).mOk)

/-- SET_PAGEMODE (R363). -/
def execSetPagemode (d : BitVec 8) (s : State) : Out :=
  .next (s.domOp d.toNat 0x203 1 fun s m p =>
    if 2 ≤ leNat p then s.mFail stBADDESC
    else if !m.ctxs.isEmpty then s.mFail stBUSY
    else
      let t := s.setDom d.toNat { m with driver := leNat p == 1 }
      (if m.driver = (leNat p == 1) then t else t.raiseIrq (d.toNat + 1) 0).mOk)

/-- SET_JOBSEED (R368). -/
def execSetJobseed (d : BitVec 8) (s : State) : Out :=
  .next (s.domOp d.toNat 0x207 8 fun s m p =>
    if !m.ctxs.isEmpty then s.mFail stBUSY
    else (s.setDom d.toNat { m with jobSeed := BitVec.ofNat 64 (leNat p) }).mOk)

/-- Bytes of a policy table with this header (R417). -/
def polSize (p : List Byte) : Nat := 0x80 + 48 * (polN p + polNProg p) + 32 * polNRange p

/-- Two ranges share a byte. -/
def rangesMeet (a b : Nat × Nat × Nat) : Bool := decide (a.1 < b.1 + b.2.1) && decide (b.1 < a.1 + a.2.1)

/-- Some two of a list of ranges overlap. -/
def anyOverlap : List (Nat × Nat × Nat) → Bool
  | [] => false
  | r :: l => l.any (rangesMeet r) || anyOverlap l

/-- One egress range is malformed. -/
def badRange (n : Nat) (r : Nat × Nat × Nat) : Bool :=
  decide (spaceOf (BitVec.ofNat 64 r.1) ≠ some .dom ∨ r.1 % 64 ≠ 0 ∨ r.2.1 = 0 ∨ r.2.1 % 64 ≠ 0
    ∨ 2 ^ 57 < offOf (BitVec.ofNat 64 r.1) + r.2.1 ∨ (n ≤ r.2.2 ∧ r.2.2 ≠ 0xFE))

/-- A policy table is malformed (R417). -/
def badPolicy (p : List Byte) : Bool :=
  decide (p.length < 128) || p.take 4 != ascii "SPOL" || fieldAt p 4 2 != 0x100 || decide (2 ≤ fieldAt p 6 2)
    || decide (polN p = 0 ∨ 16 < polN p ∨ polNProg p = 0 ∨ 16 < polNProg p ∨ polNRange p = 0 ∨ 256 < polNRange p)
    || modelSlot p == 0 || fieldAt p 0xD 3 != 0 || fieldAt p 0x10 16 == 0 || fieldAt p 0x50 48 != 0
    || decide (p.length ≠ polSize p)
    || (List.range (polNRange p)).any (fun i => fieldAt p (0x80 + 48 * (polN p + polNProg p) + 32 * i + 17) 15 != 0)
    || (polRanges p).any (badRange (polN p)) || anyOverlap (polRanges p)

/-- A loaded program that the policy does not permit. -/
def State.strangeProg (s : State) (d : Nat) (p : List Byte) : Bool :=
  ((s.dom d).recs.filter fun r => r.kind == .prog).any fun r => !(polProgs p).contains (sha384 (s.rdDom d r.base 128))

/-- POLICY_LOAD on a table that has been read (R418, R430). -/
def State.policyLoad (s : State) (d : Nat) (p : List Byte) : MbxOut :=
  let m := s.dom d
  let want := match m.binding with | some b => b.digest | none => List.replicate 48 0
  if badPolicy p then s.mFail stBADDESC
  else if (s.sec.dom d).policy.isSome then s.mFail stEXISTS
  else if (p.drop 0x20).take 48 ≠ want then s.mFail stNOTBOUND
  else if s.strangeProg d p then s.mFail stBADIMAGE
  else if !m.ctxs.isEmpty then s.mFail stBUSY
  else
    let s := s.modJoint d fun x => { x with policy := some p, joint := .forming, joined := 0, done := 0, confirmed := [] }
    let peers := match m.binding with | some b => (b.chips.map Prod.fst).filter (· != s.fab.chip) | none => []
    (peers.foldl (fun t c => t.sendPeer d c) s).mOk

/-- POLICY_LOAD (R418). -/
def execPolicyLoad (d : BitVec 8) (s : State) : Out :=
  .next (s.domOp d.toNat 0x204 12 fun s _ q =>
    let n := fieldAt q 8 4
    if 4 ≤ (FMap.get [] s.sec.spdm.ready d.toNat).length then s.mFail stBUSY
    else if n < 128 ∨ 128 + 32 * 48 + 256 * 32 < n then s.mFail stBADDESC
    else
      let s := s.cmdReads d.toNat (BitVec.ofNat 64 (fieldAt q 0 8)) 1 n
      match s.cmdRead d.toNat (BitVec.ofNat 64 (fieldAt q 0 8)) 1 n with
      | .error e => s.mFail e
      | .ok p => s.policyLoad d.toNat p)

/-- TRIGGER_ARM (R487). -/
def execTriggerArm (d : BitVec 8) (s : State) : Out :=
  .next (s.domOp d.toNat 0x205 36 fun s _ p =>
    let t : Trig := { mode := fieldAt p 0 1 == 1, action := fieldAt p 1 1, word := fieldAt p 2 2, count := fieldAt p 4 2
                      inc := fieldAt p 8 4, time := BitVec.ofNat 64 (fieldAt p 12 8), period := BitVec.ofNat 64 (fieldAt p 20 8)
                      arg := BitVec.ofNat 64 (fieldAt p 28 8) }
    let bad := decide (511 < t.word ∨ 0x7FFFFF < t.inc ∨ 16383 < t.count ∨ 1 < fieldAt p 0 1 ∨ fieldAt p 6 2 ≠ 0)
      || t.arg.getLsbD 63
    match s.trigArm d.toNat t bad with
    | .error e => s.mFail e
    | .ok (u, n) => u.mOk (leBytes 2 n))

/-- TRIGGER_CANCEL (R487). -/
def execTriggerCancel (d : BitVec 8) (s : State) : Out :=
  .next (s.domOp d.toNat 0x206 2 fun s _ p =>
    let r := s.trigCancel d.toNat (leNat p)
    (r.1, some (r.2, [])))

/-! ### Management operations (R445) -/

/-- A management operation whose payload has `n` bytes. -/
def State.pfOp (s : State) (op n : Nat) (serve : State → List Byte → MbxOut) : State :=
  s.mbxRun 0 op fun s p => if p.length ≠ n then s.mFail stBADDESC else serve s p

/-- FW_INFO (R445). -/
def execFwInfo (s : State) : Out :=
  .next (s.pfOp 0x100 0 fun s _ =>
    let f := s.mgmt.fw
    s.mOk (leBytes 1 f.comps.length ++ leBytes 1 f.source ++ leBytes 2 f.bsvn
      ++ (f.comps.map fun c => leBytes 1 c.type ++ leBytes 1 0 ++ leBytes 2 c.svn ++ c.digest).flatten))

/-- A copy of the record, if it is not erased. -/
def NvsSt.bcr (n : NvsSt) (copy : Nat) : Option (List Byte) :=
  if copy = 0 then (if n.bcrA.isEmpty then none else some n.bcrA)
  else if copy = 1 then (if n.bcrB.isEmpty then none else some n.bcrB) else none

/-- BCR_READ (R445). -/
def execBcrRead (s : State) : Out :=
  .next (s.pfOp 0x101 1 fun s p =>
    let s := s.nvsLook (· == (2 + leNat p, 0))
    match s.mgmt.nvs.bcr (leNat p) with
    | some b => s.mOk (b.take 4032)
    | none => s.mFail stBADADDR)

/-- A Board Configuration Record is valid (R547). -/
def goodBcr (b : List Byte) : Bool :=
  let len := fieldAt b 6 2
  let seq := fieldAt b 8 4
  let flags := fieldAt b 0x12 2
  let def_ := fieldAt b 0x14 2
  let brd := fieldAt b 0x16 2
  let b' := b.take len
  b.take 4 == ascii "SBCR" && fieldAt b 4 2 == 0x100 && decide (208 ≤ len ∧ len ≤ 4032 ∧ len % 4 = 0 ∧ len ≤ b.length)
    && decide (1 ≤ seq ∧ seq ≤ 0xFFFFFFFE)
    && fieldAt b 0xC 4 == (crc32c (b'.take 0xC ++ leBytes 4 0 ++ b'.drop 0x10)).toNat
    && decide (fieldAt b 0x10 2 < 129 * 32) && decide (flags < 8 ∧ flags % 4 ≠ 3)
    && decide (1000 ≤ def_ ∧ def_ ≤ 2800 ∧ 1000 ≤ brd ∧ brd ≤ 2800 ∧ def_ ≤ brd)
    && decide (fieldAt b 0x18 8 < 2 ^ 36 ∧ fieldAt b 0x20 8 < 2 ^ 36)
    && (flags % 4 != 1 || fieldAt b 0x28 8 % 1000000000 == 0) && fieldAt b 0x30 16 == 0
    && (List.range 36).all fun i =>
        let e := fieldAt b (0x40 + 4 * i) 4
        if e.testBit 19 then decide (e % 2 ^ 13 < 129 * 32 ∧ e / 2 ^ 13 % 64 < 36 ∧ e < 2 ^ 20) else e == 0

/-- The SEQ of a record. -/
def bcrSeqOf (b : List Byte) : Nat := fieldAt b 8 4

/-- The largest SEQ among the valid copies. -/
def NvsSt.bcrTop (n : NvsSt) : Nat :=
  max (if goodBcr n.bcrA then bcrSeqOf n.bcrA else 0) (if goodBcr n.bcrB then bcrSeqOf n.bcrB else 0)

/-- BCR_WRITE (R549): the copy not in force, for whoever asked; none on success while it is programmed. -/
def State.bcrWrite (s : State) (b : List Byte) (who : NvsFor) : State × Option Nat :=
  if !goodBcr b || decide (bcrSeqOf b ≤ s.mgmt.nvs.bcrTop) then (s, some stBADDESC)
  else
    let r := s.nvsPut { work := .bcr (s.mgmt.start.copy == 1) b, who := who }
    (r.1, if r.2 then none else some stNOSPACE)

/-- An operation that NVS completes later, or that failed at once. -/
def mLater (r : State × Option Nat) : MbxOut :=
  match r.2 with
  | some e => r.1.mFail e
  | none => (r.1, none)

/-- Queue NVS work for the mailbox. -/
def State.mNvs (s : State) (w : NvsWork) : MbxOut :=
  let r := s.nvsPut { work := w, who := .mailbox }
  mLater (r.1, if r.2 then none else some stNOSPACE)

/-- BCR_WRITE (R549). -/
def execBcrWrite (s : State) : Out := .next (s.mbxRun 0 0x102 fun s p => mLater (s.bcrWrite p .mailbox))

/-- Seal a user record with a fresh 12-byte nonce (R457). -/
def State.sealRec (s : State) (b : List Byte) : Sealed :=
  { nonce := s.rndBytes 12, key := (s.sec.nvsKey.map Masked.key).getD [], bytes := b }

/-- NVS_USER_WRITE (R457). -/
def execNvsUserWrite (s : State) : Out :=
  .next (s.mbxRun 0 0x103 fun s p =>
    let n := fieldAt p 2 2
    if p.length < 4 ∨ 4028 < n ∨ p.length ≠ 4 + n then s.mFail stBADDESC
    else if 768 ≤ fieldAt p 0 2 then s.mFail stBADADDR
    else (s.drewBytes 12).mNvs (.userWrite (fieldAt p 0 2) (s.sealRec (p.drop 4))))

/-- NVS_USER_READ (R445). -/
def execNvsUserRead (s : State) : Out :=
  .next (s.pfOp 0x104 2 fun s p =>
    if 768 ≤ leNat p then s.mFail stBADADDR
    else
      let s := s.nvsLook (· == (10 + leNat p / 128, leNat p % 128))
      match FMap.get .erased s.mgmt.nvs.user (leNat p) with
      | .erased => s.mFail stBADADDR
      | .bad => s.mFail stBADDESC
      | .data r => match r.unseal ((s.sec.nvsKey.map Masked.key).getD []) with
        | some b => s.mOk (leBytes 2 b.length ++ b)
        | none => s.mFail stBADDESC)

/-- NVS_USER_ERASE (R445). -/
def execNvsUserErase (s : State) : Out :=
  .next (s.pfOp 0x105 2 fun s p => if 768 ≤ leNat p then s.mFail stBADADDR else s.mNvs (.userErase (leNat p)))

/-- NVS_CTR_READ (R456). -/
def execNvsCtrRead (s : State) : Out :=
  .next (s.pfOp 0x106 1 fun s p =>
    if 42 ≤ leNat p then s.mFail stBADADDR
    else
      let s := s.nvsLook fun q => q.1 == 7 && q.2 / 3 == leNat p
      match s.mgmt.nvs.ctr (leNat p) with
      | none => s.mFail stBADDESC
      | some (v, q) => (s.ctrTie (leNat p)).mOk (leBytes 8 v.toNat ++ leBytes 4 q))

/-- NVS_CTR_INC (R456): a NOVALUE counter accepts no increment. -/
def execNvsCtrInc (s : State) : Out :=
  .next (s.pfOp 0x107 1 fun s p =>
    if leNat p < 10 ∨ 42 ≤ leNat p then s.mFail stBADADDR
    else if (s.mgmt.nvs.ctr (leNat p)).isNone then s.mFail stBADDESC
    else s.mNvs (.ctr (leNat p)))

end Sys2Proof.Machine
end

