-- ==== Sys2Proof/Machine/Service.lean ====
section
/-! DEFINITION. The service port's session and results (R461 to R465, R607), and completion of NVS work (R449, R451, R460). -/

namespace Sys2Proof.Machine

/-- The USB_DP pull-up is applied: standby, USB_VBUS, SVC_DIS 0, USB_CTRL.DISABLE 0 (R461, R607). -/
def State.usbUp (s : State) : Bool :=
  s.dev.st != .off && s.mgmt.pins.vbus && !s.mgmt.pins.straps.testBit 2 && !s.mgmt.usb.disable

/-- Detachment: a staged block is discarded, the session stays (R463, R465). -/
def State.usbDetach (s : State) : State := s.modUsb fun u => { u with staged := none, configured := false, high := false, addr := 0 }

/-- A SETUP arrives on endpoint 0: a staged block is discarded, and the request counts for the session's 600 s; the answer so far is
STALL. -/
def State.setup (s : State) (f : State → State) : State :=
  if !s.usbUp then s else f (s.modUsb fun u => { u with staged := none, reply := none, at_ := s.clk })

/-- An IN answer, or an acknowledged status stage. -/
def State.usbReply (s : State) (b : List Byte) : State := s.modUsb fun u => { u with reply := some b }

/-- What completed work does outside the NVS. -/
def SecSt.nvsDone (x : SecSt) : NvsWork → SecSt
  | .tamper b => { x with tamper := b }
  | .eraseSeeds => { x with ownSeeds := false }
  | _ => x

/-- Tell whoever waits for the work at the head (R445, R466). -/
def State.nvsTell (s : State) (r : NvsReq) (st : Nat) : State :=
  match r.who with
  | .nobody => s
  | .usb => if st = 0 then s.usbDone 0 else s.usbDone 9 (leBytes 1 st)
  | .mailbox =>
    if st ≠ 0 then s.mbxReply 0 stNOSPACE []
    else match r.work with
      | .ctr i => s.mbxReply 0 stOK (leBytes 8 (s.mgmt.nvs.val i))
      | _ => s.mbxReply 0 stOK []

/-- The program or erase at the head of the queue ends with a status of R451: 0, 4 VERIFY or 5 ABORTED. -/
def State.nvsComplete (s : State) (st : Nat) : State :=
  match s.mgmt.nvs.queue with
  | [] => s
  | r :: q =>
    let at_ := (s.mgmt.nvs.places r.work).headD (0, 0)
    let took := s.rnd.getLsbD 0
    let s := (s.modNvs fun n => { (if st = 0 then (n.fresh r.work).apply r.work
      else if st = 5 then n.cut took r.work else n.tear r.work) with queue := q, last := st }).drew 1
    let s := if st = 0 then s.modSec fun x => x.nvsDone r.work else s
    (s.sootLog 0 (if st = 0 then 1 else 3) 6 [st, at_.1, at_.2]).nvsTell r st

/-- NVS_OP_COMPLETE (R449). -/
def execNvsOpComplete (st : BitVec 8) (s : State) : Out :=
  .next (if s.powered then s.nvsComplete (if st = 0 ∨ st = 4 ∨ st = 5 then st.toNat else 4) else s)

end Sys2Proof.Machine
end

