-- ==== Sys2Proof/Machine/Start.lean ====
section
/-! DEFINITION. Starting the device (R386, R394, R397, R535 to R551, R600 to R609): what survives, the steps of phase 1, counting
attempts, supplies and PERST_N. -/

namespace Sys2Proof.Machine

/-! ### What survives (R535, R578) -/

/-- The security core after its volatile state is lost; a cold start also clears SEC_SNUF_ARM (R404). -/
def SecSt.wiped (x : SecSt) (cold : Bool) (now : Nat) : SecSt :=
  { ({} : SecSt) with
    otp := x.otp, otpTight := x.otpTight, otpCache := x.otpCache, otpStale := x.otpStale, lc := x.lc, lcKnown := false, copies := x.copies
    mark := x.mark, markSeq := x.markSeq, ownSeeds := x.ownSeeds
    tamper := x.tamper, remaskAt := now, rootSrc := 0, nonce := x.nonce
    armEncl := x.armEncl && !cold, armEsc := x.armEsc && !cold
    spdm := { ({} : SpdmSt) with chains := x.spdm.chains } }

/-- What lives in NVS, in the standby domain, or outside the device. A session of the service port ends (R463). -/
def MgmtSt.wiped (x : MgmtSt) (took : Bool) : MgmtSt :=
  { ({} : MgmtSt) with
    nvs := { x.nvs.interrupt took with exec := [] }, pins := x.pins, smb := x.smb, jtag := x.jtag
    usb := { configured := x.usb.configured, high := x.usb.high, addr := x.usb.addr }
    soot := { buf := x.soot.buf }
    start := { x.start with retry := none }
    pwr := { plans := x.pwr.plans.map fun (p : Nat × Plan) => (p.1, ({ mhz := p.2.mhz, dv := p.2.dv } : Plan)), ageLog := x.pwr.ageLog, trained := x.pwr.trained }
    regs := { linkSpeed := x.regs.linkSpeed, linkWidth := x.regs.linkWidth, linkFlit := x.regs.linkFlit }
    fw := { monitor := false } }

/-- Every volatile part of the device is gone. -/
def State.wiped (s : State) (cold : Bool) (st : DevSt) : State :=
  { ({} : State) with
    pending := s.pending, clk := s.clk, free := s.free + 1, hostMem := s.hostMem, irq := s.irq
    dev := { ({} : Dev) with st := st, cause := 0, lastFail := s.dev.lastFail, small := s.dev.small }
    sec := s.sec.wiped cold s.clk
    mgmt := s.mgmt.wiped (s.rnd.getLsbD 0)
    mem := { ({} : MemSt) with up := false }
    bcn := { ({} : BcnSt) with ref := s.bcn.ref }
    fab := { ({} : FabSt) with tx := s.fab.tx } }

/-! ### OTP and life cycle (R386, R394, R397) -/

/-- A field with a CRC reads right; one not yet programmed is no failure (DEDUCED, log 48). -/
def otpCrcOk (m : Memory) (o n : Nat) : Bool :=
  let b := Memory.rdN m o n
  let c := leNat (Memory.rdN m (o + n) 4)
  (c == 0 && b.all (· == 0)) || c == (crc32c b).toNat

/-- Sense the array (R386): thermometer cells that read at normal margin alone are pulsed again (R397), then every field is cached. -/
def SecSt.sense (x : SecSt) (bad weak : List (BitVec 16)) : SecSt :=
  let cells := ((List.range 256).map (8 * 0x200 + ·)).filter fun c => otpBit x.otp c && !otpBit x.otpTight c
  let x := x.pulse cells bad weak
  { x with otpCache := x.otp, otpStale := false }

/-- The state of three disagreeing copies is the one that opens least (R394). -/
def lcOrder : List Lc := [.invalid, .scrap, .field, .prov, .rma, .mfg, .test, .blank]

/-- The decision of R394. -/
def SecSt.decide_ (x : SecSt) (bad weak : List (BitVec 16)) : SecSt :=
  let d := fun (y : SecSt) => lcBases.map y.decodeCopy
  let l := d x
  let y := { x with lcKnown := true, copies := (l.getD 0 .invalid, l.getD 1 .invalid, l.getD 2 .invalid), markFound := x.mark.isSome }
  match x.mark with
  | some (_, t, _) =>
    let z := y.program t bad weak
    if 2 ≤ ((d z).filter (· == t)).length then { z with lc := t, mark := none } else { z with lc := .invalid }
  | none =>
    match lcOrder.find? (fun t => decide (2 ≤ (l.filter (· == t)).length)) with
    | some t => { y with lc := t }
    | none => { y with lc := (lcOrder.find? (l.contains ·)).getD .invalid }

/-! ### The steps (R539, R540) -/

/-- Log a start step (R460): step and result. -/
def State.stepLog (s : State) (step res : Nat) : State := s.sootLog 0 1 1 [step, res]

/-- The cause a step fails with when its hardware fails or exceeds the limit (R539). -/
def stepCause (n : Nat) : Nat := if n = 2 then 4 else if n = 3 then 0xE else if n = 4 then 5 else 8

/-- The PUF's array is powered and read, and then overwritten with DRBG output (R375). -/
def State.overwriteArray (s : State) : State :=
  (s.modSec fun x => { x with pufOn := true, pufArray := s.rndBytes 8192 }).drewBytes 8192

/-- S goes into the working slot (R379), and SEC_STATUS.ROOTSRC says where it came from. -/
def State.holdSeed (s : State) (seed : List Byte) (src : Nat) : State :=
  (s.modSec fun x => { x with seed := some (s.maskKey seed), rootSrc := src }).drewBytes 32

/-- Write a helper record into slot `k` of bank 4. -/
def NvsSt.putHelper (n : NvsSt) (k : Nat) (r : PufRec) : NvsSt := { n with puf := FMap.insert n.puf k r }

/-- Enrolment (R377): S from the DRBG, 64 reads of the array, the challenges that hold steady, both records; 6 when too few cells or
challenges qualify. -/
def State.enrol (s : State) (i : StartIn) : State × Nat :=
  let seed := s.rndBytes 32
  let s := (s.drewBytes 32).overwriteArray
  let m := stableCells i.sram
  let cs := steadyChallenges i.delay
  if (marked pufCells 0 pufBits m).length < pufBits ∨ cs.length < pufBits then (s, 6)
  else
    let s := s.modNvs fun n =>
      (n.putHelper 0 (.make (.mask m) seed (i.sram.getD 0 0) 1)).putHelper 2 (.make (.challenges cs) seed (delayBits i.delay cs) 1)
    (s.holdSeed seed 1, 0)

/-- Regeneration from the SRAM PUF (R378); more than 5 errors in a block refresh the record in the other slot. -/
def State.fromSram (s : State) (i : StartIn) : Option State :=
  let bits := i.sram.getD 0 0
  match s.mgmt.nvs.helper 0 with
  | none => none
  | some (k, r) => (r.open_ bits).map fun p =>
    let s := if 5 < p.2 then s.modNvs fun n => n.putHelper (1 - k) (.make r.sel p.1 bits (r.seq + 1)) else s
    s.holdSeed p.1 1

/-- Regeneration from the delay-line PUF (R378). -/
def State.fromDelay (s : State) (i : StartIn) : Option State :=
  match s.mgmt.nvs.helper 2 with
  | none => none
  | some (_, r) => (r.open_ (delayBits i.delay r.sel.used)).map fun p => s.holdSeed p.1 2

/-- C4: S (R377, R378), or the cause the start fails with. TEST needs none: its root is the constant in ROM. -/
def State.rootStep (s : State) (i : StartIn) : State × Nat :=
  if s.sec.lc == .test then (s.modSec fun x => { x with rootSrc := 3 }, 0)
  else if s.sec.lc == .mfg && !s.mgmt.nvs.enrolled then s.enrol i
  else
    let s := s.overwriteArray
    match s.fromSram i with
    | some t => (t, 0)
    | none =>
      let s := s.secEvent 0xF none
      match s.fromDelay i with
      | some t => (t, 0)
      | none => (s, 5)

/-- C7: the root of the state in force, what is derived from it, and the erasure of S (R379 to R381). -/
def State.deriveRoot (s : State) : State :=
  let x := s.sec
  match lcRoot x.otpCache x.lc ((x.seed.map Masked.key).getD []) with
  | none => s.modSec fun x => { x with seed := none }
  | some r =>
    let a := s.drewBytes 48
    let b := a.drewBytes 48
    (b.modSec fun x => { x with
      seed := none, root := some (s.maskKey r), idSeed := some (a.maskKey (identitySeed x.otpCache r))
      nvsKey := some (b.maskKey (sealKey x.otpCache r)) }).drewBytes 32

/-- C7: a package key for each direction of the nine die-to-die ports (R24, R380). -/
def State.packageKeys (s : State) : State :=
  (List.range 18).foldl (fun s k =>
    match s.newKey 32 with
    | some q => (s.modSec fun x => { x with d2d := FMap.insert x.d2d k q }).drewKey 32
    | none => s) s

/-- C8, or W7 (R540, R565): a controller trains fully and its record is written, with the temperature measured, unless at a warm start it
has one taken within 15 °C. -/
def State.trainMem (s : State) (cold : Bool) : State :=
  let t (i : Nat) : Nat := (Config.measured (s.free + i)).toNat % 256
  -- degrees Celsius, signed (R589)
  let keep (i r : Nat) : Bool := !cold && decide (((BitVec.ofNat 8 (t i)).toInt - (BitVec.ofNat 8 r).toInt).natAbs ≤ 15)
  { s with
    free := s.free + 28
    mgmt := { s.mgmt with pwr := { s.mgmt.pwr with
      trained := (List.range 28).map fun i => (i, match FMap.find? s.mgmt.pwr.trained i with
        | some r => if keep i r then r else t i
        | none => t i) } } }

/-- C8 and C9: the controllers have trained, and each gets the device memory key set, 96 bytes, under a mask of its own (R221, R380). -/
def State.memoryKeys (s : State) : State :=
  let key := s.rndBytes 96
  let s := (List.range 28).foldl (fun (s : State) c =>
    (s.modCtl c fun x => { x with devKey := some (s.maskKey key) }).drewBytes 96) (s.drewBytes 96)
  { s with mem := { s.mem with up := true } }

/-- C6: the copies of the Board Configuration Record and which is in force (R548): the cause of a HOLD, or 0. -/
def State.pickBcr (s : State) : State × Nat :=
  let n := s.mgmt.nvs
  let a := goodBcr n.bcrA
  let b := goodBcr n.bcrB
  let sa := bcrSeqOf n.bcrA
  let sb := bcrSeqOf n.bcrB
  let put (c q : Nat) : State := { s with mgmt := { s.mgmt with start := { s.mgmt.start with
    copy := c, aValid := a, bValid := b, bcrSeq := q } } }
  if !a && !b then (put 0 0, 2)
  else if a && (!b || decide (sb < sa) || decide (n.bcrA = n.bcrB)) then (put 1 sa, 0)
  else if b && (!a || decide (sa < sb)) then (put 2 sb, 0)
  else (put 0 0, 3)

/-- Lantern `l` as OTP and the fence records leave it (R106, R111, R507). -/
def State.bootLantern (s : State) (l : Nat) : Lantern :=
  let fen : BitVec 8 := (List.range 8).foldl (fun v p => if s.mgmt.nvs.fences.contains (0, 8 * l + p) then v ||| BitVec.ofNat 8 (2 ^ p) else v) 0
  let x : Lantern := { ship := Memory.rd s.sec.otpCache (0x80 + l), fenced := fen, mhz := (FMap.get {} s.mgmt.pwr.plans l).mhz }
  let x := { x with whole := s.mgmt.nvs.fences.contains (1, l) || decide (4 < x.nFenced) }
  let x := { x with map := x.foldMap }
  { x with off := x.firstOff }

/-- Fence records of bank 5 are applied (R507), and the record in force gives the chip, the links and the power limits (R546, R548). -/
def State.bootBoard (s : State) : State :=
  let b := s.bcr
  let f := s.mgmt.nvs.fences
  let lanes (n : Nat) : BitVec 8 := (List.range 8).foldl (fun v i => if f.contains (2, 8 * n + i) then v ||| BitVec.ofNat 8 (2 ^ i) else v) 0
  let frames := (f.filter fun p => p.1 == 3).map Prod.snd
  { s with
    lanterns := (List.range 64).foldl (fun m l => FMap.set {} m l (s.bootLantern l)) []
    fab := { s.fab with
      chip := fieldAt b 0x10 2
      cable := if fieldAt b 0x12 2 / 4 % 2 = 1 then some (((List.range 36).filter fun n => fieldAt b (0x40 + 4 * n) 4 / 2 ^ 19 % 2 == 1).map
          fun n => (n, fieldAt b (0x40 + 4 * n) 4 % 2 ^ 13 * 64 + fieldAt b (0x40 + 4 * n) 4 / 2 ^ 13 % 2 ^ 6)) else none
      links := (List.range 36).foldl (fun m n => FMap.set {} m n
        { enab := (fieldAt b 0x18 8).testBit n, fecReq := (fieldAt b 0x20 8).testBit n, badLanes := lanes n, width4 := lanes n != 0 }) [] }
    mem := { s.mem with
      frames := frames.foldl (fun m f => FMap.set .free m f .fenced) []
      ctls := frames.foldl (fun m f => FMap.modify {} m (ctlOf f) fun (x : MemCtl) => { x with fencedFrames := x.fencedFrames + 1 }) [] }
    mgmt := { s.mgmt with pwr := { s.mgmt.pwr with cap := fieldAt b 0x14 2, board := fieldAt b 0x16 2 } } }

/-- A start fails: HOLD, and after a counted cause a retry in 10 ms (R543, R545). -/
def State.failStart (s : State) (cause : Nat) : State :=
  let s := s.enterHold cause
  { s with
    dev := { s.dev with lastFail := cause }
    mgmt := { s.mgmt with
      fw := { s.mgmt.fw with loading := false, await := 0, sec := false, sched := false, power := false, ccc := 0 }
      start := { s.mgmt.start with retry := if cause = 5 ∨ cause = 8 then some (s.clk + 10000000) else none } } }

/-- The recovery monitor runs, or the ROM's minimal recovery in its place (R453). -/
def State.recovery (s : State) : State :=
  let ok := s.mgmt.nvs.monitor
  { s with mgmt := { s.mgmt with fw := { s.mgmt.fw with monitorOk := ok, monitor := ok, romrec := !ok }
                                 nvs := { s.mgmt.nvs with exec := if ok then [0, 1] else [] } } }

/-- C2 and C3: the OTP is sensed, the life cycle decided. -/
def State.senseStep (s : State) (cold : Bool) (i : StartIn) : State :=
  let s := match s.sec.mark with
    | some m =>
      if i.badMark || !lcMay m.1 m.2.1 then (s.modSec fun x => { x with mark := none }).secEvent 0x10 none else s
    | none => s
  let s := if cold || s.sec.otpStale then s.modSec fun x => x.sense i.bad i.weak else s
  let s := s.modSec fun x => x.decide_ i.bad i.weak
  s.newNonce

/-- C6: the NVS is read (R448): the monitor, the tamper mark, the board record, fences (R403, R453, R548). -/
def State.nvsStep (s : State) (i : StartIn) : State × Nat :=
  let s := (s.nvsRead i.ecc fun p => decide (p.1 < 10)).recovery
  let s := if s.sec.tamper then
      let s := s.modSec fun x => { x with tamperSeen := true }
      { s with mgmt := s.mgmt.eraseUserArea }
    else s
  if !s.mgmt.nvs.monitor then (s, 7)
  else
    let r := s.pickBcr
    if r.2 ≠ 0 then r else (r.1.bootBoard, 0)

/-- Phase 1 from C2 on: HOLD with NOBUNDLE, or the cause of the first step that fails. -/
def State.phase1 (s : State) (cold : Bool) (i : StartIn) : State :=
  let f := i.fail.toNat
  let fails (n : Nat) : Bool := f == n && !(n == 5 && !cold)
  let bad (s : State) (n c : Nat) : State := (s.stepLog n c).failStart c
  if fails 1 then bad s 1 8
  else
    let s := (s.stepLog 1 0).senseStep cold i
    if fails 2 || !(otpCrcOk s.sec.otp 0 0x1C && otpCrcOk s.sec.otp 0x40 4) then bad s 2 4
    else if fails 3 || s.sec.lc == .blank || s.sec.lc == .scrap || s.sec.lc == .invalid then bad (s.stepLog 2 0) 3 0xE
    else
      let r := ((s.stepLog 2 0).stepLog 3 0).rootStep i
      if r.2 ≠ 0 ∨ fails 4 = true then bad r.1 4 (if r.2 ≠ 0 then r.2 else 5)
      else
        let s := r.1.stepLog 4 0
        if fails 5 then bad s 5 8
        else if fails 6 then bad s 6 8
        else
          let r := (if cold then s.stepLog 5 0 else s).nvsStep i
          if r.2 ≠ 0 then bad r.1 6 r.2
          else
            let s := r.1.stepLog 6 0
            if fails 7 then bad s 7 8
            else
              let s := (s.deriveRoot.packageKeys).stepLog 7 0
              if fails 8 then bad s 8 8
              else
                let s := (s.trainMem cold).memoryKeys.stepLog 8 0
                if fails 9 then bad s 9 8 else (s.stepLog 9 0).enterHold 1

/-! ### Start events (R537, R543) -/

/-- A start event of kind `cold`, with the clear flag. -/
def State.startEvent (s : State) (cold clear : Bool) (i : StartIn) : State :=
  if s.dev.st == .hold && s.dev.cause == 0xC && !i.cool then s
  else
    let p := s.mgmt.pins
    let k := cold || p.mainFell || s.sec.snuffed || p.straps.testBit 3 || (s.dev.st == .hold && s.dev.cause == 0xC)
    let n := s.mgmt.nvs
    let wrap := !k && decide (3 ≤ n.val 0)
    let n := if wrap then n.put 0 0 else n
    let k := k || wrap
    let n := if clear then n.put 1 0 else n
    let s := s.destroyAll
    let s := { s with mgmt := { s.mgmt with nvs := n, start := { s.mgmt.start with kind := if k then 1 else 0, retry := none } } }
    if k && decide (3 ≤ n.val 1) then s.enterHold 9
    else
      let s := (s.modNvs fun n => n.bump (if k then 1 else 0)).wiped k .start
      let s := { s with mgmt := { s.mgmt with pins := { s.mgmt.pins with
        thermtrip := false, holdLow := false, straps := if k then s.mgmt.pins.strapPins else s.mgmt.pins.straps } } }
      s.phase1 k i

/-- GLOBAL_START_REQ is written (R537, R557, R566). -/
def State.startReq (s : State) (v : Word) (i : StartIn) : State :=
  let cold := v.getLsbD 0
  if v.toNat / 65536 ≠ 0x5354 ∨ (s.sec.snuffed = true ∧ cold = false)
      ∨ (s.dev.st = .hold ∧ s.dev.cause = 0xC ∧ i.cool = false) then s.accErr 0 0x114 8 true
  else s.startEvent cold (v.getLsbD 1) i

/-- GLOBAL_START_REQ (R566). -/
def execGlobalStartReq (val : BitVec 32) (io : StartIn) (s : State) : Out :=
  .next (s.pfWrite 0x114 fun s => s.startReq val io)

/-- START_RETRY (R543). -/
def execStartRetry (io : StartIn) (s : State) : Out :=
  .next (match s.mgmt.start.retry with
    | some t => if s.dev.st == .hold && decide (t ≤ s.clk) then s.startEvent (s.mgmt.start.kind == 1) false io else s
    | none => s)

/-! ### Supplies (R550, R551, R600, R601) -/

def State.modPins (s : State) (f : PinSt → PinSt) : State := { s with mgmt := { s.mgmt with pins := f s.mgmt.pins } }

/-- The regulators go down: the device keeps its standby part with the service port's session (R463), and the OTP must be sensed
again (R542). A command that runs ends with NOMAIN. -/
def State.powerDown (s : State) (st : DevSt) : State :=
  let t := ((s.wiped false st).modSec fun x => { x with otpStale := true }).modPins fun p => { p with holdLow := false }
  ((t.modUsb fun _ => s.mgmt.usb).usbDone 5).hostDown

/-- STANDBY_GOOD (R550, R600): the straps are sampled; telemetry starts with its mask at 0x1F. -/
def execStandbyGood (straps : BitVec 4) (s : State) : Out :=
  .next (if s.dev.st != .off then s
    else
      let s := s.modPins fun p => { p with standby := true, straps := straps.toNat, strapPins := straps.toNat, thermtrip := false }
      { s with dev := { s.dev with st := .standby }, mgmt := { s.mgmt with smb := {} } })

/-- STANDBY_LOSS (R551): OFF, whatever the main input does. -/
def execStandbyLoss (s : State) : Out :=
  .next (
    let s := (s.powerDown .off).modPins fun p => { p with standby := false, thermtrip := false }
    { s with mgmt := { s.mgmt with usb := {}, smb := {}, jtag := {}, soot := {} } })

/-- MAIN_POWER_GOOD (R537, R601): a cold start, when standby is good and no regulator runs. -/
def execMainPowerGood (io : StartIn) (s : State) : Out :=
  .next (
    let t := s.modPins fun p => { p with main := true }
    if s.dev.st == .standby then t.startEvent true false io else t)

/-- MAIN_POWER_LOSS (R551): STANDBY, and the next start is cold. -/
def execMainPowerLoss (s : State) : Out :=
  .next (
    let t := s.modPins fun p => { p with main := false, mainFell := true }
    if s.powered then t.powerDown .standby else t)

/-- OVERVOLTAGE (R551): the regulators shut down; HOLD with cause FATAL is recorded in the Soot buffer for the next start. -/
def execOvervoltage (s : State) : Out :=
  .next (if !s.powered then s
    else
      let e : SootE := { time := s.beacon, seq := s.mgmt.soot.seq, point := 2, core := 0, level := 3, args := [0xB] }
      let t := (s.powerDown .standby).modPins fun p => { p with mainFell := true }
      { t with mgmt := { t.mgmt with soot := { t.mgmt.soot with buf := (t.mgmt.soot.buf ++ [e]).drop (t.mgmt.soot.buf.length - 255) } } })

/-! ### PERST_N (R608) -/

/-- PERST_N_ASSERT (R608). -/
def execPerstNAssert (s : State) : Out :=
  .next (
    let run := s.dev.st == .hold || s.dev.st == .run
    let t := if run then s.resetPf0.hostDown else s
    t.modPins fun p => { p with perst := true, perstRun := run })

/-- PERST_N_DEASSERT (R608): a warm start when the assertion began in HOLD or RUN, else only the host link's release. -/
def execPerstNDeassert (io : StartIn) (s : State) : Out :=
  .next (
    let go := s.mgmt.pins.perst && s.mgmt.pins.perstRun && s.powered
    let t := s.modPins fun p => { p with perst := false, perstRun := false }
    if go then t.startEvent false false io else t)

end Sys2Proof.Machine
end

