-- ==== Sys2Proof/Machine/Firmware.lean ====
section
/-! DEFINITION. Firmware (R433 to R439, R452, R508, R541): checking and loading a bundle, the ready reports, watchdogs, fatal errors. -/

namespace Sys2Proof.Machine


/-! ### The bundle (R435, R436) -/

/-- Field of component entry `k`. -/
def entryAt (b : List Byte) (k o n : Nat) : Nat := fieldAt b (0x20 + 64 * k + o) n
/-- Byte `o` to `o + n` of a list are zero. -/
def zeroAt (b : List Byte) (o n : Nat) : Bool := ((b.drop o).take n).all (· == 0)
/-- Components of a bundle. -/
def compCount (b : List Byte) : Nat := fieldAt b 6 1
/-- The image of component `k`, and its DIGEST. -/
def imageOf (b : List Byte) (k : Nat) : List Byte := (b.drop (entryAt b k 4 4)).take (entryAt b k 8 4)
def digestOf (b : List Byte) (k : Nat) : List Byte := (b.drop (0x30 + 64 * k)).take 48

/-- Greatest image of a component type (R436); 0: a reserved type. -/
def imageMax (t : Nat) : Nat :=
  if t = 1 then 2 ^ 20 else if t = 2 then 3 * 2 ^ 20 else if t = 3 then 768 * 1024 else if t = 4 then 192 * 1024
  else if t = 5 then 256 * 1024 else if t = 0x10 then 2 ^ 20 else 0

/-- One entry is well formed. -/
def entryOk (b : List Byte) (k : Nat) : Bool :=
  let off := entryAt b k 4 4
  let sz := entryAt b k 8 4
  zeroAt b (0x21 + 64 * k) 1 && zeroAt b (0x2C + 64 * k) 4
    && decide (off % 4096 = 0 ∧ 0x3000 ≤ off ∧ sz ≠ 0 ∧ sz % 64 = 0 ∧ sz ≤ imageMax (entryAt b k 0 1) ∧ off + sz ≤ fieldAt b 0x10 4)

/-- Check 2 of R437: `types` are the component lists accepted. -/
def formatOk (b : List Byte) (len : Nat) (types : List (List Nat)) : Bool :=
  let n := compCount b
  let l := List.range n
  decide (0x3000 ≤ b.length) && b.take 4 == ascii "SFWB" && fieldAt b 4 2 == 0x100
    && zeroAt b 0xA 6 && zeroAt b 0x14 12 && zeroAt b 0x2514 (0x3000 - 0x2514)
    && fieldAt b 0x10 4 == len && decide (len ≤ 2 ^ 24)
    && decide (n ≤ 32) && zeroAt b (0x20 + 64 * n) (64 * (32 - n))
    && types.contains (l.map fun k => entryAt b k 0 1) && l.all (entryOk b)
    && !anyOverlap (l.map fun k => (entryAt b k 4 4, entryAt b k 8 4, 0))

/-- The types of a bundle and of a monitor image (R437, R452). -/
def bundleTypes : List (List Nat) := [[1, 2, 3, 4], [1, 2, 3, 4, 5]]
def monitorTypes : List (List Nat) := [[0x10]]

/-- Check 3: the keys are those of KEYCLASS; the factory class is for TEST, MFG and RMA. -/
def State.keyOk (s : State) (b : List Byte) : Bool :=
  let c := fieldAt b 7 1
  (c == 1 || (c == 2 && s.sec.lc.factory)) && sha384 ((b.drop 0x820).take 2689) == Config.romDigest (0x200 + c)

/-- Check 4: both signatures verify over 0x0000 to 0x12A0. -/
def sigsOk (b : List Byte) : Bool :=
  let msg := b.take 0x12A1
  Config.ecdsaOk ((b.drop 0x820).take 97) msg ((b.drop 0x12A1).take 96)
    && Config.mldsaOk ((b.drop 0x881).take 2592) msg ((b.drop 0x1301).take 4627)

/-- The first component that check 5 refuses. -/
def State.oldComp (s : State) (b : List Byte) : Option Nat :=
  (List.range (compCount b)).find? fun k => decide (entryAt b k 2 2 < s.sec.svn ∨ entryAt b k 2 2 < fieldAt b 8 2)

/-- Steps 1 to 3 of R438 with the checks of R437 in order: status and component index; 0 when the bundle is accepted. `b` is what
could be read of the `len` bytes supplied. -/
def State.bundleStop (s : State) (b : List Byte) (len : Nat) (types : List (List Nat)) : Nat × Nat :=
  let x := s.sec.lc
  if s.mgmt.fw.await ≠ 0 then (8, 0)
  else if b.length < min len 0x3000 then (6, 0)
  else if x == .blank || x == .scrap || x == .invalid || s.sec.snuffed || s.mgmt.fw.loaded then (7, 0)
  else if !formatOk b len types then (1, 0)
  else if !s.keyOk b then (2, 0)
  else if !sigsOk b then (3, 0)
  else if fieldAt b 8 2 < s.sec.svn then (4, 0)
  else match s.oldComp b with
    | some k => (4, k)
    | none => match (List.range (compCount b)).find? fun k => (imageOf b k).length != entryAt b k 8 4 || sha384 (imageOf b k) != digestOf b k with
      | some k => (if (imageOf b k).length ≠ entryAt b k 8 4 then 6 else 5, k)
      | none => (0, 0)

/-! ### Loading (R438, R439) -/

/-- The result of a load, and its Soot entry (R460). -/
def State.loadDone (s : State) (st comp src : Nat) : State :=
  (s.modFw fun f => { f with status := st, comp := comp, loading := false }).sootLog 0 (if st = 0 then 1 else 3) 3 [st, comp, src]

/-- The device waits for a bundle: HOLD with cause NOBUNDLE (R544, R453). -/
def State.waitsBundle (s : State) : Bool := s.dev.st == .hold && s.dev.cause == 1 && s.mgmt.fw.monitorOk

/-- A load of a bundle of `len` bytes from source 1 (PCI Express) or 2 (USB), of which `b` could be read. On success the power core
is released. -/
def State.loadBundle (s : State) (b : List Byte) (len src : Nat) : State × Nat :=
  let r := s.bundleStop b len bundleTypes
  let r := if (r.1 ≠ 8 ∧ r.1 ≠ 6) ∧ s.waitsBundle = false then (7, 0) else r
  if r.1 = 8 then ((s.modFw fun f => { f with status := 8, comp := 0 }).sootLog 0 3 3 [8, 0, src], 8)
  else if r.1 ≠ 0 then (s.loadDone r.1 r.2 src, r.1)
  else
    (s.modFw fun f => { f with
      loading := true, source := src, comp := 0, await := 1, since := s.clk, power := true, newBsvn := fieldAt b 8 2
      comps := (List.range (compCount b)).map fun k => { type := entryAt b k 0 1, svn := entryAt b k 2 2, digest := digestOf b k } }, 0)

/-- BUNDLE_LOAD (R438): FW_LOAD_CTRL.GO. -/
def execBundleLoad (data : Option (List (BitVec 8))) (s : State) : Out :=
  .next (s.pfWrite 0x300014 fun s => (s.loadBundle (data.getD []) s.mgmt.fw.len 1).1)

/-- The Lanterns in service, one bit each. -/
def State.lantOk (s : State) : BitVec 64 :=
  (List.range 64).foldl (fun v l => if (s.lantern l).whole || (s.lantern l).dog then v else v ||| (1#64 <<< l)) 0

/-- The record's Beacon mode and epoch are loaded (R541, R546). -/
def State.boardBeacon (s : State) : State :=
  (s.setEpoch (BitVec.ofNat 64 (fieldAt s.bcr 0x28 8))).setBcnMode (fieldAt s.bcr 0x12 2 % 4)

/-- Every core is ready: the start has succeeded, the device runs, its links come up (R438, R541, R543). -/
def State.enterRun (s : State) : State :=
  let s := (s.modFw fun f => { f with loaded := true, await := 0, bsvn := f.newBsvn }).loadDone 0 0 s.mgmt.fw.source
  let s := s.modNvs fun n => ((n.put 0 0).put 1 0).bump 2
  let s := { s with dev := { s.dev with st := .run, cause := 0, lastFail := 0 }
                    mgmt := { s.mgmt with pins := { s.mgmt.pins with
                      holdLow := false, mainFell := s.mgmt.pins.mainFell && s.mgmt.start.kind != 1 } } }
  let s := if s.mgmt.fw.source = 2 then s.usbDone 0 else s
  let s := s.boardBeacon
  (List.range 36).foldl (fun t n => t.startLink n (t.mgmt.start.kind == 0)) s

/-- The core group after `g` is released (R438). -/
def State.releaseNext (s : State) (g : Nat) : State :=
  if g = 1 then s.modFw fun f => { f with await := 2, since := s.clk, sched := true }
  else if g = 2 then s.modFw fun f => { f with await := 3, since := s.clk, ccc := s.lantOk, cccReady := 0 }
  else if g = 3 then s.modFw fun f => { f with await := 4, since := s.clk, sec := true }
  else s.enterRun

/-- A ready report from the core with this Soot source number (R459): 2 power, 1 scheduler, 0x100 + L cluster control, 0 security. -/
def State.ready (s : State) (core : Nat) : State :=
  let f := s.mgmt.fw
  if (f.await = 1 ∧ core = 2) ∨ (f.await = 2 ∧ core = 1) ∨ (f.await = 4 ∧ core = 0) then s.releaseNext f.await
  else if f.await = 3 ∧ 0x100 ≤ core ∧ core < 0x140 then
    let r := (f.cccReady ||| (1#64 <<< (core - 0x100))) &&& f.ccc
    let s := s.modFw fun f => { f with cccReady := r }
    if r = f.ccc then s.releaseNext 3 else s
  else s

/-- CORE_READY (R438). -/
def execCoreReady (core : BitVec 16) (s : State) : Out := .next (s.ready core.toNat)

/-- CORE_READY_TIMEOUT (R438, R545): 100 ms without the report, a counted failure. -/
def execCoreReadyTimeout (s : State) : Out :=
  .next (
    let f := s.mgmt.fw
    if f.await ≠ 0 ∧ f.since + 100000000 ≤ s.clk then
      ((if f.source = 2 then (s.loadDone 9 0 2).usbDone 8 (leBytes 1 9) else s.loadDone 9 0 f.source)).failStart 8 else s)

/-! ### Stopping (R434, R508) -/

/-- FATAL_ERROR (R508, R545). -/
def execFatalError (s : State) : Out := .next (s.fatal 0xB)

/-- WATCHDOG_EXPIRE (R434): the core by its Soot source number. -/
def execWatchdogExpire (core : BitVec 16) (s : State) : Out :=
  .next (
    let c := core.toNat
    if s.dev.st != .run then s
    else if 0x100 ≤ c ∧ c < 0x140 then
      let l := c - 0x100
      let s := (s.sootLog 0x200 3 0xB [c]).abortList l 0
      let s := s.modLantern l fun x => { x with dog := true }
      (s.modFw fun f => { f with ccc := f.ccc &&& ~~~(1#64 <<< l) }).sootLog 1 2 8 [1, l]
    else if c < 3 then (s.sootLog 0x200 3 0xB [c]).fatal 0xA
    else s)

end Sys2Proof.Machine
end

