-- ==== Sys2Proof/Machine/MemRows.lean ====
section
/-! DEFINITION. The memory controllers' own events as commands: closing a seal entry (R232) and re-keying a page (R237 to
R240). -/

namespace Sys2Proof.Machine

/-! ### Re-keying (R237 to R240) -/

/-- The re-key of page `p` of domain `d` into G_d begins (R238): its seal entry closes, its new C is H + 1 (R237), its tag block comes in. -/
def MemCtl.beginRekey (x : MemCtl) (c d p : Nat) (sweep : Bool) : MemCtl :=
  let y := x.closeSeal c p
  let g := FMap.get {} y.gens d
  { y with
    rk := some { page := p, dom := d, next := 0, cNew := g.h + 1, sweep := sweep }
    gens := FMap.set {} y.gens d { g with h := g.h + 1 }, tagb := y.tagb + tagBlock c }

/-- A page of domain `d` still in G_d − 1: the lowest (R239). -/
def MemCtl.oldPage? (x : MemCtl) (d : Nat) (owned : Nat → Bool) : Option Nat :=
  (List.find? (fun (q : Nat × Nat) => owned q.1 && !x.inCur d q.1) x.c).map Prod.fst

/-- The generation of `d` advances (R239 steps 2 and 3): the slot of G_d − 1 is erased and takes the key of G_d, a fresh key is that of
G_d + 1, whose H starts at 0. -/
def MemCtl.advanceGen (x : MemCtl) (d : Nat) (k : Option Masked) : MemCtl :=
  let g := FMap.get {} x.gens d
  { x with gens := FMap.set {} x.gens d { g := g.g + 1, h := 0, hOld := g.h, key := k, keyOld := g.key } }

/-- The page at the head of the queue begins its re-key. One in G_d first has the generation advanced, and before that every page still in
G_d − 1 re-keyed, in ascending order (R238 step 2, R239). A page whose frame has no owner leaves the queue. -/
def State.startRekey (s : State) (c : Nat) : State :=
  match (s.ctl c).rkq with
  | [] => s
  | p :: rest =>
    match s.pageOwner c p with
    | none => (s.modCtl c fun x => { x with rkq := rest }).refillRkq c
    | some d =>
      if !(s.ctl c).inCur d p then s.modCtl c fun x => x.beginRekey c d p false
      else match (s.ctl c).oldPage? d fun q => s.pageOwner c q == some d with
        | some q => s.modCtl c fun x => x.beginRekey c d q true
        | none => (s.modCtl c fun x => (x.advanceGen d (s.newKey memKeyLen)).beginRekey c d p false).drewKey memKeyLen

/-- The re-key of a page ends (R238 step 4): C and parity are those of the target generation, the tag block goes out, and the writes that
waited are made in their order. A sweep goes on with the next page. -/
def State.endRekey (s : State) (c : Nat) (r : Rekeying) : State :=
  let s := s.modCtl c fun x => { x with
    c := FMap.set 0 x.c r.page r.cNew
    parity := FMap.set false x.parity r.page ((FMap.get {} x.gens r.dom).g % 2 == 1)
    rk := none, rkq := x.rkq.filter (· != r.page), rekeys := x.rekeys + 1, tagb := x.tagb + tagBlock c }
  let held := s.mem.heldW
  let s := { s with mem := { s.mem with waiting := s.mem.waiting.filter (· != c * 2 ^ 32 + r.page), heldW := [] } }
  let s := (held.foldl (fun t w => t.wrDpa w.1 w.2.1 w.2.2) s).refillRkq c
  if r.sweep then s.startRekey c else s

/-- Line `l` of a page that is being re-keyed is read under the old key (R238 step 3): one of `bad`, or one whose bits have suffered, fails
its check or is corrected (R242). -/
def State.rekeyLine (s : State) (c : Nat) (r : Rekeying) (bad : List (BitVec 10)) (l : Nat) : State :=
  let a := dpaOfPage c r.page + 256 * l
  if bad.contains (BitVec.ofNat 10 l) then s.lineEvent r.dom a .failed
  else match FMap.get 0 s.mem.noise (a / 256) with
    | 0 => s
    | 1 => s.mendLine (a / 256)
    | _ => ({ s with mem := { s.mem with noise := FMap.set 0 s.mem.noise (a / 256) 0 } } : State).lineEvent r.dom a .failed

/-- The next `n` lines of the page are rewritten under the target key with E := its new C, markers as markers (R238 step 3). -/
def State.rekeyLines (s : State) (c n : Nat) (bad : List (BitVec 10)) : State :=
  match (s.ctl c).rk with
  | none => s
  | some r =>
    let hi := min (r.next + n) (pageLines c)
    let s := s.modCtl c fun x => { (x.restamp r.page r.next hi (some r.cNew)) with rk := some { r with next := hi } }
    let s := (List.range (hi - r.next)).foldl (fun t i => t.rekeyLine c r bad (r.next + i)) s
    if hi = pageLines c ∧ (s.ctl c).rk.isSome = true then s.endRekey c r else s

/-- Re-key: `n` more lines of the page in progress, or of the page at the head of the queue; the lines of `bad` fail their check. -/
def State.rekeyStep (s : State) (c n : Nat) (bad : List (BitVec 10)) : State :=
  (if (s.ctl c).rk.isNone then s.startRekey c else s).rekeyLines c n bad

/-! ### Commands -/

/-- SEAL_CLOSE (R232): the entry of a page idle for 512 cycles closes. -/
def execSealClose (c : BitVec 5) (page : BitVec 20) (s : State) : Out :=
  .next (match (s.ctl c.toNat).seals.find? fun e => e.page == page.toNat with
    | some e => if e.last + sealIdle c.toNat ≤ s.clk then s.modCtl c.toNat fun x => x.closeSeal c.toNat page.toNat else s
    | none => s)

/-- REKEY_PAGE (R238): some lines, in the background (log 62). -/
def execRekeyPage (c : BitVec 5) (x : RekeyIn) (s : State) : Out :=
  .next (if s.dev.st = .run then s.rekeyStep c.toNat x.n.toNat x.bad else s)

end Sys2Proof.Machine
end

