-- ==== Sys2Proof/Machine/Port.lean ====
section
/-! DEFINITION. JTAG (R467, R468) and telemetry (R469 to R471). -/

namespace Sys2Proof.Machine

/-! ### JTAG -/

def State.modJtag (s : State) (f : JtagSt → JtagSt) : State := { s with mgmt := { s.mgmt with jtag := f s.mgmt.jtag } }

/-- The TAP's IDCODE (R467): stepping 0, part 0x9636, the JEP106 code (log 37), 1. -/
def idcode : Nat := 0x9636 * 2 ^ 12 + (Config.assigned 1).toNat % 2048 * 2 + 1

/-- The instruction is open in this life-cycle and device state (R388, R467). -/
def State.tapOpen (s : State) (ir : Nat) : Bool :=
  let lc := s.sec.lc
  if ir = 1 ∨ ir = 0xFF then true
  else if ir = 0 then lc.factory && s.dev.st == .hold
  else if ir = 0x20 then lc.factory
  else if ir = 2 ∨ ir = 0x10 ∨ ir = 0x11 then lc.factory || lc == .blank
  else false

/-- Select an instruction (R467, R468): one that is not open selects BYPASS, and raises JTAGDENY once the start has decided the
life-cycle state. IDCODE captures its value. -/
def State.tapSelect (s : State) (ir : Nat) : State :=
  if s.dev.st = .off then s
  else
    let known := s.secRuns && s.sec.lcKnown
    let may := ir = 1 || ir = 0xFF || (known && s.tapOpen ir)
    let s := s.modJtag fun j => { j with ir := if may then ir else 0xFF, dr := if ir = 1 then [idcode] else [] }
    if known && !may then s.secEvent 0xE none else s

/-- IDCODE (R467). -/
def execJtagIdcode (s : State) : Out := .next (s.tapSelect 1)
/-- BYPASS (R467). -/
def execJtagBypass (s : State) : Out := .next (s.tapSelect 0xFF)
/-- SAMPLE/PRELOAD (R467). -/
def execJtagSamplePreload (s : State) : Out := .next (s.tapSelect 2)
/-- EXTEST (R467). -/
def execJtagExtest (s : State) : Out := .next (s.tapSelect 0)
/-- DTMCS (R467). -/
def execJtagDtmcs (s : State) : Out := .next (s.tapSelect 0x10)
/-- DMI (R467). -/
def execJtagDmi (s : State) : Out := .next (s.tapSelect 0x11)
/-- TESTMODE (R467). -/
def execJtagTestmode (s : State) : Out := .next (s.tapSelect 0x20)

/-! ### Telemetry -/

def State.modSmb (s : State) (f : SmbSt → SmbSt) : State := { s with mgmt := { s.mgmt with smb := f s.mgmt.smb } }

/-- A 16-bit quantity measured at the refresh, the `i`th one. -/
def State.meas (s : State) (i : Nat) : List Byte := leBytes 2 ((Config.measured (s.free + i)).toNat % 65536)

/-- The code of the device state in STATE (R470). -/
def State.stCode (s : State) : Nat :=
  match s.dev.st with
  | .off | .standby => 0
  | .start => 1
  | .run => 2
  | .hold => 3

/-- Lanterns not fenced whole, and Wicks in service on them (R106, R111). -/
def State.lantsOk (s : State) : Nat := ((List.range 64).filter fun l => !((s.lantern l).whole || (s.lantern l).dog)).length
def State.wicksOk (s : State) : Nat :=
  sumBy (fun l => let x := s.lantern l; if x.whole || x.dog then 0 else 8 - x.nFenced) (List.range 64)

/-- The cap in force (R553, R556). -/
def PwrSt.capNow (p : PwrSt) : Nat := min p.cap p.board - 200 * p.regOver

/-- The registers of R470 in the order of their codes: whether the hardware alone refreshes it, and its bytes. -/
def State.teleRegs (s : State) : List (Bool × List Byte) :=
  [(false, leBytes 4 s.moduleWord ++ leBytes 2 0x100 ++ leBytes 2 0),
   (true, leBytes 4 (s.stCode + 4 * s.sec.lc.num + (if s.sec.tamperSeen then 64 else 0) + (if s.sec.snuffed then 128 else 0)
      + (if s.mgmt.fw.loaded then 256 else 0))),
   (true, s.meas 0), (true, s.meas 1), (true, leBytes 2 s.mgmt.pwr.pin), (false, leBytes 2 s.mgmt.pwr.capNow), (true, s.meas 2),
   (true, ((List.range 6).map fun i => s.meas (3 + i)).flatten), (false, ((List.range 12).map fun i => s.meas (9 + i)).flatten),
   (false, s.meas 21), (false, s.meas 22 ++ s.meas 23),
   (false, leBytes 8 (s.mgmt.pwr.energy / 1000)), (false, leBytes 2 s.mgmt.gut.score),
   (false, leBytes 1 s.sec.last ++ leBytes 1 s.sec.level),
   (false, leBytes 8 ((List.range 36).foldl (fun n i => if (s.link i).st = .up then n + 2 ^ i else n) 0)),
   (false, leBytes 2 s.wicksOk ++ leBytes 2 s.lantsOk), (false, leBytes 8 s.beacon)]

/-- TELEMETRY_REFRESH (R470): every 1 ms by the power core, every 10 ms by the hardware. -/
def execTelemetryRefresh (s : State) : Out :=
  .next (if s.dev.st = .off then s
    else
      let l := s.teleRegs.map fun p => (if p.1 || s.mgmt.fw.power then p.2 else List.replicate p.2.length 0xFF)
      (s.modSmb fun x => { x with regs := List.zip (List.range 17) l }).drew 24)

/-- BLOCK_READ (R470): the register of a command code, or no bytes. -/
def execBlockRead (code : BitVec 8) (s : State) : Out :=
  .next (if s.dev.st = .off then s
    else s.modSmb fun x =>
      let b := if code = 0x40 then leBytes 1 x.mask.toNat else if code = 0x41 then leBytes 1 x.status.toNat
        else (FMap.find? x.regs code.toNat).getD []
      { x with reply := b })

/-- SMB_ALERT_N follows a change of mask or status: a bit that becomes both set and unmasked drives it low, none left releases it. -/
def SmbSt.settle (x old : SmbSt) : SmbSt :=
  let now := x.mask &&& x.status
  { x with alert := now != 0 && (x.alert || (now &&& ~~~(old.mask &&& old.status)) != 0) }

/-- ALERT_MASK (R470): bits [4:0]. -/
def execAlertMask (val : BitVec 8) (s : State) : Out :=
  .next (if s.dev.st = .off then s else s.modSmb fun x => { x with mask := val &&& 0x1F }.settle x)

/-- Power is limited (R554). -/
def PwrSt.limited (p : PwrSt) : Bool := p.capped || p.brake

/-- ALERT_STATUS (R470, R554): 1 clears; bit 4 stays while power is limited. -/
def execAlertStatus (val : BitVec 8) (s : State) : Out :=
  .next (if s.dev.st = .off then s
    else s.modSmb fun x => { x with status := (x.status &&& ~~~val) ||| (if s.mgmt.pwr.limited then x.status &&& 0x10 else 0) }.settle x)

/-- The static address (R469). -/
def State.smbAddr (s : State) : Nat := 0x50 + s.mgmt.pins.straps % 4

/-- ALERT_RESPONSE (R471): the port answers with its address and releases SMB_ALERT_N. -/
def execAlertResponse (s : State) : Out :=
  .next (if s.dev.st = .off ∨ s.mgmt.smb.alert = false then s
    else s.modSmb fun x => { x with alert := false, reply := leBytes 1 (2 * s.smbAddr) })

/-- I3C_ADDRESS_ASSIGN (R469). -/
def execI3cAddressAssign (addr : BitVec 7) (s : State) : Out :=
  .next (if s.dev.st = .off then s else s.modSmb fun x => { x with dyn := some addr.toNat })

end Sys2Proof.Machine
end

