-- ==== Sys2Proof/Machine/Power.lean ====
section
/-! DEFINITION. Power, ageing, calibration (R551 to R567) and the Gutter score (R509 to R512). -/

namespace Sys2Proof.Machine

/-! ### Limiting (R553 to R556) -/

/-- The power core runs. -/
def State.pwrRuns (s : State) : Bool := s.dev.st == .run && s.mgmt.fw.power

/-- Highest planned frequency among the Lanterns that run a context. -/
def State.topMhz (s : State) : Nat :=
  (List.range 64).foldl (fun m l => if (s.lantern l).owner.isSome then max m (FMap.get {} s.mgmt.pwr.plans l).mhz else m) 1200

/-- The frequency in effect on a Lantern: its plan under the cap loop's ceiling, its tile's, and the brake (R111, R554 to R556). -/
def PwrSt.mhzOf (p : PwrSt) (l : Nat) : Nat :=
  let f := min (FMap.get {} p.plans l).mhz (min p.clkCap (FMap.get (2100, 16) p.tiles (l / 16)).1)
  if p.brake then min f 1200 else f

/-- Lanterns take the frequencies of the plan and of limiting (R561: at once, every command lying between bundles). -/
def State.applyClocks (s : State) : State :=
  (List.range 64).foldl (fun t l =>
    if (t.lantern l).mhz = s.mgmt.pwr.mhzOf l then t else t.modLantern l fun x => { x with mhz := s.mgmt.pwr.mhzOf l }) s

/-- Change the power state: the time under limits is counted, ALERT_STATUS bit 4 follows (R554, R567). -/
def State.setPwr (s : State) (f : PwrSt → PwrSt) : State :=
  let x := s.mgmt.pwr
  let y := f x
  let y := { y with capped := decide (y.clkCap < 2100 ∨ y.duty < 16 ∨ y.rate < 16), brake := y.brakeI || s.mgmt.pins.pwrbrk }
  let y := { y with brakes := y.brakes + (if y.brake && !x.brake then 1 else 0) }
  let y := if y.limited && !x.limited then { y with capAt := some s.beacon }
    else if !y.limited && x.limited then { y with capNs := y.capNs + (s.beacon - x.capAt.getD s.beacon), capAt := none } else y
  let t := (s.modPwr fun _ => y).applyClocks
  if y.limited && !x.limited then t.setAlert 4 else t

/-- One step toward less power (R555): WCLK, then issue duty, then the HBM command rate. -/
def PwrSt.lower (top : Nat) (p : PwrSt) : PwrSt :=
  if 1200 < min p.clkCap top then { p with clkCap := max 1200 (min p.clkCap top - 25) }
  else if 4 < p.duty then { p with duty := p.duty - 1 }
  else if 8 < p.rate then { p with rate := p.rate - 1 } else p

/-- One step back, in the reverse order. -/
def PwrSt.lift (top : Nat) (p : PwrSt) : PwrSt :=
  if p.rate < 16 then { p with rate := p.rate + 1 }
  else if p.duty < 16 then { p with duty := p.duty + 1 }
  else if top ≤ p.clkCap + 25 then { p with clkCap := 2100 } else { p with clkCap := p.clkCap + 25 }

/-- Repeat a step. -/
def stepsOf (f : PwrSt → PwrSt) : Nat → PwrSt → PwrSt
  | 0, p => p
  | n + 1, p => stepsOf f n (f p)

/-- POWER_REGULATE (R553, R555): a 1 ms window averaged `watts`; above the cap the power core takes at least one of `steps`, below it
gives `steps` back. -/
def execPowerRegulate (watts : BitVec 16) (steps : BitVec 8) (s : State) : Out :=
  .next (if !s.powered then s
    else
      let w := watts.toNat
      let s := s.modPwr fun p => { p with pin := w, peak := max p.peak w, energy := p.energy + w }
      if !s.pwrRuns then s
      else
        let top := s.topMhz
        s.setPwr fun p => if p.capNow < w then stepsOf (PwrSt.lower top) (max 1 steps.toNat) p
          else if p.capped then stepsOf (PwrSt.lift top) steps.toNat p else p)

/-- BRAKE (R554): above 80 A for 10 µs. -/
def execPowerBrake (s : State) : Out := .next (if s.powered then s.setPwr fun p => { p with brakeI := true } else s)

/-- BRAKE_RELEASE (R554): below 70 A for 1 ms. -/
def execBrakeRelease (s : State) : Out := .next (if s.powered then s.setPwr fun p => { p with brakeI := false } else s)

/-- PWRBRK_N (R554). -/
def execPwrbrkN (low : Bool) (s : State) : Out :=
  .next (
    let t := s.modPins fun p => { p with pwrbrk := low }
    if s.powered then t.setPwr id else t)

/-- A write of PWR_CAP (R553). -/
def State.pwrCap (s : State) (v : Word) : State :=
  let w := v.toNat % 4096
  if w < 1000 ∨ 2800 < w then s.modPwr fun p => { p with capRefused := true } else s.modPwr fun p => { p with cap := w }

/-- PWR_CAP_WRITE (R553). -/
def execPwrCapWrite (val : BitVec 32) (s : State) : Out := .next (s.pfWrite 0x500004 fun s => s.pwrCap val)

/-- A throttle limit is passed or, 3 °C below it, left (R556): groups 0 to 3 CT, 4 and 5 IO, 6 to 17 HBM stacks, 18 LPDDR, 19 the
regulators. `arg`: for a tile the steps of R555 taken, for the regulators the degrees above the limit. -/
def State.throttleSet (s : State) (g : Nat) (on : Bool) (arg : Nat) : State :=
  let sec := s.beacon / 1000000000
  let s := s.setPwr fun p =>
    let p := { p with throttled := if on then (if p.throttled.contains g then p.throttled else p.throttled ++ [g]) else p.throttled.filter (· != g) }
    if g < 4 then
      let q : PwrSt := stepsOf (fun p => if 4 < p.duty ∨ 1200 < p.clkCap then PwrSt.lower 2100 p else p) arg { clkCap := 2100 }
      { p with tiles := FMap.set (2100, 16) p.tiles g (if on then (q.clkCap, q.duty) else (2100, 16)) }
    else if g = 19 then { p with regOver := if on then arg else 0 } else p
  if on then
    ({ s with mgmt := { s.mgmt with gut := { s.mgmt.gut with
      hot := if g = 19 ∨ s.mgmt.gut.hot.contains sec then s.mgmt.gut.hot else s.mgmt.gut.hot ++ [sec] } } } : State).setAlert 0
  else s

/-- THROTTLE (R556). -/
def execThrottle (group : BitVec 5) (on : Bool) (arg : BitVec 8) (s : State) : Out :=
  .next (if s.powered && decide (group.toNat < 20) then s.throttleSet group.toNat on arg.toNat else s)

/-- THERMAL_TRIP (R557, R609): HOLD THERMAL, THERMTRIP_N low, the rails removed. -/
def execThermalTrip (s : State) : Out :=
  .next (if s.powered then (s.modPins fun p => { p with thermtrip := true }).fatal 0xC else s)

/-! ### Plans (R558 to R562) -/

/-- A Lantern's margin: the least of its own monitor (first) and those of its Wicks in service. -/
def Lantern.margin (x : Lantern) (m : List Byte) : Nat :=
  (List.range 8).foldl (fun v p => if x.ok p then min v ((m.getD (p + 1) 255).toNat) else v) (m.getD 0 255).toNat

/-- The Lantern is in service. -/
def Lantern.inService (x : Lantern) : Bool := !(x.whole || x.dog)

/-- Planned voltage (R559). -/
def planMv (l f dv : Nat) : Nat := Config.trimMv l f + 5 * dv

def State.plan (s : State) (l : Nat) : Plan := FMap.get {} s.mgmt.pwr.plans l
def State.setPlan (s : State) (l : Nat) (x : Plan) : State := s.modPwr fun p => { p with plans := FMap.set {} p.plans l x }

/-- Between plans (R560): a margin below FLOOR lowers the Lantern, or fences the Wick or Lantern that cannot hold it. -/
def State.belowFloor (s : State) (l : Nat) (m : List Byte) : State :=
  let q := s.plan l
  if 1200 < q.mhz then s.setPlan l { q with mhz := q.mhz - 25 }
  else if q.dv < 10 then s
  else
    let fl := s.mgmt.pwr.floor
    let x := s.lantern l
    let low := (List.range 8).filter fun p => x.ok p && decide ((m.getD (p + 1) 255).toNat < fl)
    match low with
    | [p] => if fl ≤ (m.getD 0 255).toNat then s.fenceWick l p else s.fenceLantern l
    | _ => s.fenceLantern l

/-- One Lantern's monitors are read (R558). -/
def State.sampleLantern (s : State) (l : Nat) (m : List Byte) : State :=
  if !(s.lantern l).inService || m.isEmpty then s
  else
    let g := (s.lantern l).margin m
    let q := s.plan l
    let s := s.setPlan l { q with margin := g, min := if q.seen then min q.min g else g, seen := true }
    if g < s.mgmt.pwr.floor then s.belowFloor l m else s

/-- MARGIN_SAMPLE (R558, R560): the monitors of each physical Lantern, its own first; none listed: not read. -/
def execMarginSample (ms : List (List (BitVec 8))) (s : State) : Out :=
  .next (if s.pwrRuns then ((List.range 64).foldl (fun t l => t.sampleLantern l (ms.getD l [])) s).applyClocks else s)

/-- The plan of R559: `ms` are the margins of the passes in order; frequency, dv and the last margin. -/
def planLoop (target fmax : Nat) : Nat → List Byte → Nat → Nat → Nat → Nat × Nat × Nat
  | 0, _, f, dv, m => (f, dv, m)
  | _, [], f, dv, m => (f, dv, m)
  | n + 1, b :: bs, f, dv, _ =>
    let m := b.toNat
    if m < target then
      if dv < 10 then planLoop target fmax n bs f (dv + 1) m
      else if 1200 < f then planLoop target fmax n bs (f - 25) dv m else (f, dv, m)
    else if target + 20 ≤ m then
      if 0 < dv then planLoop target fmax n bs f (dv - 1) m
      else if f < fmax then planLoop target fmax n bs (f + 25) dv m else (f, dv, m)
    else (f, dv, m)

/-- A Lantern is planned and recorded (R559, R562): TREND scaled to dv 0 is the power core's estimate (log 32). -/
def State.planLantern (s : State) (l : Nat) (ms : List Byte) : State :=
  if !(s.lantern l).inService then s
  else
    let q := s.plan l
    let r := planLoop s.mgmt.pwr.target (min 2100 (Config.trimMax l)) 64 ms q.mhz q.dv q.margin
    let tr := (Config.measured s.free).toNat % 65536
    let x : Plan := { q with mhz := r.1, dv := r.2.1, margin := r.2.2, min := r.2.2, trend := tr }
    let log := s.mgmt.pwr.ageLog
    let log := if 8192 ≤ log.length then log.drop 128 else log
    ((s.setPlan l x).modPwr fun p => { p with
      ageLog := log ++ [[s.beacon, s.mgmt.nvs.val 2, l, r.2.1, r.1, r.2.2, q.min, tr]] }).drew 1

/-- Every Lantern is planned. -/
def State.planAll (s : State) (ms : List (List Byte)) : State :=
  (((List.range 64).foldl (fun t l => t.planLantern l (ms.getD l [])) s).modPwr fun p =>
    { p with ageTime := s.beacon, planning := false, planned := true }).applyClocks

/-- AGEING_PLAN (R559): at the first entry to RUN, every 86,400 s, or as REPLAN asked; `ms` are the margins of each Lantern's passes. -/
def execAgeingPlan (ms : List (List (BitVec 8))) (s : State) : Out :=
  .next (
    let p := s.mgmt.pwr
    let due := !p.planned || decide (p.planAt + 86400000000000 ≤ s.beacon)
    if s.pwrRuns && (due || p.planning) then
      -- every 86,400 s from the start
      (if due then s.modPwr fun p => { p with planAt := p.planAt + (s.beacon - p.planAt) / 86400000000000 * 86400000000000 } else s).planAll ms
    else s)

/-- A write of PWR_AGE_CTRL (R560): refused whole, or TARGET, FLOOR and REPLAN. -/
def State.ageCtrl (s : State) (v : Word) : State :=
  let t := v.toNat / 2 ^ 8 % 256
  let f := v.toNat / 2 ^ 16 % 256
  if t < 20 ∨ 100 < t ∨ f < 10 ∨ t < f + 5 then s.modPwr fun p => { p with ageRefused := true }
  else s.modPwr fun p => { p with target := t, floor := f, planning := p.planning || v.getLsbD 0 }

/-- REPLAN (R559): the write, and the plan it asks for. -/
def execReplan (val : BitVec 32) (ms : List (List (BitVec 8))) (s : State) : Out :=
  .next (s.pfWrite 0x500100 fun s =>
    let t := s.ageCtrl val
    if t.mgmt.pwr.planning && t.pwrRuns then t.planAll ms else t)

/-! ### Calibration (R563 to R565) -/

/-- LINK_MARGIN_LOW (R563): the eye margin of a link is read. -/
def execLinkMarginLow (n : BitVec 6) (eye : BitVec 8) (s : State) : Out :=
  .next (
    let i := n.toNat
    let e := eye.toNat
    let p := s.mgmt.pwr
    if !(s.pwrRuns && decide (i < 36)) then s
    else
      let s := s.modPwr fun p => { p with eyes := FMap.set 0 p.eyes i e }
      if p.linkThr ≤ e ∨ (FMap.find? p.wanted (i * 256)).isSome = true ∨ (s.link i).quietAt.isSome = true then
        (if p.linkUrg ≤ e then s.modPwr fun p => { p with lowWins := FMap.set 0 p.lowWins i 0 } else s)
      else if p.linkUrg ≤ e then (s.modPwr fun p => { p with lowWins := FMap.set 0 p.lowWins i 0 }).wantQuiet i 0 false
      else if 4 ≤ FMap.get 0 p.lowWins i then (s.modPwr fun p => { p with lowWins := FMap.set 0 p.lowWins i 0 }).fullRetrain i
      else (s.modPwr fun p => { p with lowWins := FMap.modify 0 p.lowWins i (· + 1) }).wantQuiet i 0 true)

/-- HBM_DRIFT (R564): the strobe drift of a channel is measured. -/
def execHbmDrift (c : BitVec 4) (ch : BitVec 5) (drift : BitVec 8) (s : State) : Out :=
  .next (
    let d := drift.toInt.natAbs
    if !(s.pwrRuns && decide (c.toNat < 12)) then s
    else
      let s := s.modPwr fun p => { p with drift := FMap.set 0 p.drift (c.toNat * 256 + ch.toNat) drift.toNat }
      if s.mgmt.pwr.hbmThr < d then s.wantQuiet (0x40 + c.toNat) ch.toNat (decide (s.mgmt.pwr.hbmUrg < d)) else s)

/-- LPDDR_PERIODIC_CAL (R564): a non-urgent window on a Reservoir channel. -/
def execLpddrPeriodicCal (c : BitVec 4) (ch : BitVec 2) (s : State) : Out :=
  .next (if s.pwrRuns then s.wantQuiet (0x40 + 12 + c.toNat) ch.toNat false else s)

/-- A write of PWR_CAL_CTRL (R564). -/
def State.calCtrl (s : State) (v : Word) : State :=
  let f := fun i => v.toNat / 2 ^ (8 * i) % 256
  if f 1 < f 0 ∧ f 2 < f 3 then s.modPwr fun p => { p with linkThr := f 0, linkUrg := f 1, hbmThr := f 2, hbmUrg := f 3 }
  else s.modPwr fun p => { p with calRefused := true }

/-- PWR_CAL_CTRL_WRITE (R564). -/
def execPwrCalCtrlWrite (val : BitVec 32) (s : State) : Out := .next (s.pfWrite 0x500200 fun s => s.calCtrl val)

/-- TRAINING_RECORD_REFRESH (R565): every controller's record with the temperature now. -/
def execTrainingRecordRefresh (s : State) : Out :=
  .next (
    let p := s.mgmt.pwr
    if s.pwrRuns && (p.trained.isEmpty || p.trainAt == 0 || decide (p.trainAt + 3600000000000 ≤ s.beacon)) then
      (s.modPwr fun p => { p with
        trainAt := s.beacon
        trained := List.zip (List.range 28) ((List.range 28).map fun i => (Config.measured (s.free + i)).toNat % 256) }).drew 28
    else s)

/-! ### The Gutter score (R509 to R512) -/

def State.modGut (s : State) (f : GutSt → GutSt) : State := { s with mgmt := { s.mgmt with gut := f s.mgmt.gut } }

/-- Points of a component (R510). -/
def gutPoints (x w l : Nat) : Nat :=
  if w < l then (if x ≤ w then 0 else if l ≤ x then 1000 else 1000 * (x - w) / (l - w))
  else if w ≤ x then 0 else if x ≤ l then 1000 else 1000 * (w - x) / (w - l)

/-- What a counter read `span` ns ago: the newest sample at least that old, 0 when the start is younger. -/
def histAt (h : List (Nat × List Nat × List Nat)) (now span : Nat) (f : List Nat × List Nat → Nat) : Nat :=
  match (h.filter fun e => decide (e.1 + span ≤ now)).getLast? with
  | some e => f e.2
  | none => 0

/-- The largest of a list. -/
def maxOf (l : List Nat) : Nat := l.foldl max 0

/-- The six inputs of R509. -/
def State.gutInputs (s : State) : List Nat :=
  let g := s.mgmt.gut
  let hour := 3600 * 1000000000
  let corr := fun c => (s.ctl c).corr + (s.ctl c).retry
  let mem := fun c => corr c - histAt g.hist s.beacon hour (fun e => e.1.getD c 0)
  let fec := fun n => ((s.link n).fecCorr - histAt g.hist s.beacon 60000000000 (fun e => e.2.getD n 0)) / 60
  let ms := (List.range 64).filterMap fun l => if (s.lantern l).inService && (s.plan l).seen then some (s.plan l).margin else none
  [maxOf ((List.range 12).map mem), maxOf ((List.range 16).map fun i => mem (12 + i)), maxOf ((List.range 36).map fec), g.hot.length,
   ms.foldl min 255, g.frames.length]

/-- This second's sample, and what falls out of the windows. -/
def State.gutSample (s : State) : State :=
  let now := s.beacon
  let sec := now / 1000000000
  let hour := 3600 * 1000000000
  s.modGut fun g =>
    let h := g.hist ++ [(now, (List.range 28).map fun c => (s.ctl c).corr + (s.ctl c).retry, (List.range 36).map fun n => (s.link n).fecCorr)]
    let old := h.filter fun e => decide (e.1 + hour ≤ now)
    let hotNow := s.mgmt.pwr.throttled.any (· != 19) && !g.hot.contains sec
    { g with
      hist := old.drop (old.length - 1) ++ h.filter fun e => decide (now < e.1 + hour)
      hot := (g.hot ++ (if hotNow then [sec] else [])).filter fun t => decide (sec < t + 3600)
      frames := g.frames.filter fun t => decide (now < t + 24 * hour) }

/-- A Gutter warning (R511). -/
def State.gutWarn (s : State) : State :=
  let s := s.modGut fun g => { g with armed := false, warned := true, warnAt := s.beacon, warn := g.warn + 1 }
  let s := ((s.sootLog 2 2 5 [s.mgmt.gut.score, s.fab.chip]).setAlert 2).raiseIrq 0 2
  (s.ckpt.map Prod.fst).foldl (fun t d => t.cutRequest d 1) s

/-- The score of this second, re-arming, and the warning it raises (R510, R511). -/
def State.gutScore (s : State) : State :=
  let s := s.gutSample
  let g := s.mgmt.gut
  let xs := s.gutInputs
  let pts := (List.range 6).map fun c => gutPoints (xs.getD c 0) (g.w.getD c 0) (g.l.getD c 0)
  let score := min 1000 (sumBy id pts)
  let top := (List.range 6).foldl (fun b c => if pts.getD b 0 < pts.getD c 0 then c else b) 0
  let rearm := g.warned && (decide (score + 100 < g.thresh) || decide (g.warnAt + 3600 * 1000000000 ≤ s.beacon))
  let s := s.modGut fun g => { g with
    score := score, top := top, x := xs.map (· % 2 ^ 32), armed := g.armed || rearm, warned := g.warned && !rearm }
  let g := s.mgmt.gut
  if g.en && g.armed && decide (g.thresh ≤ score) then s.gutWarn else s

/-- GUTTER_SCORE (R509 to R511). -/
def execGutterScore (s : State) : Out := .next (if s.pwrRuns then s.gutScore else s)

/-- A write of GUT_CTRL (R512): a THRESH of 0 acts as 1; FORCE raises a warning while the power core runs (R511). -/
def State.gutCtrl (s : State) (v : Word) : State :=
  let t := v.toNat % 1024
  let s := s.modGut fun g => { g with thresh := if t = 0 then 1 else t, en := v.getLsbD 16 }
  if v.getLsbD 17 && s.pwrRuns then s.gutWarn else s

/-- GUTTER_FORCE (R511). -/
def execGutterForce (val : BitVec 32) (s : State) : Out := .next (s.pfWrite 0x504004 fun s => s.gutCtrl val)

/-- A write of GUT_Wc or GUT_Lc: one that makes them equal is refused (R510). -/
def State.gutLevel (s : State) (c : Nat) (isL : Bool) (v : Word) : State :=
  s.modGut fun g =>
    if isL then (if g.w.getD c 0 = v.toNat then g else { g with l := g.l.set c v.toNat })
    else if g.l.getD c 0 = v.toNat then g else { g with w := g.w.set c v.toNat }

end Sys2Proof.Machine
end

