-- ==== Sys2Proof/Machine/Usb.lean ====
section
/-! DEFINITION. The service port (R452, R461 to R466, R607): endpoint 0, staged commands, and the commands themselves. -/

namespace Sys2Proof.Machine

/-! ### Session requests (R462 to R465) -/

/-- The opcodes of R466, and those with a bulk phase. -/
def usbOps : List Nat := [1, 2, 3, 4, 5, 6, 7]
def usbBulkOp (op : Nat) : Bool := op == 2 || op == 5 || op == 6

/-- A command block is one that the status stage accepts (R464). -/
def UsbSt.accepts (u : UsbSt) (b : List Byte) : Bool :=
  decide (16 ≤ b.length ∧ b.length ≤ 4096) && u.session == some (fieldAt b 0 4) && fieldAt b 4 4 == u.lastSeq + 1
    && u.running.isNone && fieldAt b 0xA 2 == 0

/-- A block is held on endpoint 0, or answered with STALL. -/
def State.usbHold (s : State) (b : List Byte) : State :=
  if s.mgmt.usb.accepts b then
    s.modUsb fun u => { u with staged := some (fieldAt b 0 4, fieldAt b 4 4, fieldAt b 8 2, fieldAt b 0xC 4, b.drop 16) }
  else s

/-- The status stage is acknowledged: the staged command is accepted. One that R466 does not list, or whose LENGTH is not its payload's,
completes with BADCMD. -/
def State.usbAccept (s : State) : State :=
  match s.mgmt.usb.staged with
  | none => s
  | some (_, seq, op, len, p) =>
    let s := s.modUsb fun u => { u with staged := none, lastSeq := seq, running := some (seq, op, p, s.clk), reply := some [], at_ := s.clk }
    if usbOps.contains op && len == p.length then s else s.usbDone 3

/-- STAGE (R462, R465): a block with its data stage, or (`none`) the ACK of the status stage. -/
def execUsbStage (blk : Option (List (BitVec 8))) (s : State) : Out :=
  .next (match blk with
    | some b => s.setup fun s => s.usbHold b
    | none => if s.usbUp then s.usbAccept else s)

/-- A result block (R464). -/
def resultBlock (seq op st : Nat) (body : List Byte) : List Byte :=
  leBytes 4 seq ++ leBytes 2 op ++ leBytes 2 st ++ leBytes 4 body.length ++ leBytes 4 0 ++ body

/-- RESULT (R462, R464). -/
def execUsbResult (seq : BitVec 32) (len : BitVec 16) (s : State) : Out :=
  .next (s.setup fun s =>
    let u := s.mgmt.usb
    let n := seq.toNat
    if len.toNat < 16 ∨ 4096 < len.toNat then s
    else
      let b := match u.running.filter (fun r => r.1 == n), u.results.find? (fun r => r.seq == n) with
        | some r, _ => resultBlock n r.2.1 1 []
        | none, some r => resultBlock n r.op r.status r.body
        | none, none => resultBlock n 0 2 []
      s.usbReply (b.take len.toNat))

/-- OPEN (R462): a new session, whose number the device chooses (log 31); STALL while a command runs. -/
def execUsbOpen (s : State) : Out :=
  .next (s.setup fun s =>
    if s.mgmt.usb.running.isSome then s
    else
      let n := 1 + (Config.freeValue s.free).toNat % (2 ^ 32 - 1)
      ((s.modUsb fun u => { u with session := some n, lastSeq := 0, results := [] }).drew 1).usbReply (leBytes 4 n))

/-- QUERY (R462). -/
def execUsbQuery (s : State) : Out :=
  .next (s.setup fun s =>
    let u := s.mgmt.usb
    s.usbReply (leBytes 4 (u.session.getD 0) ++ leBytes 4 u.lastSeq ++ leBytes 4 (match u.running with | some r => r.1 | none => 0)))

/-- The session ends (R463). -/
def UsbSt.noSession (u : UsbSt) : UsbSt := { u with session := none, lastSeq := 0, results := [], staged := none }

/-- CLOSE (R462). -/
def execUsbClose (ses : BitVec 32) (s : State) : Out :=
  .next (s.setup fun s =>
    if s.mgmt.usb.session = some ses.toNat ∧ s.mgmt.usb.running.isNone = true then (s.modUsb UsbSt.noSession).usbReply [] else s)

/-- USB_SESSION_TIMEOUT (R463): 600 s with no request and no running command. -/
def execUsbSessionTimeout (s : State) : Out :=
  .next (if s.mgmt.usb.running.isNone && decide (s.mgmt.usb.at_ + 600000000000 ≤ s.clk) then s.modUsb UsbSt.noSession else s)

/-- A command is in its bulk phase: a loaded bundle whose cores are being released is past it (R465). -/
def State.inBulk (s : State) : Bool :=
  match s.mgmt.usb.running with
  | some (_, op, _, _) => usbBulkOp op && !(op == 5 && s.mgmt.fw.await != 0)
  | none => false

/-- USB_BUS_RESET (R465): high or full speed is agreed anew. -/
def execUsbBusReset (s : State) : Out :=
  .next (if !s.usbUp then s
    else
      let s := s.usbDetach
      if s.inBulk then s.usbDone 6 else s)

/-- USB_BULK_TIMEOUT (R465): no bulk data for 10 s. -/
def execUsbBulkTimeout (s : State) : Out :=
  .next (match s.mgmt.usb.running with
    | some (_, _, _, t) => if s.inBulk && decide (t + 10000000000 ≤ s.clk) then s.usbDone 7 else s
    | none => s)

/-- USB_VBUS_CHANGE (R607). -/
def execUsbVbusChange (present : Bool) (s : State) : Out :=
  .next (
    let t := s.modPins fun p => { p with vbus := present }
    if present then t else t.usbDetach)

/-- A write of USB_CTRL (R472, R577): DISABLE locks itself once set. -/
def State.usbCtrl (s : State) (v : Word) : State :=
  if s.mgmt.usb.disable then (if v.getLsbD 0 then s else s.lockErr 0 0x300404)
  else if v.getLsbD 0 then (s.modUsb fun u => { u with disable := true }).usbDetach
  else s

/-- USB_DISABLE (R461). -/
def execUsbDisable (s : State) : Out := .next (s.pfWrite 0x300404 fun s => s.usbCtrl 1)

/-! ### Standard requests (R461, R462; the USB 2.0 specification, log 49) -/

/-- The interface and its two bulk endpoints. -/
def usbInterface (high : Bool) : List Byte :=
  let sz := leBytes 2 (if high then 512 else 64)
  [9, 4, 0, 0, 2, 0xFF, 1, 1, 0, 7, 5, 0x01, 2] ++ sz ++ [0, 7, 5, 0x81, 2] ++ sz ++ [0]

/-- The configuration at a speed; 2 is the CONFIGURATION type, 7 the other speed's. -/
def usbConfig (type : Nat) (high : Bool) : List Byte :=
  [9] ++ leBytes 1 type ++ leBytes 2 32 ++ [1, 1, 0, 0xC0, 0] ++ usbInterface high

/-- A string descriptor. -/
def usbString (l : List Byte) : List Byte := leBytes 1 (2 + 2 * l.length) ++ [3] ++ (l.map fun b => [b, 0]).flatten

/-- Decimal and hexadecimal digits. -/
def digit (n : Nat) : Byte := BitVec.ofNat 8 (if n < 10 then 0x30 + n else 0x37 + n)
def twoDigits (base n : Nat) : List Byte := [digit (n / base % base), digit (n % base)]

/-- The serial string: lot, wafer, and IO0's x and y. -/
def State.usbSerial (s : State) : List Byte :=
  let o := fun a => (Memory.rd s.sec.otpCache a).toNat
  Memory.rdN s.sec.otpCache 0 8 ++ ascii "-" ++ twoDigits 10 (o 8) ++ ascii "-" ++ twoDigits 16 (o 0x18) ++ twoDigits 16 (o 0x19)

/-- GET_DESCRIPTOR. -/
def State.usbDescriptor (s : State) (type idx : Nat) : Option (List Byte) :=
  let h := s.mgmt.usb.high
  match type, idx with
  | 1, _ => some ([18, 1, 0, 2, 0, 0, 0, 64] ++ leBytes 2 ((Config.assigned 0).toNat % 65536) ++ [0x36, 0x96, 0, 1, 1, 2, 3, 1])
  | 6, _ => some [10, 6, 0, 2, 0, 0, 0, 64, 1, 0]
  | 2, 0 => some (usbConfig 2 h)
  | 7, 0 => some (usbConfig 7 !h)
  | 3, 0 => some [4, 3, 9, 4]
  | 3, 1 => some (usbString (ascii "Zyndowin"))
  | 3, 2 => some (usbString (ascii "Siloft Tigegus service port"))
  | 3, 3 => some (usbString s.usbSerial)
  | _, _ => none

/-- A standard request; every other request is answered with STALL. -/
def State.usbStandard (s : State) (rt rq val idx len : Nat) : State :=
  let conf := s.mgmt.usb.configured
  match rt, rq with
  | 0x80, 6 => match s.usbDescriptor (val / 256) (val % 256) with
    | some d => s.usbReply (d.take len)
    | none => s
  | 0x00, 5 => if val < 128 then (s.modUsb fun u => { u with addr := val }).usbReply [] else s
  | 0x00, 9 => if val < 2 then (s.modUsb fun u => { u with configured := val == 1 }).usbReply [] else s
  | 0x80, 8 => s.usbReply ((leBytes 1 (if conf then 1 else 0)).take len)
  | 0x80, 0 => s.usbReply ((leBytes 2 1).take len)
  | 0x81, 0 => if conf && idx == 0 then s.usbReply ((leBytes 2 0).take len) else s
  | 0x82, 0 => if idx % 128 == 0 || (conf && (idx == 1 || idx == 0x81)) then s.usbReply ((leBytes 2 0).take len) else s
  | 0x81, 10 => if conf && idx == 0 then s.usbReply ((leBytes 1 0).take len) else s
  | 0x01, 11 => if conf && idx == 0 && val == 0 then s.usbReply [] else s
  | 0x02, 1 => if val == 0 && conf && (idx == 1 || idx == 0x81) then s.usbReply [] else s
  | _, _ => s

/-- CONTROL_REQUEST (R465): the eight bytes of a SETUP that is not one of the vendor requests of R462. -/
def execControlRequest (setup : BitVec 64) (s : State) : Out :=
  let v := setup.toNat
  .next (s.setup fun s => s.usbStandard (v % 256) (v / 2 ^ 8 % 256) (v / 2 ^ 16 % 2 ^ 16) (v / 2 ^ 32 % 2 ^ 16) (v / 2 ^ 48))

/-! ### Commands (R466) -/

/-- A running command of this opcode is served in its states; NOMAIN on standby alone, STATE elsewhere. `f` gives the result, or none
while it goes on. -/
def State.usbRun (s : State) (op : Nat) (served : Bool) (f : State → List Byte → State × Option (Nat × List Byte)) : State :=
  match s.mgmt.usb.running with
  | some (_, o, p, _) =>
    if o ≠ op then s
    else if op ≠ 1 ∧ s.powered = false then s.usbDone 5
    else if !served || (s.mgmt.fw.romrec && op != 1 && op != 6) then s.usbDone 4
    else
      let r := f s p
      match r.2 with
      | some (st, b) => r.1.usbDone st b
      | none => r.1
  | none => s

/-- FW_STATUS (R472). -/
def FwSt.statusWord (f : FwSt) : Nat :=
  (if f.loaded then 1 else 0) + (if f.loading then 2 else 0) + (if f.monitorOk then 4 else 0) + 8 * (f.source % 4)

/-- INFO (R466): identity, LCSTATE (1), SVN (2), HOLD cause (1), FW_STATUS (4), counters 0 to 3 (8 each); the manual gives the field
widths of identity alone (log 49). -/
def execUsbInfo (s : State) : Out :=
  .next (s.usbRun 1 true fun s _ =>
    let rest := if !s.powered then List.replicate 40 0xFF
      else leBytes 1 s.sec.lc.num ++ leBytes 2 s.sec.svn ++ leBytes 1 s.dev.cause ++ leBytes 4 s.mgmt.fw.statusWord
        ++ ((List.range 4).map fun i => leBytes 8 (s.mgmt.nvs.val i)).flatten
    (s, some (0, Memory.rdN s.sec.otpCache 0 32 ++ rest)))

/-- Main power is present and the Snuffer has not fired. -/
def State.usbMain (s : State) : Bool := s.powered && !s.sec.snuffed

/-- LOG_READ (R466): the buffer leaves through the bulk phase. -/
def execUsbLogRead (s : State) : Out :=
  .next (s.usbRun 2 s.usbMain fun s _ => ((s.usbReply (s.mgmt.soot.buf.map SootE.bytes).flatten), some (0, [])))

/-- BCR_READ (R445, R466): an erased copy, or a number that is no copy, gives BADDESC. -/
def execUsbBcrRead (s : State) : Out :=
  .next (s.usbRun 3 s.usbMain fun s p =>
    if p.length ≠ 1 then (s, some (3, []))
    else
      let s := s.nvsLook (· == (2 + leNat p, 0))
      match s.mgmt.nvs.bcr (leNat p) with
      | some b => (s, some (0, b.take 4032))
      | none => (s, some (0xA, [])))

/-- BCR_WRITE (R445, R466, R549). -/
def execUsbBcrWrite (s : State) : Out :=
  .next (if s.mgmt.nvs.queue.any fun r => r.who == .usb then s
    else s.usbRun 4 s.usbMain fun s p =>
      let r := s.bcrWrite p .usb
      (r.1, match r.2 with
        | none => none
        | some e => if e = stNOSPACE then some (9, leBytes 1 r.1.mgmt.nvs.last) else some (0xA, [])))

/-- USB_BUNDLE_LOAD (R438, R466): the bytes that the bulk phase brought. The command ends when the cores are ready, or with the load. -/
def execUsbBundleLoad (data : List (BitVec 8)) (s : State) : Out :=
  .next (if s.mgmt.fw.await ≠ 0 ∧ s.mgmt.fw.source = 2 then s
    else s.usbRun 5 (s.dev.st == .hold && s.mgmt.fw.monitorOk) fun s p =>
      if p.length ≠ 4 then (s, some (3, []))
      else
        let r := s.loadBundle (data.take (leNat p)) (leNat p) 2
        (r.1, if r.2 = 0 then none else some (8, leBytes 1 r.2)))

/-- The ROM update routine's erase and programming of banks 0 and 1 (R450, R452): it runs with the execute set empty, and then the set is
restored, or begins with the new monitor. `st` is the NVS status. -/
def NvsSt.updateMonitor (n : NvsSt) (st : Nat) : NvsSt :=
  let m := { n with exec := [] }
  match [(0, 0), (1, 0)].find? fun p => m.check .rom p != 0 with
  | some p => { n with last := m.check .rom p }
  | none => { n with
      monitor := st == 0, last := st, exec := if st = 0 then [0, 1] else n.exec
      struck := n.struck.filter fun p => decide (2 ≤ p.1) }

/-- MONITOR_UPDATE (R452): `st` is what programming banks 0 and 1 ends with (R451). -/
def execMonitorUpdate (data : List (BitVec 8)) (st : BitVec 8) (s : State) : Out :=
  .next (s.usbRun 6 (s.dev.st == .hold) fun s p =>
    if p.length ≠ 4 then (s, some (3, []))
    else
      let r := s.bundleStop (data.take (leNat p)) (leNat p) monitorTypes
      if r.1 ≠ 0 then (s, some (8, leBytes 1 r.1))
      else
        let t := s.modNvs fun n => n.updateMonitor st.toNat
        if st = 0 then (t.modFw fun f => { f with monitor := true, romrec := false }, some (0, []))
        else (t, some (9, leBytes 1 st.toNat)))

/-- USB_START (R466, R543): KIND 1 also sets the clear flag. -/
def execUsbStart (io : StartIn) (s : State) : Out :=
  .next (
    let p := match s.mgmt.usb.running with | some (_, 7, p, _) => p | _ => []
    let ok := s.dev.st == .hold && !(s.sec.snuffed && p != [1]) && !(s.dev.cause == 0xC && !io.cool)
    let go := (s.mgmt.usb.running.any fun r => r.2.1 == 7) && ok && s.powered && !s.mgmt.fw.romrec && (p == [0] || p == [1])
    let t := s.usbRun 7 ok fun s p => if p = [0] ∨ p = [1] then (s, some (0, [])) else (s, some (3, []))
    if go then t.startEvent (p == [1]) (p == [1]) io else t)

end Sys2Proof.Machine
end

