-- ==== Sys2Proof/Machine/RegRead.lean ====
section
/-! DEFINITION. What every register of management BAR0 and of a VF's BAR0 reads as (R6, R35, R111, R214, R215, R250, R251, R295, R325, R328,
R337 to R339, R361, R369, R370, R405, R440, R472, R504, R512, R534, R566, R567, R585 to R594). -/

namespace Sys2Proof.Machine

/-- A bit at position `i`. -/
def bitAt (b : Bool) (i : Nat) : Nat := if b then 2 ^ i else 0
/-- Entry and offset within it, for `o` in an array of `n` entries of `stride` bytes at `base`. -/
def arrAt (o base stride n : Nat) : Option (Nat × Nat) :=
  if base ≤ o ∧ o < base + stride * n then some ((o - base) / stride, (o - base) % stride) else none

/-! ### 64-bit pairs: the low offset within the block; `true` for a counter of R590 -/

def pairTrig (s : State) (o : Nat) : Option (Nat × Bool) :=
  match arrAt o 0x1000 0x20 256 with
  | some (n, i) =>
    let t := s.trig n
    let mine := decide (64 ≤ n ∧ n < 128)
    if i = 0 then some (t.time.toNat, false)
    else if i = 8 then some (if mine then t.period.toNat else 0, false)
    else if i = 0x10 then some (if mine then t.arg.toNat else 0, false) else none
  | none => none

def pairPower (s : State) (o : Nat) : Option (Nat × Bool) :=
  let p := s.mgmt.pwr
  if o = 0x18 then some (p.energy, true)
  else if o = 0x20 then some (p.capNs + (match p.capAt with | some t => s.beacon - t | none => 0), true)
  else if o = 0x28 then some (p.brakes, true)
  else if o = 0x108 then some (p.ageTime, true)
  else if o = 0x208 then some (p.calWin, true)
  else if o = 0x210 then some (p.calUrg, true)
  else if o = 0x4060 then some (s.mgmt.gut.warn, true)
  else if o = 0x4068 then some (s.mgmt.gut.recv, true) else none

def pairLink (l : Link) (i : Nat) : Option Nat :=
  if i = 8 then some l.txFlits else if i = 0x10 then some l.rxFlits else if i = 0x18 then some l.fecCorr else if i = 0x20 then some l.fecUnc
  else if i = 0x28 then some l.replay else if i = 0x30 then some l.tagFail else if i = 0x38 then some l.quiet else none

def pairFabric (s : State) (o : Nat) : Option (Nat × Bool) :=
  if o = 0x40 then some (s.fab.reject, true) else if o = 0x48 then some (s.fab.strand, true) else if o = 0x50 then some (s.fab.malform, true)
  else match arrAt o 0x1000 0x80 36, arrAt o 0x10000 0x20 256 with
    | some (n, i), _ => (pairLink (s.link n) i).map (·, true)
    | none, some (d, i) =>
      if i = 0 then some (match (s.dom d).binding with | some b => b.tag.toNat | none => 0, false)
      else if i = 0x10 then some ((FMap.get {} s.fab.doms d).tdlv, true)
      else if i = 0x18 then some ((FMap.get {} s.fab.doms d).bnc, true) else none
    | none, none => none

def pairColl (s : State) (o : Nat) : Option (Nat × Bool) :=
  match arrAt o 0 0x100 2 with
  | some (n, i) =>
    let x : CollEng := FMap.get {} s.eng.coll n
    if i = 8 then some (x.adds, true) else if i = 0x10 then some (x.rbuf, true) else if i = 0x18 then some (x.combs, true)
    else if i = 0x20 then some (x.ghold, true) else if i = 0x28 then some (x.late, true) else none
  | none => none

def pairMem (s : State) (o : Nat) : Option (Nat × Bool) :=
  match arrAt o 0 0x100 28 with
  | some (c, i) =>
    let x := s.ctl c
    if i = 8 then some (x.corr, true) else if i = 0x10 then some (x.retry, true) else if i = 0x18 then some (x.poison, true)
    else if i = 0x20 then some (x.rekeys, true) else if i = 0x28 then some (x.qwd, true) else if i = 0x30 then some (x.tagb, true) else none
  | none => none

def pairUpd (s : State) (o : Nat) : Option (Nat × Bool) :=
  match arrAt o 0 0x100 2 with
  | some (n, i) =>
    let x := s.updEng n
    if i = 8 then some (x.spillTot, true) else if i = 0x10 then some (x.done, true) else if i = 0x18 then some (x.hold, true) else none
  | none => none

/-- The pair of block `b` at block offset `o`, not counting holding and common registers. -/
def State.blkPair (s : State) (b o : Nat) : Option (Nat × Bool) :=
  let r := s.mgmt.regs
  match b with
  | 0 => if o = 8 then some (leNat (Memory.rdN s.sec.otpCache 0 8), false) else if o = 0x60 then some (r.accCnt, true)
    else if o = 0x70 then some (r.lockCnt, true) else none
  | 2 => if o = 0x58 then some (s.sec.evCnt, true) else if o = 0x60 then some (s.sec.authAddr.toNat, false) else none
  | 3 => if o = 8 then some (s.mgmt.fw.addr.toNat, false) else if o = 0x100 then some (s.mgmt.soot.base.toNat, false) else none
  | 4 => if o = 0 then some (s.beacon, true) else if o = 0x10 then some (s.bcn.epoch.toNat, false)
    else if o = 0x28 then some (s.bcn.syncMiss, true) else if o = 0x110 then some (s.bcn.period, true) else pairTrig s o
  | 5 => pairPower s o
  | 6 => pairFabric s o
  | 8 => pairColl s o
  | 9 => pairMem s o
  | 10 => pairUpd s o
  | _ => none

/-- BAR0 offset of a block. -/
def blkBase (b : Nat) : Nat := b * 2 ^ 20

/-- The pair at a management BAR0 offset: a register, the holding register of a counter, or SNAP_TIME (R590, R591). -/
def State.pfPair (s : State) (off : Nat) : Option Nat :=
  let b := blockOf off
  let o := off - blkBase b
  if 16 ≤ b then none
  else if o = 0xFFF18 then some (FMap.get 0 s.mgmt.regs.snapAt b)
  else if o < 0x80000 then (s.blkPair b o).map (·.1)
  else match s.blkPair b (o - 0x80000) with
    | some (_, true) => some (FMap.get 0 s.mgmt.regs.holds (off - 0x80000))
    | _ => none

/-! ### 32-bit registers of each block -/

def wordGlobal (s : State) (o : Nat) : Nat :=
  let r := s.mgmt.regs
  if o = 0 then 0x1009636
  else if o = 4 then (Memory.rd s.sec.otpCache 8).toNat
  else if o = 0x10 then s.moduleWord
  else if o = 0x14 ∨ o = 0x18 ∨ o = 0x1C then leNat (Memory.rdN s.sec.otpCache (o - 4) 4)
  else if o = 0x20 then bitAt s.sec.a1block 0 + bitAt s.sec.snuffed 1 + bitAt s.vfenOk 2
  else if o = 0x40 then r.indAddr.toNat
  else if o = 0x44 then bitAt r.ainc 0 + bitAt r.tight 1 + bitAt r.indErr 2
  else if o = 0x68 then r.accOff
  else if o = 0x6C then r.accFn + r.accKind * 2 ^ 9 + bitAt r.accWr 13
  else if o = 0x78 then r.lockOff
  else if o = 0x7C then r.lockFn + bitAt r.lockSec 9
  else if o = 0x80 then (if s.sec.burst.1 = s.beacon / 1000000000 then min 255 s.sec.burst.2 else 0)
  else if o = 0x100 then s.stCode + s.mgmt.start.kind * 4 + s.dev.cause * 2 ^ 8 + s.dev.lastFail * 2 ^ 16
  else if o = 0x104 then min 255 (s.mgmt.nvs.val 0) + min 255 (s.mgmt.nvs.val 1) * 2 ^ 8
  else if o = 0x108 then s.mgmt.pins.straps
  else if o = 0x10C then s.mgmt.start.copy + bitAt s.mgmt.start.aValid 2 + bitAt s.mgmt.start.bValid 3
  else if o = 0x110 then s.mgmt.start.bcrSeq
  else 0

/-- The codes of DOM_ID.TDI (R337). -/
def State.domTdi (s : State) (d : Nat) : Nat := (s.dom d).tdi.num

/-- Pending bits of vectors `32 i` to `32 i + 31` of a function. -/
def State.pbaWord (s : State) (fn i : Nat) : Nat :=
  (List.range 32).foldl (fun v k => v + bitAt (FMap.get false s.mgmt.regs.pba (fn * 128 + 32 * i + k)) k) 0

/-- A dword of a function's MSI-X table (R328); entries are masked until written. -/
def State.msixWord (s : State) (fn i : Nat) : Nat :=
  ((FMap.find? (if fn = 0 then s.mgmt.regs.msix else (s.dom (fn - 1)).msix) i).getD (if i % 4 = 3 then 1 else 0)).toNat

def wordHost (s : State) (o : Nat) : Nat :=
  let r := s.mgmt.regs
  if o = 0 then r.linkSpeed + r.linkWidth * 8 + bitAt r.linkFlit 8
  else if o = 4 then (List.range 9).foldl (fun v i => v + bitAt (FMap.get {} s.sec.streams i).secure i) 0
  else if o = 0xF000 then s.pbaWord 0 0
  else match arrAt o 0x1000 4 256, arrAt o 0xE000 4 128 with
    | some (d, _), _ =>
      let m := s.dom d
      bitAt m.fenced 0 + s.domTdi d * 4 + bitAt m.there 4 + m.ur * 2 ^ 16
    | none, some (i, _) => s.msixWord 0 i
    | none, none => 0

def wordSec (s : State) (o : Nat) : Nat :=
  let x := s.sec
  if o = 0 then x.lc.num + bitAt x.pend 4 + x.rootSrc * 2 ^ 5 + bitAt x.tamperSeen 7 + bitAt x.snuffed 8 + x.svn * 2 ^ 9
  else if o = 8 then x.copies.1.num + x.copies.2.1.num * 2 ^ 4 + x.copies.2.2.num * 2 ^ 8 + bitAt x.markFound 12
  else if o = 0x10 then x.lcReq
  else if o = 0x18 then x.lcStatus * 2 ^ 8
  else if o = 0x20 then x.erase
  else if o = 0x28 then bitAt s.keysEmpty 0 + bitAt s.userEmpty 1 + bitAt (!x.ownSeeds) 2
  else if o = 0x30 then x.otpOp
  else if o = 0x38 then x.otpStatus * 2 ^ 8
  else if o = 0x40 then bitAt x.armEncl 0 + bitAt x.armEsc 1
  else if o = 0x50 then x.last + x.level * 2 ^ 8 + bitAt x.a1seen 10
  else if o = 0x68 then x.otpAddr
  else if o = 0x6C then x.otpData.toNat
  else match arrAt o 0x80 4 8, arrAt o 0x104 4 18 with
    | some (n, _), _ => (x.nonce.getD (n / 2) 0).toNat / 2 ^ (32 * (n % 2)) % 2 ^ 32
    | none, some (i, _) => (match alarmRange (i + 1) with | some (_, df, _) => FMap.get df x.cfg (i + 1) | none => 0)
    | none, none => 0

/-- A word of a mailbox window pair: `o` from the host-to-firmware window's base (R440). -/
def Mbx.word (m : Mbx) (o : Nat) : Nat :=
  if o = 0xFF0 then bitAt m.go 0
  else if o = 0xFF4 then m.frame
  else if o = 0x1FF0 then bitAt m.ready 0
  else if o < 0xFE0 then leNat (Memory.rdN m.win o 4)
  else if 0x1000 ≤ o ∧ o < 0x1FE0 then leNat (Memory.rdN m.rep (o - 0x1000) 4)
  else 0

def wordFw (s : State) (o : Nat) : Nat :=
  let f := s.mgmt.fw
  let n := s.mgmt.nvs
  let u := s.mgmt.usb
  if o = 0 then f.statusWord
  else if o = 0x10 then f.len
  else if o = 0x18 then f.status + f.comp * 2 ^ 8
  else if o = 0x1C then f.bsvn % 512
  else if o = 0x20 then bitAt f.sec 0 + bitAt f.sched 1 + bitAt f.power 2 + bitAt f.monitor 3 + bitAt f.romrec 4
  else if o = 0x28 then f.ccc.toNat % 2 ^ 32
  else if o = 0x2C then f.ccc.toNat / 2 ^ 32
  else if o = 0x108 then s.mgmt.soot.log2 + bitAt s.mgmt.soot.en 8
  else if o = 0x10C then s.mgmt.soot.prod.toNat
  else if o = 0x110 then s.mgmt.soot.cons.toNat
  else if o = 0x114 then s.mgmt.soot.lost
  else if o = 0x300 then bitAt (!n.queue.isEmpty) 0 + (match n.queue with | r :: _ => ((n.places r.work).headD (0, 0)).1 | [] => 0) * 2 + n.queue.length * 2 ^ 5 + n.last * 2 ^ 16
  else if o = 0x304 then bitAt n.tight 0
  else if o = 0x400 then bitAt u.configured 0 + bitAt u.high 1 + bitAt u.session.isSome 2 + bitAt u.running.isSome 3
  else if o = 0x404 then bitAt u.disable 0
  else if 0x1000 ≤ o ∧ o < 0x3000 then (s.mbx 0).word (o - 0x1000)
  else match arrAt o 0x200 4 32 with
    | some (i, _) => if i < 2 then 2 ^ 32 - 1 else (FMap.get 0 s.mgmt.soot.trace i).toNat
    | none => 0

/-- A trigger slot's TRIG_CTRL and TRIG_AUX: of slots of other owners PF0 reads ACTION, EN, OWNER, DOMAIN and TIME (R482). -/
def Trig.ctrlWord (t : Trig) (n : Nat) : Nat :=
  let mine := decide (64 ≤ n ∧ n < 128)
  let own := if n < 64 then 0 else if n < 128 then 1 else 2
  t.action + bitAt t.en 5 + own * 2 ^ 8 + (if 128 ≤ n then t.dom else 0) * 2 ^ 10
    + (if mine then bitAt t.mode 4 + bitAt t.fired 6 + bitAt t.late 7 + t.count * 2 ^ 18 else 0)

def wordBcn (s : State) (o : Nat) : Nat :=
  let b := s.bcn
  if o = 8 then b.st.num + bitAt b.ref 3 + bitAt b.syncAt.isSome 4 + bitAt b.first 5 + s.stratum * 2 ^ 8 + (b.uplink.getD 0x3F) * 2 ^ 12 + bitAt b.fault 18
  else if o = 0xC then b.mode
  else if o = 0x18 then b.off.toNat
  else if o = 0x1C then b.dly.toNat
  else if o = 0x20 then s.holdEst.toNat
  else if o = 0x30 then bitAt b.trefused 0 + bitAt b.qrefused 1 + bitAt b.mrefused 2 + bitAt b.tfrefused 3
  else if o = 0x100 then b.newQuantum.getD b.quantum
  else if o = 0x108 then b.paceDom + b.paceCtx * 2 ^ 8 + bitAt b.paceSet 24
  else match arrAt o 0x1000 0x20 256, arrAt o 0x3000 4 256, arrAt o 0x10000 0x10 256 with
    | some (n, i), _, _ =>
      if i = 0x18 then (s.trig n).ctrlWord n
      else if i = 0x1C ∧ 64 ≤ n ∧ n < 128 then (s.trig n).word + (s.trig n).inc * 2 ^ 9 else 0
    | none, some (n, _), _ => if 64 ≤ n ∧ n < 128 then (s.trig n).missed else 0
    | none, none, some (d, i) =>
      let a := s.arb d
      if i = 0 then a.weight + a.pceil * 2 ^ 8 + a.tokFloor * 2 ^ 16 else if i = 4 then a.tokOver + a.max * 2 ^ 16 else 0
    | none, none, none => 0

def wordPower (s : State) (o : Nat) : Nat :=
  let p := s.mgmt.pwr
  let g := s.mgmt.gut
  if o = 0 then s.stCode + bitAt p.capped 3 + bitAt (!p.throttled.isEmpty) 4 + bitAt p.brake 5 + bitAt s.mgmt.pins.pwrbrk 6
  else if o = 4 then p.cap
  else if o = 8 then p.board
  else if o = 0xC then bitAt p.capRefused 0 + bitAt p.ageRefused 1 + bitAt p.calRefused 2
  else if o = 0x10 then p.pin + p.peak * 2 ^ 16
  else if o = 0x30 then p.vovr
  else if o = 0x100 then bitAt p.planning 0 + p.target * 2 ^ 8 + p.floor * 2 ^ 16
  else if o = 0x200 then p.linkThr + p.linkUrg * 2 ^ 8 + p.hbmThr * 2 ^ 16 + p.hbmUrg * 2 ^ 24
  else if o = 0x4000 then g.score + g.top * 2 ^ 10 + bitAt g.armed 16 + bitAt g.warned 17
  else if o = 0x4004 then g.thresh + bitAt g.en 16
  else match arrAt o 0x1000 4 64, arrAt o 0x1100 4 64, arrAt o 0x4010 8 6, arrAt o 0x4040 4 6 with
    | some (l, _), _, _, _ => (s.plan l).mhz + (s.plan l).dv * 2 ^ 12 + planMv l (s.plan l).mhz (s.plan l).dv % 4096 * 2 ^ 16
    | none, some (l, _), _, _ => (s.plan l).margin + (s.plan l).min * 2 ^ 8 + (s.plan l).trend * 2 ^ 16
    | none, none, some (c, i), _ => if i = 0 then g.w.getD c 0 else g.l.getD c 0
    | none, none, none, some (c, _) => g.x.getD c 0
    | none, none, none, none => 0

def linkStat (l : Link) : Nat :=
  l.st.num + l.cause.num * 2 ^ 4 + bitAt l.width4 8 + bitAt l.light 9 + bitAt l.kepoch 10 + l.peer % 2 ^ 13 * 2 ^ 12 + l.peerLink % 64 * 2 ^ 25

def wordFabric (s : State) (o : Nat) : Nat :=
  let f := s.fab
  if o = 0 then f.chip
  else if o = 4 then buddyOf f.chip + (match f.spareFor with | some k => 2 ^ 13 + k * 2 ^ 14 | none => 0)
  else if o = 8 then bitAt f.wrefused 0 + bitAt f.unreach 1 + bitAt f.segrefused 2 + bitAt f.rrefused 3
  else if o = 0xC then f.minSvn + bitAt f.minSvnLock 8
  else if o = 0x10 then f.wsel
  else if o = 0x14 then bitAt f.adapt 0 + f.thresh * 2 ^ 8
  else match arrAt o 0x20 4 4, arrAt o 0x1000 0x80 36, arrAt o 0x4000 4 32, arrAt o 0x8000 4 4096, arrAt o 0xC000 4 256, arrAt o 0x10000 0x20 256 with
    | some (i, _), _, _, _, _, _ =>
      let w : WSet := FMap.get {} f.wsets i
      w.token + w.reduce * 2 ^ 8 + w.bulk * 2 ^ 16 + w.ctrl * 2 ^ 24
    | none, some (n, i), _, _, _, _ =>
      if i = 0 then linkStat (s.link n) else if i = 4 then bitAt (s.link n).enab 0 + bitAt (s.link n).fecReq 1 else 0
    | none, none, some (m, _), _, _, _ => f.lrouteOf m
    | none, none, none, some (k, _), _, _ => f.gexitOf (k / 16) (k % 16)
    | none, none, none, none, some (g, _), _ => f.gnminOf g
    | none, none, none, none, none, some (d, i) =>
      let e : EhtSeg := FMap.get {} f.segs d
      if i = 8 then e.base + e.len * 2 ^ 8 + bitAt e.active 17 + bitAt e.commit.isSome 18
      else if i = 0xC then (FMap.get {} f.doms d).blost else 0
    | none, none, none, none, none, none => 0

/-- Communicators that an engine serves, and those of a domain. -/
def State.engComms (s : State) (n : Nat) : Nat := sumBy (fun (p : Nat × FMap Comm) => (p.2.filter fun q => q.1 % 2 == n).length) s.eng.comms

def wordColl (s : State) (o : Nat) : Nat :=
  match arrAt o 0 0x100 2, arrAt o 0x10000 0x10 256 with
  | some (n, i), _ =>
    let x : CollEng := FMap.get {} s.eng.coll n
    if i = 0 then x.sums + x.comb * 2 ^ 16 else if i = 4 then s.engComms n else 0
  | none, some (d, i) =>
    if i = 0 then (FMap.get [] s.eng.comms d).length else if i = 4 then FMap.get 0 s.eng.wait d
    else if i = 8 then FMap.get 0 s.eng.broken d else 0
  | none, none => 0

/-- A memory controller is in service: it has trained at this start (R250, R539), and no thermal trip has taken its rails. -/
def State.memUp (s : State) : Bool := (s.dev.st == .run || s.dev.st == .hold) && s.mem.up && s.dev.cause != 0xC

/-- MEM_CSTAT.HOLDW: a write waits under R240. -/
def State.holdw (s : State) (c : Nat) : Bool :=
  s.mem.waiting.any (fun w => w / 2 ^ 32 == c)
    || s.mem.heldW.any fun w => ctlOf w.2.1 == c && decide (0xFFFFFFFD ≤ FMap.get 0 (s.ctl c).c (pageOf w.2.1))

/-- Sum of the floors of a tier. -/
def State.floorSum (s : State) (rsv : Bool) : Nat := sumBy (fun (p : Nat × MemDom) => floorOf rsv p.2) s.mem.doms

def wordMem (s : State) (o : Nat) : Nat :=
  if o = 0x1F00 then bitAt s.mem.refused 0 + s.mem.lastDom * 2 ^ 8
  else if o = 0x1F04 then s.floorSum false + s.floorSum true * 2 ^ 16
  else match arrAt o 0 0x100 28, arrAt o 0x10000 0x20 256 with
    | some (c, i), _ =>
      let x := s.ctl c
      if i = 0 then bitAt s.memUp 0 + bitAt x.rk.isSome 1 + bitAt (x.rk.any (·.sweep)) 2 + bitAt (s.holdw c) 3 + x.rkq.length * 2 ^ 16
      else if i = 0x38 then x.fencedFrames else 0
    | none, some (d, i) =>
      let m := s.memDom d
      if i = 0 then m.bw.toNat else if i = 4 then m.cc.toNat else if i = 8 then m.qh.toNat else if i = 0xC then m.qr.toNat
      else if i = 0x10 then m.usedH else if i = 0x14 then m.usedR else if i = 0x18 then m.latOver + m.latMax * 2 ^ 16 else 0
    | none, none => 0

/-- The UPDATE block (R214): FIFO_KIB and STAGE_KIB are whole KiB, the bytes rounded down (DESIGN CHOICE, log 59). -/
def wordUpd (s : State) (o : Nat) : Nat :=
  match arrAt o 0 0x100 2 with
  | some (n, i) =>
    if i = 0 then sumBy Upd.fifo (s.updsOn n) / 1024 + bitAt (s.stageBytes n != 0) 17
    else if i = 4 then s.stageBytes n / 1024 else 0
  | none => 0

def lantMap (x : Lantern) : Nat :=
  (List.range 8).foldl (fun v j => v + (x.map.getD j j % 8) * 2 ^ (4 * j) + bitAt (x.folded j) (4 * j + 3)) 0

def wordComp (s : State) (o : Nat) : Nat :=
  if o = 0 then s.wicksOk + s.lantsOk * 2 ^ 10
  else match arrAt o 0x100 4 16, arrAt o 0x200 4 16, arrAt o 0x1000 4 64, arrAt o 0x1100 4 64 with
    | some (n, _), _, _, _ => leNat ((List.range 4).map fun i => (s.lantern (4 * n + i)).ship)
    | none, some (n, _), _, _ => leNat ((List.range 4).map fun i => (s.lantern (4 * n + i)).ship ||| (s.lantern (4 * n + i)).fenced)
    | none, none, some (l, _), _ => lantMap (s.lantern l)
    | none, none, none, some (l, _) =>
      let x := s.lantern l
      bitAt (x.whole || x.dog) 0 + x.nFenced * 2 + x.mhz * 2 ^ 16
    | none, none, none, none => 0

/-- A word of a block that is no pair; unlisted offsets read 0 (R570). -/
def State.blkWord (s : State) (b o : Nat) : Nat :=
  if o = 0xFFF00 then FMap.get 0 s.mgmt.regs.err b
  else if 0x80000 ≤ o then 0
  else match b with
    | 0 => wordGlobal s o
    | 1 => wordHost s o
    | 2 => wordSec s o
    | 3 => wordFw s o
    | 4 => wordBcn s o
    | 5 => wordPower s o
    | 6 => wordFabric s o
    | 8 => wordColl s o
    | 9 => wordMem s o
    | 10 => wordUpd s o
    | 12 => wordComp s o
    | _ => 0

/-- The live word at a management BAR0 offset. -/
def State.pfWord (s : State) (off : Nat) : Word :=
  BitVec.ofNat 32 (match s.pfPair off, s.pfPair (off - 4) with
    | some x, _ => x % 2 ^ 32
    | none, some x => if off % 8 = 4 then x / 2 ^ 32 else s.blkWord (blockOf off) (off - blkBase (blockOf off))
    | none, none => s.blkWord (blockOf off) (off - blkBase (blockOf off)))

/-! ### Virtual functions (R594) -/

/-- DOM_CKPT_STAT.STATE (R534). -/
def Ckpt.stateNum (k : Ckpt) (relighting : Bool) : Nat :=
  if relighting then 5 else if !k.conf then 0 else if k.copying.isSome then 4 else if k.heldAt.isSome then 3 else if k.req then 2 else 1

/-- An error-log record as it lies in the window (R369). -/
def ERec.bytes (r : ERec) : List Byte :=
  leBytes 8 r.time ++ leBytes 2 r.kind ++ leBytes 2 r.code ++ leBytes 2 r.ctx ++ leBytes 1 r.llant ++ leBytes 1 r.lwick
    ++ leBytes 8 r.loc.toNat ++ leBytes 8 r.adr.toNat ++ (r.detail ++ List.replicate (32 - r.detail.length) 0).take 32

/-- The pairs of domain `d`'s BAR0. -/
def State.vfPair (s : State) (d o : Nat) : Option Nat :=
  let m := s.dom d
  let k := s.ck d
  if o = 0x20 then some s.beacon
  else if o = 0x40 then some m.stepNum.toNat
  else if o = 0x48 then some m.stepTime.toNat
  else if o = 0x70 then some m.mb.lastMax
  else if o = 0x78 then some m.mb.lastMin
  else if o = 0x80 then some m.mb.lastSum
  else if o = 0x108 then some k.epoch.toNat
  else if o = 0x110 then some k.step.toNat
  else if o = 0x118 then some k.held.toNat
  else if o = 0x120 then some k.freeze
  else match arrAt o 0x400 0x20 64, arrAt o 0x4000 8 512 with
    | some (q, i), _ => if i = 0 then some (s.queue d q).sqBase.toNat else if i = 8 then some (s.queue d q).cqBase.toNat else none
    | none, some (n, i) => if i = 0 then some (FMap.get 0 m.fences n).toNat else none
    | none, none => none

/-- The identity page's words (R35, R215, R337, R338, R534, R591). -/
def State.vfIdent (s : State) (d o : Nat) : Nat :=
  let m := s.dom d
  let k := s.ck d
  let x := s.memDom d
  if o = 0 then d + bitAt m.fenced 8 + s.domTdi d * 2 ^ 10 + bitAt m.driver 12 + bitAt (s.stream d).isNone 13
  else if o = 4 then m.ctxs.length + (m.qs.filter fun p => p.2.en).length * 2 ^ 16
  else if o = 8 then m.fcause
  else if o = 0x10 then s.moduleWord
  else if o = 0x18 then m.timeoutUs
  else if o = 0x28 then x.qh.toNat
  else if o = 0x2C then x.usedH
  else if o = 0x30 then x.qr.toNat
  else if o = 0x34 then x.usedR
  else if o = 0x50 then m.stepCtx.toNat + bitAt m.stepCut 16
  else if o = 0x60 then m.mb.word + bitAt m.mb.en 15 + m.mb.ctx * 2 ^ 16
  else if o = 0x68 then min 65535 m.mb.lastN + m.mb.lastArg % 65536 * 2 ^ 16
  else if o = 0x6C then (if m.mb.lastSum = 0 then 0 else min 65535 (1000 * m.mb.lastMax * m.mb.lastN / m.mb.lastSum))
  else if o = 0xF0 then FMap.get 0 s.mgmt.regs.err (1001 + d)
  else if o = 0x100 then k.stateNum (s.relighting d) + bitAt k.buddyOk 3 + bitAt (m.binding.isSome && s.coordOf d == s.fab.chip) 4 + k.cause * 2 ^ 8
  else if o = 0x128 then k.cuts
  else if o = 0x12C then k.fails
  else match arrAt o 0x400 0x20 64 with
    | some (q, i) =>
      let y := s.queue d q
      if i = 0x10 then y.log2 + y.weight * 2 ^ 8 + bitAt y.en 16 + bitAt (!y.en && y.started.isEmpty) 17
      else if i = 0x18 then y.head else if i = 0x1C then y.cqTail + bitAt y.phase 16 else 0
    | none => 0

/-- A word of domain `d`'s BAR0 that is no pair. -/
def State.vfOther (s : State) (d o : Nat) : Nat :=
  let m := s.dom d
  if o < 0x1000 then s.vfIdent d o
  else if 0x2000 ≤ o ∧ o < 0x4000 then (s.mbx (d + 1)).word (o - 0x2000)
  else if o = 0x8000 then m.elog.prod.toNat
  else if o = 0x8004 then m.elog.cons.toNat
  else if o = 0x8008 then m.elog.lost
  else match arrAt o 0x1000 8 64, arrAt o 0x5000 4 512, arrAt o 0x6000 4 260, arrAt o 0x7000 4 4, arrAt o 0xC000 64 256 with
    | some (q, i), _, _, _, _ => if i = 0 then (s.queue d q).tail else if i = 4 then (s.queue d q).cqHead else 0
    | none, some (n, _), _, _, _ => (FMap.get 0 m.owners n).toNat
    | none, none, some (i, _), _, _ => s.msixWord (d + 1) i
    | none, none, none, some (i, _), _ => s.pbaWord (d + 1) i
    | none, none, none, none, some (r, i) => leNat (((FMap.get {} m.elog.recs r).bytes.drop i).take 4)
    | none, none, none, none, none => 0

/-- The live word at an offset of domain `d`'s BAR0. -/
def State.vfWord (s : State) (d o : Nat) : Word :=
  BitVec.ofNat 32 (match s.vfPair d o, s.vfPair d (o - 4) with
    | some x, _ => x % 2 ^ 32
    | none, some x => if o % 8 = 4 then x / 2 ^ 32 else s.vfOther d o
    | none, none => s.vfOther d o)

/-! ### Clearing by a full read (R577) -/

def clearBcn (s : State) (o : Nat) : State :=
  match arrAt o 0x3000 4 256, arrAt o 0x10004 0x10 256 with
  | some (n, _), _ => if 64 ≤ n ∧ n < 128 then s.setTrig n { s.trig n with missed := 0 } else s
  | none, some (d, i) => if i = 0 then { s with bcn := { s.bcn with arb := FMap.set {} s.bcn.arb d { s.arb d with tokOver := 0, max := 0 } } } else s
  | none, none => s

def clearFab (s : State) (o : Nat) : State :=
  match arrAt o 0x1000C 0x20 256 with
  | some (d, i) => if i = 0 then { s with fab := { s.fab with doms := FMap.modify {} s.fab.doms d fun (x : FabDom) => { x with blost := 0 } } } else s
  | none => s

def clearColl (s : State) (o : Nat) : State :=
  match arrAt o 0x10000 0x10 256 with
  | some (d, i) =>
    if i = 4 then { s with eng := { s.eng with wait := FMap.set 0 s.eng.wait d 0 } }
    else if i = 8 then { s with eng := { s.eng with broken := FMap.set 0 s.eng.broken d 0 } } else s
  | none => s

def clearMem (s : State) (o : Nat) : State :=
  match arrAt o 0x10018 0x20 256 with
  | some (d, i) => if i = 0 then s.setMemDom d { s.memDom d with latOver := 0, latMax := 0 } else s
  | none => s

def clearHost (s : State) (o : Nat) : State :=
  match arrAt o 0x1000 4 256 with
  | some (d, _) => s.modDom d fun m => { m with ur := 0 }
  | none => s

/-- A full 32-bit read clears the RC fields of a management register. -/
def State.pfClear (s : State) (off : Nat) : State :=
  let b := blockOf off
  let o := off - blkBase b
  match b with
  | 1 => clearHost s o
  | 3 => if o = 0x114 then { s with mgmt := { s.mgmt with soot := { s.mgmt.soot with lost := 0 } } } else s
  | 4 => clearBcn s o
  | 5 => if o = 0x10 then s.modPwr fun p => { p with peak := 0 } else s
  | 6 => clearFab s o
  | 8 => clearColl s o
  | 9 => clearMem s o
  | _ => s

/-- And of a VF's. -/
def State.vfClear (s : State) (d o : Nat) : State :=
  if o = 0x8008 then s.modDom d fun m => { m with elog := { m.elog with lost := 0 } } else s

end Sys2Proof.Machine
end

