-- ==== Sys2Proof/Machine/RegWrite.lean ====
section
/-! DEFINITION. What a write to each register does, field by field (R577), and the rows of the command table that are such writes. -/

namespace Sys2Proof.Machine

/-! ### Snapshots (R590) -/

/-- Offsets of the counters of a block, relative to it. -/
def counterOffs (b : Nat) : List Nat :=
  let arr (base stride n : Nat) (l : List Nat) : List Nat := ((List.range n).map fun i => l.map (base + stride * i + ·)).flatten
  match b with
  | 0 => [0x60, 0x70]
  | 2 => [0x58]
  | 4 => [0, 0x28, 0x110]
  | 5 => [0x18, 0x20, 0x28, 0x108, 0x208, 0x210, 0x4060, 0x4068]
  | 6 => [0x40, 0x48, 0x50] ++ arr 0x1000 0x80 36 [8, 0x10, 0x18, 0x20, 0x28, 0x30, 0x38] ++ arr 0x10000 0x20 256 [0x10, 0x18]
  | 8 => arr 0 0x100 2 [8, 0x10, 0x18, 0x20, 0x28]
  | 9 => arr 0 0x100 28 [8, 0x10, 0x18, 0x20, 0x28, 0x30]
  | 10 => arr 0 0x100 2 [8, 0x10, 0x18]
  | _ => []

/-- The blocks of the map (R593); 7 and 11 name none. -/
def blkList : List Nat := [0, 1, 2, 3, 4, 5, 6, 8, 9, 10, 12]

/-- Copy every counter of a block into its holding register. -/
def State.snap (s : State) (b : Nat) : State :=
  if !blkList.contains b then s
  else s.modRegs fun r => { r with
    snapAt := FMap.set 0 r.snapAt b (s.beacon % 2 ^ 64)
    holds := (counterOffs b).foldl (fun m o => FMap.set 0 m (blkBase b + o) (((s.blkPair b o).map (·.1)).getD 0 % 2 ^ 64)) r.holds }

/-- Snapshot every block whose bit is set, on one edge: a snapshot changes no counter. -/
def State.snapMask (s : State) (mask : Nat) : State := (blkList.filter fun b => mask.testBit b).foldl State.snap s

/-- SNAP (R590): SNAP_CTRL of a block. -/
def execSnapBlock (blk : BitVec 4) (s : State) : Out :=
  .next (s.pfWrite (blkBase blk.toNat + 0xFFF10) fun s =>
    if blkList.contains blk.toNat then s.snap blk.toNat else s.accErr 0 (blkBase blk.toNat + 0xFFF10) 4 true)

/-- SNAP_ALL (R590). -/
def execSnapAll (s : State) : Out := .next (s.pfWrite 0xFFF10 fun s => s.snapMask (2 ^ 13 - 1))

/-- SNAP (R483): a trigger. -/
def execSnapTrigger (n : BitVec 8) (s : State) : Out := .next (s.fire n.toNat 2 fun t s => s.snapMask (t.arg.toNat % 2 ^ 13))

/-! ### MEMORY (R246, R248, R251) -/

/-- A field of a register word. -/
def bitsOf (v : Word) (lo n : Nat) : Nat := v.toNat / 2 ^ lo % 2 ^ n

/-- The write is refused. -/
def State.floorRefused (s : State) (d : Nat) : State := { s with mem := { s.mem with refused := true, lastDom := d } }

/-- MEM_DOM_BW: refused beyond 224 units in a tier, or with a nonzero cap below its floor. -/
def State.memBw (s : State) (d : Nat) (v : Word) : State :=
  let m := { s.memDom d with bw := v }
  let t := s.setMemDom d m
  let bad := fun (lo : Nat) => bitsOf v (lo + 8) 8 != 0 && decide (bitsOf v (lo + 8) 8 < bitsOf v lo 8)
  if 224 < t.floorSum false ∨ 224 < t.floorSum true ∨ bad 0 = true ∨ bad 16 = true then s.floorRefused d else t

/-- MEM_DOM_BW_WRITE (R246). -/
def execMemDomBwWrite (d : BitVec 8) (val : BitVec 32) (s : State) : Out :=
  .next (s.pfWrite (0x910000 + 0x20 * d.toNat) fun s => s.memBw d.toNat val)

/-- MEM_DOM_CC: refused beyond 3,072 or 768 lines. -/
def State.memCc (s : State) (d : Nat) (v : Word) : State :=
  let t := s.setMemDom d { s.memDom d with cc := BitVec.ofNat 32 (bitsOf v 0 12 + bitsOf v 16 10 * 2 ^ 16) }
  let sum := fun (lo n : Nat) => sumBy (fun (p : Nat × MemDom) => bitsOf p.2.cc lo n) t.mem.doms
  if 3072 < sum 0 12 ∨ 768 < sum 16 10 then s.floorRefused d else t

/-- MEM_DOM_CC_WRITE (R248). -/
def execMemDomCcWrite (d : BitVec 8) (val : BitVec 32) (s : State) : Out :=
  .next (s.pfWrite (0x910004 + 0x20 * d.toNat) fun s => s.memCc d.toNat val)

def State.wrMem (s : State) (o : Nat) (v : Word) : State :=
  if o = 0x1F00 then (if v.getLsbD 0 then { s with mem := { s.mem with refused := false } } else s)
  else match arrAt o 0x10000 0x20 256 with
    | some (d, i) =>
      if i = 0 then s.memBw d v else if i = 4 then s.memCc d v
      else if i = 8 then s.setMemDom d { s.memDom d with qh := BitVec.ofNat 32 (bitsOf v 0 19) }
      else if i = 0xC then s.setMemDom d { s.memDom d with qr := BitVec.ofNat 32 (bitsOf v 0 23) } else s
    | none => s

/-! ### FABRIC (R282, R286, R295) -/

def State.modFab (s : State) (f : FabSt → FabSt) : State := { s with fab := f s.fab }

/-- FAB_WSEL_WRITE (R282). -/
def execFabWselWrite (val : BitVec 32) (s : State) : Out :=
  .next (s.pfWrite 0x600010 fun s => s.modFab fun f => { f with wsel := bitsOf val 0 2 })

/-- FAB_WSETs: four weights from 1 to 97 with a sum of 100, or refused. -/
def State.wset (s : State) (i : Nat) (v : Word) : State :=
  let l := [bitsOf v 0 8, bitsOf v 8 8, bitsOf v 16 8, bitsOf v 24 8]
  if l.all (fun w => decide (1 ≤ w ∧ w ≤ 97)) && sumBy id l == 100 then
    let w : WSet := { token := bitsOf v 0 8, reduce := bitsOf v 8 8, bulk := bitsOf v 16 8, ctrl := bitsOf v 24 8 }
    s.modFab fun f => { f with wsets := FMap.set {} f.wsets i w }
  else s.modFab fun f => { f with wrefused := true }

/-- FAB_WSET_WRITE (R282). -/
def execFabWsetWrite (set : BitVec 2) (val : BitVec 32) (s : State) : Out :=
  .next (s.pfWrite (0x600020 + 4 * set.toNat) fun s => s.wset set.toNat val)

/-- Two segments share an entry: an empty one shares none. -/
def segsMeet (a b : EhtSeg) : Bool :=
  decide (0 < a.len) && decide (0 < b.len) && decide (a.base < b.base + b.len) && decide (b.base < a.base + a.len)

/-- FAB_EHT_SEGd: locked while the domain is bound; refused on an overlap or past the table's end. -/
def State.ehtSeg (s : State) (d : Nat) (v : Word) : State :=
  let e : EhtSeg := FMap.get {} s.fab.segs d
  let n : EhtSeg := { e with base := bitsOf v 0 8, len := bitsOf v 8 9 }
  if (s.dom d).binding.isSome then (if n = e then s else s.lockErr 0 (0x610008 + 0x20 * d))
  else if 256 < n.base + n.len ∨ (s.fab.segs.any fun p => p.1 != d && segsMeet p.2 n) = true then
    s.modFab fun f => { f with segrefused := true }
  else s.modFab fun f => { f with segs := FMap.set {} f.segs d n }

/-- FAB_EHT_SEG_WRITE (R286). -/
def execFabEhtSegWrite (d : BitVec 8) (val : BitVec 32) (s : State) : Out :=
  .next (s.pfWrite (0x610008 + 0x20 * d.toNat) fun s => s.ehtSeg d.toNat val)

/-- FAB_LROUTEm, FAB_GEXIT and FAB_GNMINg at their block offset: reserved values are refused; packets that wait look again (R276). -/
def State.fabRoute (s : State) (o : Nat) (v : Word) : State :=
  let refuse := s.modFab fun f => { f with rrefused := true }
  match arrAt o 0x4000 4 32, arrAt o 0x8000 4 4096, arrAt o 0xC000 4 256 with
  | some (m, _), _, _ =>
    if 31 ≤ bitsOf v 0 6 ∧ bitsOf v 0 6 < 63 then refuse
    else s.onFab fun f => ({ f with lroute := FMap.insert f.lroute m (bitsOf v 0 6) } : FabSt).tablesChanged
  | none, some (k, _), _ => s.onFab fun f => ({ f with gexit := FMap.insert f.gexit k (bitsOf v 0 8) } : FabSt).tablesChanged
  | none, none, some (g, _) =>
    if 129 ≤ bitsOf v 0 8 then refuse else s.onFab fun f => ({ f with gnmin := FMap.insert f.gnmin g (bitsOf v 0 8) } : FabSt).tablesChanged
  | none, none, none => s

/-- FAB_ROUTE_WRITE (R295). -/
def execFabRouteWrite (off : BitVec 16) (val : BitVec 32) (s : State) : Out :=
  .next (s.pfWrite (0x600000 + off.toNat / 4 * 4) fun s => s.fabRoute (off.toNat / 4 * 4) val)

/-- FAB_LCTRLn: EN, FEC_REQ, RETRAIN (R253, R256, R265). -/
def State.lctrl (s : State) (n : Nat) (v : Word) : State :=
  let was := (s.link n).enab
  let s := s.modLink n fun l => { l with enab := v.getLsbD 0, fecReq := v.getLsbD 1 }
  let s := if was && !v.getLsbD 0 then s.linkOff n
    else if !was && v.getLsbD 0 then s.startLink n false else s
  if v.getLsbD 2 then s.fullRetrain n else s

/-- RETRAIN (R265). -/
def execLinkRetrainFull (n : BitVec 6) (s : State) : Out :=
  .next (if 36 ≤ n.toNat then s else s.pfWrite (0x601004 + 0x80 * n.toNat) fun s => s.fullRetrain n.toNat)

/-- FAB_MINSVN: SVN locked by LOCK as it was before the access (R580). -/
def State.minSvn (s : State) (v : Word) : State :=
  let f := s.fab
  let new := bitsOf v 0 8
  let t := s.modFab fun f => { f with
    minSvn := if f.minSvnLock then f.minSvn else new, minSvnLock := f.minSvnLock || v.getLsbD 8 }
  if f.minSvnLock && (new != f.minSvn || !v.getLsbD 8) then t.lockErr 0 0x60000C else t

def State.wrFab (s : State) (o : Nat) (v : Word) : State :=
  if o = 8 then s.modFab fun f => { f with
    wrefused := f.wrefused && !v.getLsbD 0, segrefused := f.segrefused && !v.getLsbD 2, rrefused := f.rrefused && !v.getLsbD 3 }
  else if o = 0xC then s.minSvn v
  else if o = 0x10 then s.modFab fun f => { f with wsel := bitsOf v 0 2 }
  else if o = 0x14 then s.modFab fun f => { f with adapt := v.getLsbD 0, thresh := bitsOf v 8 8 }
  else if 0x4000 ≤ o ∧ o < 0x10000 then s.fabRoute o v
  else match arrAt o 0x20 4 4, arrAt o 0x1000 0x80 36, arrAt o 0x10000 0x20 256 with
    | some (i, _), _, _ => s.wset i v
    | none, some (n, i), _ => if i = 4 then s.lctrl n v else s
    | none, none, some (d, i) => if i = 8 then s.ehtSeg d v else s
    | none, none, none => s

/-! ### BEACON (R475, R476, R482 to R485, R492, R499, R501, R504) -/

def State.modBcn (s : State) (f : BcnSt → BcnSt) : State := { s with bcn := f s.bcn }

/-- BCN_CTRL: MODE is locked from the first lock on. -/
def State.bcnCtrl (s : State) (v : Word) : State :=
  if s.bcn.first then (if bitsOf v 0 2 = s.bcn.mode then s else s.lockErr 0 0x40000C) else s.setBcnMode (bitsOf v 0 2)

/-- BCN_CTRL_WRITE (R475). -/
def execBcnCtrlWrite (val : BitVec 32) (s : State) : Out := .next (s.pfWrite 0x40000C fun s => s.bcnCtrl val)

/-- TS_QUANTUM: 250 to 100,000 µs in steps of 250. -/
def State.tsQuantum (s : State) (v : Word) : State :=
  let q := bitsOf v 0 17
  if q < 250 ∨ 100000 < q ∨ q % 250 ≠ 0 then s.modBcn fun b => { b with qrefused := true }
  else s.modBcn fun b => { b with newQuantum := some q }

/-- TS_QUANTUM_WRITE (R492). -/
def execTsQuantumWrite (val : BitVec 32) (s : State) : Out := .next (s.pfWrite 0x400100 fun s => s.tsQuantum val)

/-- ARB_DOMd: TOKEN floors sum to at most 224, or the write is refused. -/
def State.arbDom (s : State) (d : Nat) (v : Word) : State :=
  let x : ArbDom := { s.arb d with weight := bitsOf v 0 8, pceil := bitsOf v 8 3, tokFloor := bitsOf v 16 8 }
  let t := s.modBcn fun b => { b with arb := FMap.set {} b.arb d x }
  if 224 < sumBy (fun (p : Nat × ArbDom) => p.2.tokFloor) t.bcn.arb then s.modBcn fun b => { b with tfrefused := true } else t

/-- ARB_DOM_WRITE (R498, R501). -/
def execArbDomWrite (d : BitVec 8) (val : BitVec 32) (s : State) : Out :=
  .next (s.pfWrite (0x410000 + 0x10 * d.toNat) fun s => s.arbDom d.toNat val)

/-- TRIG_CTRLn of a PF0 slot: ACTION, MODE and COUNT are locked by EN as it was; EN arms or disarms (R484, R485, R580). -/
def State.trigCtrl (s : State) (n : Nat) (v : Word) : State :=
  let t := s.trig n
  let x := { t with action := bitsOf v 0 4, mode := v.getLsbD 4, count := bitsOf v 18 14 }
  let t' := { t with late := t.late && !v.getLsbD 7 }
  if t.en then
    let s' := s.setTrig n (if v.getLsbD 5 then t' else { t' with en := false })
    if x = t then s' else s'.lockErr 0 (0x401018 + 0x20 * n)
  else
    let x := { x with late := t'.late }
    if v.getLsbD 5 then s.armTrig n x else s.setTrig n x

/-- A PF0 write to a trigger slot: only slots 64 to 127 are PF0's (R482). -/
def State.slotWrite (s : State) (n off : Nat) (act : State → State) : State :=
  if 64 ≤ n ∧ n < 128 then act s else s.accErr 0 off 8 true

/-- TRIG_ARM (R484). -/
def execTrigArm (n : BitVec 8) (val : BitVec 32) (s : State) : Out :=
  .next (s.pfWrite (0x401018 + 0x20 * n.toNat) fun s =>
    s.slotWrite n.toNat (0x401018 + 0x20 * n.toNat) fun s => s.trigCtrl n.toNat (val ||| 0x20))

/-- A locked field of a slot: kept, and recorded when it would change. -/
def State.trigLck (s : State) (n off : Nat) (x : Trig) : State :=
  if (s.trig n).en then (if x = s.trig n then s else s.lockErr 0 off) else s.setTrig n x

/-- BCN_PACE: the step times kept are the pacing context's (R488). -/
def State.pace (s : State) (v : Word) : State :=
  let t := s.modBcn fun b => { b with paceDom := bitsOf v 0 8, paceCtx := bitsOf v 8 16, paceSet := v.getLsbD 24 }
  if t.pacing = s.pacing then t else t.modBcn fun b => { b with steps := [] }

def State.wrBcn (s : State) (o : Nat) (v : Word) : State :=
  if o = 0xC then s.bcnCtrl v
  else if o = 0x30 then s.modBcn fun b => { b with
    trefused := b.trefused && !v.getLsbD 0, qrefused := b.qrefused && !v.getLsbD 1
    mrefused := b.mrefused && !v.getLsbD 2, tfrefused := b.tfrefused && !v.getLsbD 3 }
  else if o = 0x100 then s.tsQuantum v
  else if o = 0x108 then s.pace v
  else match arrAt o 0x1000 0x20 256, arrAt o 0x3000 4 256, arrAt o 0x10000 0x10 256 with
    | some (n, i), _, _ =>
      s.slotWrite n (0x400000 + o) fun s =>
        if i = 0x18 then s.trigCtrl n v
        else if i = 0x1C then s.trigLck n (0x400000 + o) { s.trig n with word := bitsOf v 0 9, inc := bitsOf v 9 23 } else s
    | none, some (n, _), _ => s.slotWrite n (0x400000 + o) id
    | none, none, some (d, i) => if i = 0 then s.arbDom d v else s
    | none, none, none => s

/-! ### POWER, FIRMWARE, SECURITY, HOST, GLOBAL -/

def State.wrPower (s : State) (o : Nat) (v : Word) : State :=
  if o = 4 then s.pwrCap v
  else if o = 0xC then s.modPwr fun p => { p with
    capRefused := p.capRefused && !v.getLsbD 0, ageRefused := p.ageRefused && !v.getLsbD 1, calRefused := p.calRefused && !v.getLsbD 2 }
  else if o = 0x100 then s.ageCtrl v
  else if o = 0x200 then s.calCtrl v
  else if o = 0x4004 then s.gutCtrl v
  else match arrAt o 0x4010 8 6 with
    | some (c, i) => s.gutLevel c (i == 4) v
    | none => s

def State.modSoot (s : State) (f : SootSt → SootSt) : State := { s with mgmt := { s.mgmt with soot := f s.mgmt.soot } }

/-- SOOT_CFG (R458): EN stays 0 with LOG2 or SOOT_BASE out of range; setting EN writes the buffered entries, oldest first. -/
def State.sootCfg (s : State) (v : Word) : State :=
  let r := s.mgmt.soot
  let lg := bitsOf v 0 5
  let en := v.getLsbD 8 && decide (6 ≤ lg ∧ lg ≤ 20) && r.base.toNat % 4096 == 0
  let t := s.modSoot fun r => { r with log2 := lg, en := en }
  if en && !r.en then r.buf.foldl State.sootWrite (t.modSoot fun r => { r with buf := [] }) else t

/-- SOOT_ENABLE (R458). -/
def execSootEnable (val : BitVec 32) (s : State) : Out := .next (s.pfWrite 0x300108 fun s => s.sootCfg (val ||| 0x100))

/-- SOOT_INTERRUPT (R458): 100 µs after the last, for entries written since. -/
def execSootInterrupt (s : State) : Out :=
  .next (
    let r := s.mgmt.soot
    if r.fresh && decide (r.irqAt + 100000 ≤ s.beacon) then
      (s.modSoot fun r => { r with fresh := false, irqAt := s.beacon }).raiseIrq 0 1
    else s)

/-- A word of a host-to-firmware window is written: dropped while GO reads 1 (R442). -/
def State.winWrite (s : State) (fn o : Nat) (bs : List Byte) : State :=
  s.modMbx fn fun m => if m.go ∨ 0xFE0 ≤ o then m else { m with win := Memory.wrN m.win o bs }

/-- A full write into a mailbox's pair of windows, `o` from the first (R442, R572). -/
def State.mbxWord (s : State) (fn o off : Nat) (v : Word) : State :=
  if o < 0xFE0 then s.winWrite fn o (leBytes 4 v.toNat)
  else if o = 0xFF0 then (if v.getLsbD 0 then s.mbxSubmit fn else s)
  else if o = 0x1FF0 then (if v.getLsbD 0 then s.modMbx fn fun m => { m with ready := false } else s)
  else if 0x1000 ≤ o then s.accErr fn off 8 true
  else s

def State.wrFw (s : State) (o : Nat) (v : Word) (a : AccIn) : State :=
  if o = 0x10 then s.modFw fun f => { f with len := bitsOf v 0 25 }
  else if o = 0x14 then (if v.getLsbD 0 then (s.loadBundle a.host s.mgmt.fw.len 1).1 else s)
  else if o = 0x108 then s.sootCfg v
  else if o = 0x110 then s.modSoot fun r => { r with cons := v }
  else if o = 0x304 then (if s.sec.lc.factory then s.modNvs fun n => { n with tight := v.getLsbD 0 } else s)
  else if o = 0x404 then s.usbCtrl v
  else if 0x1000 ≤ o ∧ o < 0x3000 then s.mbxWord 0 (o - 0x1000) (0x300000 + o) v
  else match arrAt o 0x200 4 32 with
    | some (i, _) => if i < 2 then s else s.modSoot fun r => { r with trace := FMap.set 0 r.trace i v }
    | none => s

/-- SEC_ALARM_CFGe: a level outside its floor and ceiling is refused (R399). -/
def State.alarmCfg (s : State) (e : Nat) (v : Word) : State :=
  match alarmRange e with
  | some (fl, df, ce) => if bitsOf v 0 2 < fl ∨ ce < bitsOf v 0 2 then s else s.modSec fun x => { x with cfg := FMap.set df x.cfg e (bitsOf v 0 2) }
  | none => s

def State.wrSec (s : State) (o : Nat) (v : Word) : State :=
  if o = 0x50 then (if v.getLsbD 10 then s.modSec fun x => { x with a1seen := false } else s)
  else if o = 0x68 then s.modSec fun x => { x with otpAddr := bitsOf v 0 13 }
  else if o = 0x6C then s.modSec fun x => { x with otpData := v }
  else match arrAt o 0x104 4 18 with
    | some (i, _) => s.alarmCfg (i + 1) v
    | none => s

/-- A dword of a function's MSI-X table (R328): a vector that is unmasked with its pending bit set is sent. -/
def State.msixWrite (s : State) (fn i : Nat) (v : Word) : State :=
  let s := if fn = 0 then s.modRegs fun r => { r with msix := FMap.insert r.msix i v }
    else s.modDom (fn - 1) fun m => { m with msix := FMap.insert m.msix i v }
  let k := fn * 128 + i / 4
  if FMap.get false s.mgmt.regs.pba k && !s.msixMasked fn (i / 4) then
    (s.modRegs fun r => { r with pba := FMap.set false r.pba k false }).raiseIrq fn (i / 4)
  else s

/-! ### The indirect pair (R585 to R589) -/

/-- One field of the counter store's layout at byte `o` of a controller's share (R235): the C of a page, its parity bits; the rest has
no layout in the manual and reads as a free value (log 50). -/
def MemCtl.cstore (x : MemCtl) (pages o : Nat) (free : Word) : Word :=
  if o < 4 * pages then BitVec.ofNat 32 (FMap.get 0 x.c (o / 4))
  else if o < 4 * pages + pages / 8 then
    BitVec.ofNat 32 ((List.range 32).foldl (fun v k => v + bitAt (FMap.get false x.parity (8 * (o - 4 * pages) + k)) k) 0)
  else free

/-- A word of the counter store. -/
def State.cstoreWord (s : State) (o : Nat) (free : Word) : Word :=
  let rsv := decide (36 * 2 ^ 20 ≤ o)
  let c := if rsv then 12 + (o - 36 * 2 ^ 20) / (3 * 2 ^ 19) else o / (3 * 2 ^ 20)
  let at_ := if rsv then (o - 36 * 2 ^ 20) % (3 * 2 ^ 19) else o % (3 * 2 ^ 20)
  (s.ctl c).cstore (if rsv then 380928 else 761856) at_ free

/-- A counter slot as it lies in its sector (R455). -/
def CtrSlot.bytes (x : CtrSlot) (id : Nat) : List Byte :=
  match x with
  | .valid v q =>
    let b := leBytes 8 v.toNat ++ leBytes 4 q ++ leBytes 1 id ++ List.replicate 15 0
    b ++ leBytes 4 (crc32c b).toNat ++ List.replicate 32 0xFF
  | _ => List.replicate 64 0xFF

/-- A word of the NVS (R454): banks 2, 3 and 7 have a layout in the manual; the cells of the others, and of a BAD slot, read as a free
value (log 50). -/
def State.nvsWord (s : State) (o : Nat) (free : Word) : Word :=
  let b := o / 2 ^ 19
  let i := o % 2 ^ 19
  let cut := fun (l : List Byte) => BitVec.ofNat 32 (leNat (((l ++ List.replicate 4 0xFF).drop (min i l.length)).take 4))
  if b = 2 then cut s.mgmt.nvs.bcrA
  else if b = 3 then cut s.mgmt.nvs.bcrB
  else if b = 7 then
    let x := (FMap.get [.erased, .erased, .erased] s.mgmt.nvs.ctrs (i / 12288)).getD (i / 4096 % 3) .erased
    if i % 4096 < 64 ∧ i / 12288 < 42 then
      (if x = .bad then free else BitVec.ofNat 32 (leNat (((x.bytes (i / 12288)).drop (i % 4096)).take 4)))
    else 0xFFFFFFFF
  else free

/-- A word of the SERDES space (R588); margins, taps after training and corrections by lane are read from the hardware (log 32). -/
def State.serdesWord (s : State) (o : Nat) (free : Word) : Word :=
  let n := o / 2 ^ 16
  let l := o / 2 ^ 12 % 16
  let r := o % 2 ^ 12
  let k := s.link n
  if 8 ≤ l then 0
  else if r = 0 then BitVec.ofNat 32 (bitAt (k.carries && !(k.width4 && k.badLanes.getLsbD l)) 0 + bitAt (k.badLanes.getLsbD l) 1) ||| (free &&& 4)
  else if r = 4 then free &&& 0xFFFF
  else if r = 8 then (match FMap.find? s.mgmt.regs.phy (2 ^ 28 + o) with
    | some v => v
    | none => if k.carries then free &&& 0x3FFFFFFF else 0)
  else if r = 0x10 ∨ r = 0x14 then free else 0

/-- A word of the MEMPHY space (R589). -/
def State.memphyWord (s : State) (o : Nat) (free : Word) : Word :=
  let c := o / 2 ^ 20
  let k := o / 2 ^ 12 % 256
  let r := o % 2 ^ 12
  let p := s.mgmt.pwr
  let w := FMap.find? p.wanted ((0x40 + c) * 256 + k)
  if (if c < 12 then 32 else 4) ≤ k then 0
  else if r = 0 then BitVec.ofNat 32 (bitAt s.memUp 0 + bitAt w.isSome 1 + bitAt (w == some true) 2)
  else if r = 4 then BitVec.ofNat 32 (FMap.get 0 p.drift (c * 256 + k)
    + (match FMap.find? p.trained c with | some t => t | none => free.toNat % 256) * 2 ^ 8)
  else if r = 8 then (match FMap.find? s.mgmt.regs.phy (2 ^ 29 + o) with
    | some v => v
    | none => if s.memUp then free &&& 0xFF else 0)
  else if r = 0x10 then BitVec.ofNat 32 (FMap.get 0 p.cals (c * 256 + k) % 2 ^ 32)
  else if r = 0x14 then BitVec.ofNat 32 (FMap.get 0 p.cals (c * 256 + k) / 2 ^ 32) else 0

/-- The word at IND_ADDR, or none where the read is refused (R586, R587). -/
def State.indWord (s : State) : Option Word :=
  let a := s.mgmt.regs.indAddr.toNat
  let o := a % 2 ^ 28
  let f := Config.measured s.free
  let sp := a / 2 ^ 28
  if sp = 1 then (if o < 36 * 2 ^ 16 then some (s.serdesWord o f) else none)
  else if sp = 2 then (if o < 28 * 2 ^ 20 then some (s.memphyWord o f) else none)
  else if sp = 3 then (if o < 2 ^ 23 ∧ s.sec.lc.factory = true then some (s.nvsWord o f) else none)
  else if sp = 4 then (if o < 8192 then
    some (BitVec.ofNat 32 (leNat (Memory.rdN (if s.mgmt.regs.tight then s.sec.otpTight else s.sec.otp) o 4))) else none)
  else if sp = 5 then (if o < 60 * 2 ^ 20 ∧ s.sec.lc.factory = true then some (s.cstoreWord o f) else none)
  else if sp = 6 then (if o < 2 ^ 21 then
    some (((FMap.get 0 (if o < 2 ^ 20 then s.fab.bankA else s.fab.bankB) (o % 2 ^ 20 / 16)).extractLsb' (32 * (o / 4 % 4)) 32)) else none)
  else none

/-- An access to IND_DATA was refused. -/
def State.indRefuse (s : State) (wr : Bool) : State := (s.modRegs fun r => { r with indErr := true }).accErr 0 0x48 6 wr

/-- The offset advances by 4 within its space. -/
def State.indAdvance (s : State) : State :=
  s.modRegs fun r =>
    let a := r.indAddr.toNat
    if r.ainc then { r with indAddr := BitVec.ofNat 32 (a / 2 ^ 28 * 2 ^ 28 + (a % 2 ^ 28 + 4) % 2 ^ 28) } else r

/-- A full read of IND_DATA. -/
def State.indRead (s : State) : State × Word :=
  match s.indWord with
  | some w => ((s.drew 1).indAdvance, w)
  | none => ((s.indRefuse false).indAdvance, 0)

/-- A full write of IND_DATA: the RW fields of LANE_TXFIR and CH_VREF, in TEST, MFG and RMA only. -/
def State.indWrite (s : State) (v : Word) : State :=
  let a := s.mgmt.regs.indAddr.toNat
  let o := a % 2 ^ 28
  let put := fun (w : Word) => s.modRegs fun r => { r with phy := FMap.insert r.phy a w }
  let ok1 := a / 2 ^ 28 == 1 && decide (o < 36 * 2 ^ 16 ∧ o / 2 ^ 12 % 16 < 8 ∧ o % 2 ^ 12 = 8)
  let ok2 := a / 2 ^ 28 == 2 && decide (o < 28 * 2 ^ 20 ∧ o / 2 ^ 12 % 256 < (if o / 2 ^ 20 < 12 then 32 else 4) ∧ o % 2 ^ 12 = 8)
  (if !s.sec.lc.factory then s.indRefuse true
    else if ok1 then put (v &&& 0x7FFFFFFF) else if ok2 then put (v &&& 0x1FF) else s.indRefuse true).indAdvance

/-- IND_DATA_READ (R586): a full read; whether an NVS word that it reads raw holds a bit that went wrong is a free value (R448, log 39). -/
def execIndDataRead (s : State) : Out :=
  .next (if !s.pf0Up then s
    else if s.snufCloses 0x48 then s
    else
      let a := s.mgmt.regs.indAddr.toNat
      let r := s.indRead
      -- a raw read of an NVS word that its ECC corrects (R448)
      let r := if a / 2 ^ 28 == 3 && Config.nvsWordBad s.free && s.indWord.isSome then
          (r.1.nvsRead [(BitVec.ofNat 4 (a / 2 ^ 19), BitVec.ofNat 7 (a / 2 ^ 12))] (· == (a / 2 ^ 19 % 16, a / 2 ^ 12 % 128)), r.2)
        else r
      r.1.modRegs fun x => { x with rsp := some (.data [r.2]) })

/-- IND_DATA_WRITE (R586). -/
def execIndDataWrite (val : BitVec 32) (s : State) : Out := .next (s.pfWrite 0x48 fun s => s.indWrite val)

def State.wrGlobal (s : State) (o : Nat) (v : Word) (a : AccIn) : State :=
  if o = 0x40 then s.modRegs fun r => { r with indAddr := v &&& 0xFFFFFFFC }
  else if o = 0x44 then s.modRegs fun r => { r with ainc := v.getLsbD 0, tight := v.getLsbD 1, indErr := r.indErr && !v.getLsbD 2 }
  else if o = 0x48 then s.indWrite v
  else if o = 0x114 then s.startReq v a.io
  else s

def State.wrHost (s : State) (o : Nat) (v : Word) : State :=
  match arrAt o 0xE000 4 128 with
  | some (i, _) => s.msixWrite 0 i v
  | none => s

/-- BLK_ERR and SNAP_CTRL (R590, R591). -/
def State.wrCommon (s : State) (b o : Nat) (v : Word) : State :=
  if o = 0xFFF00 then s.modRegs fun r => { r with err := FMap.modify 0 r.err b fun e => e &&& (7 ^^^ bitsOf v 0 3) }
  else if o = 0xFFF10 then
    let s := if v.getLsbD 0 then s.snap b else s
    if b = 0 && v.getLsbD 1 then s.snapMask (2 ^ 13 - 1) else s
  else s

/-- A full 32-bit write to a management register that is no pair and not guarded. -/
def State.pfWord32 (s : State) (off : Nat) (v : Word) (a : AccIn) : State :=
  let b := blockOf off
  let o := off - blkBase b
  if 0x80000 ≤ o then s.wrCommon b o v
  else match b with
    | 0 => s.wrGlobal o v a
    | 1 => s.wrHost o v
    | 2 => s.wrSec o v
    | 3 => s.wrFw o v a
    | 4 => s.wrBcn o v
    | 5 => s.wrPower o v
    | 6 => s.wrFab o v
    | 9 => s.wrMem o v
    | _ => s

/-! ### Pairs (R575, R576) -/

/-- The pair at a management offset can be written. -/
def pfPairRW (off : Nat) : Bool :=
  [0x200060, 0x300008, 0x300100, 0x400010].contains off
    || (match arrAt off 0x401000 0x20 256 with | some (_, i) => i == 0 || i == 8 || i == 0x10 | none => false)

/-- BCN_EPOCH: locked from the first lock on. -/
def State.bcnEpoch (s : State) (x : DWord) : State :=
  if s.bcn.first then (if x = s.bcn.epoch then s else s.lockErr 0 0x400010) else s.setEpoch x

/-- Both words of a writable management pair are applied. -/
def State.pfPairWrite (s : State) (off : Nat) (x : DWord) : State :=
  if off = 0x200060 then s.modSec fun y => { y with authAddr := x }
  else if off = 0x300008 then s.modFw fun f => { f with addr := x }
  else if off = 0x300100 then s.modSoot fun r => { r with base := x }
  else if off = 0x400010 then s.bcnEpoch x
  else match arrAt off 0x401000 0x20 256 with
    | some (n, i) => s.slotWrite n off fun s =>
        let t := s.trig n
        s.trigLck n off (if i = 0 then { t with time := x } else if i = 8 then { t with period := x } else { t with arg := x })
    | none => s

/-! ### Virtual functions (R215, R338, R339, R361, R369) -/

/-- SQ_CFGq: LOG2 is locked by EN as it was; EN enables or disables (R338, R343, R580). -/
def State.sqCfg (s : State) (d q : Nat) (v : Word) : State :=
  let x := s.queue d q
  let s := s.setQueue d q { x with weight := bitsOf v 8 8, log2 := if x.en then x.log2 else bitsOf v 0 5 }
  let s := if x.en && bitsOf v 0 5 != x.log2 then s.lockErr (d + 1) (0x410 + 0x20 * q) else s
  if x.en && !v.getLsbD 16 then s.disableQueue d q else if !x.en && v.getLsbD 16 then s.enableQueue d q else s

/-- SQ_BASEq and CQ_BASEq. -/
def State.sqBase (s : State) (d q : Nat) (cq : Bool) (x : DWord) : State :=
  let y := s.queue d q
  let z := if cq then { y with cqBase := x } else { y with sqBase := x }
  if y.en then (if z = y then s else s.lockErr (d + 1) (0x400 + 0x20 * q + (if cq then 8 else 0))) else s.setQueue d q z

/-- The pair at an offset of a VF can be written. -/
def vfPairRW (o : Nat) : Bool :=
  match arrAt o 0x400 0x20 64 with | some (_, i) => i == 0 || i == 8 | none => false

/-- A full 32-bit write to a VF register that is no pair. -/
def State.vfWord32 (s : State) (d o : Nat) (v : Word) (a : AccIn) : State :=
  if o = 0x60 then s.modDom d fun m => { m with mb := { m.mb with
      word := bitsOf v 0 9, en := v.getLsbD 15, ctx := bitsOf v 16 16
      start := if v.getLsbD 15 && !m.mb.en then s.beacon else m.mb.start } }
  else if o = 0xF0 then s.modRegs fun r => { r with err := FMap.modify 0 r.err (1001 + d) fun e => e &&& (3 ^^^ bitsOf v 0 2) }
  else if o = 0x8004 then s.modDom d fun m => { m with elog := { m.elog with cons := v } }
  else if 0x2000 ≤ o ∧ o < 0x4000 then s.mbxWord (d + 1) (o - 0x2000) o v
  else match arrAt o 0x400 0x20 64, arrAt o 0x1000 8 64, arrAt o 0x4000 8 512, arrAt o 0x6000 4 260 with
    | some (q, i), _, _, _ => if i = 0x10 then s.sqCfg d q v else s
    | none, some (q, i), _, _ => if i = 0 then s.ringTail d q v.toNat a.ring else s.ringHead d q v.toNat
    | none, none, some (n, i), _ => s.mirror d n (i == 4) v
    | none, none, none, some (i, _) => s.msixWrite (d + 1) i v
    | none, none, none, none => s

end Sys2Proof.Machine
end

