-- ==== Sys2Proof/Machine/RegAccess.lean ====
section
/-! DEFINITION. Accesses to a function's BAR0 (R568 to R577, R580 to R584): the checks in their order, and what a read and a write then do. -/

namespace Sys2Proof.Machine

/-! ### Classes of accesses (R568 to R573) -/

/-- An unaligned access of `len` bytes at `off`. -/
def unalignedAcc (off len : Nat) (gap : Bool) : Bool :=
  gap || (len == 2 && off % 2 != 0) || (len == 3 && decide (1 < off % 4)) || (len == 4 && off % 4 != 0) || (len == 8 && off % 8 != 0)

/-- The access lies in one of these regions. -/
def inRegions (l : List (Nat × Nat)) (off len : Nat) : Bool := l.any fun r => decide (r.1 ≤ off ∧ off + len ≤ r.2)

/-- The split regions and, for reads, the multi-word regions (R573). -/
def wideRegions (pf rd : Bool) : List (Nat × Nat) :=
  if pf then [(0x301000, 0x301FE0), (0x10E000, 0x10E200), (0x10F000, 0x10F008)] ++ (if rd then [(0x302000, 0x303000)] else [])
  else [(0x1000, 0x1200), (0x2000, 0x2FE0), (0x4000, 0x5000), (0x6000, 0x6410), (0x7000, 0x7010)]
    ++ (if rd then [(0x3000, 0x4000), (0xC000, 0x10000)] else [])

/-- The byte-writable region (R572). -/
def byteRegion (pf : Bool) : List (Nat × Nat) := [if pf then (0x301000, 0x301FE0) else (0x2000, 0x2FE0)]

/-- The pair at an offset of a function. -/
def State.pairAt (s : State) (fn off : Nat) : Option Nat := if fn = 0 then s.pfPair off else s.vfPair (fn - 1) off

/-- A wide access that is not allowed: an 8-byte access to an aligned pair is not wide, and an aligned 8-byte read of other registers is
two reads (R573). -/
def State.wideRefused (s : State) (fn off len : Nat) (rd : Bool) : Bool :=
  decide (4 < len) && !(len == 8 && (rd || (s.pairAt fn off).isSome)) && !inRegions (wideRegions (fn == 0) rd) off len

/-- A reserved region (R570, R594). -/
def State.reservedAcc (s : State) (fn off : Nat) : Bool :=
  if fn = 0 then
    let o := off - blkBase (blockOf off)
    decide (16 ≤ blockOf off) || (decide (0x80000 ≤ o) && !(decide (0xFFF00 ≤ o ∧ o < 0xFFF20)) && (s.pfPair (off / 8 * 8)).isNone)
  else !inRegions [(0, 0x1000), (0x1000, 0x1200), (0x2000, 0x4000), (0x4000, 0x5800), (0x6000, 0x6410), (0x7000, 0x7010), (0x8000, 0x800C),
    (0xC000, 0x10000)] off 1

/-- The guarded register (R584) whose value or complement offset an access touches. -/
def guardedAt (off len : Nat) : Option Nat :=
  [0x200010, 0x200020, 0x200030, 0x200040, 0x500030].find? fun g => decide (off < g + 8 ∧ g < off + len)

/-- An access is completed as Unsupported Request: PF0's AER status takes the error (R326, R332; its bit is PRESUMED, log 67). -/
def State.answerUr (s : State) : State := s.modRegs fun x => { x with rsp := some .ur, aer := x.aer ||| 0x100000 }

/-- Set how the access ended. -/
def State.answer (s : State) (r : AccRsp) : State := s.modRegs fun x => { x with rsp := some r }

/-- Checks 3 to 6 of R569: how the access ends if one applies. `blocked` is check 6. -/
def State.accStop (s : State) (fn off len : Nat) (gap rd blocked : Bool) : Option State :=
  if unalignedAcc off len gap then some ((s.accErr fn off 2 (!rd)).answer .ca)
  else if s.wideRefused fn off len rd then some ((s.accErr fn off 3 (!rd)).answerUr)
  else if s.reservedAcc fn off then some ((s.accErr fn off 4 (!rd)).answer (if rd then .data [0] else .done))
  else if blocked then some ((s.accErr fn off 5 (!rd)).answer (if rd then .data [0] else .done))
  else none

/-- Checks 1 and 2 of R569 for a VF: its domain exists, its TDI admits the request (R332), it is not fenced (R336). -/
def State.vfStop (s : State) (d off : Nat) (tee : Bool) : Option State :=
  let m := s.dom d
  if !(s.pf0Up && m.there) then some s.answerUr
  else if (m.tdi == .locked || m.tdi == .run) && !tee then some ((s.modDom d fun m => { m with ur := satAdd 16 m.ur 1 }).answerUr)
  else if m.fenced && decide (0x1000 ≤ off) then some s.answerUr
  else none

/-- The doublewords of an access: offset and bytes of each. -/
def chunksOf : Nat → Nat → List Byte → List (Nat × List Byte)
  | 0, _, _ => []
  | _, _, [] => []
  | n + 1, off, bs => (off, bs.take (4 - off % 4)) :: chunksOf n (off - off % 4 + 4) (bs.drop (4 - off % 4))

/-! ### Writes -/

/-- What accepting a guarded register's value does (R584). -/
def State.guardAct (s : State) (g : Nat) (v : Word) (a : AccIn) : State :=
  if g = 0x200010 then s.lcRequest v a.host a.io.bad a.io.weak
  else if g = 0x200020 then s.secErase v
  else if g = 0x200030 then
    if v.toNat % 16 = 1 then s.svnRaise a.io.bad a.io.weak
    else if v.toNat % 16 = 2 then s.programWord a.io.bad a.io.weak
    else s.modSec fun x => { x with otpStatus := 1, otpOp := v.toNat % 16 }
  else if g = 0x200040 then s.snufArm v
  else s.vovr v

/-- A full 32-bit write at a management offset, guarded registers apart: pairs go through the latch (R576). -/
def State.pfFull (s : State) (off : Nat) (v : Word) (a : AccIn) : State :=
  if off % 8 = 0 ∧ pfPairRW off = true then s.modRegs fun r => { r with wlatch := some (off, v) }
  else if off % 8 = 4 ∧ pfPairRW (off - 4) = true then
    match s.mgmt.regs.wlatch with
    | some (o, w) =>
      if o = off - 4 then (s.modRegs fun r => { r with wlatch := none }).pfPairWrite (off - 4) (v ++ w)
      else (s.accErr 0 off 7 true).pfPairWrite (off - 4) (v ++ (0 : Word))
    | none => s.pfPairWrite (off - 4) (v ++ (0 : Word))
  else if (s.pfPair (off / 8 * 8)).isSome then s
  else s.pfWord32 off v a

/-- One doubleword of a PF0 write. -/
def State.pfChunk (s : State) (a : AccIn) (c : Nat × List Byte) : State :=
  if c.2.length = 4 then s.pfFull c.1 (BitVec.ofNat 32 (leNat c.2)) a
  else if inRegions (byteRegion true) c.1 c.2.length then s.winWrite 0 (c.1 - 0x301000) c.2
  else s.accErr 0 c.1 1 true

/-- An accepted PF0 write: an 8-byte write of a pair applies both words at once. -/
def State.pfPut (s : State) (a : AccIn) : State :=
  let off := a.off.toNat
  if a.data.length = 8 ∧ (s.pfPair off).isSome = true then
    (if pfPairRW off then s.pfPairWrite off (BitVec.ofNat 64 (leNat a.data)) else s)
  else (chunksOf a.data.length off a.data).foldl (fun t c => t.pfChunk a c) s

/-- A PF0 write meets the guard window (R583): one that is BLOCKED by an A1 leaves it. -/
def State.guardMeets (s : State) (off len : Nat) : State :=
  if s.a1Blocks off then s
  else if s.mgmt.regs.guard.isSome then s.guardAny
  else match guardedAt off len with
    | some g => s.guardBreak g
    | none => s

/-- A PF0 write (R569, R577, R583). -/
def State.pfStore (s : State) (a : AccIn) : State :=
  let off := a.off.toNat
  let len := a.data.length
  if !s.pf0Up then s
  else match (if len = 4 ∧ a.gap = false ∧ off % 4 = 0 then guardedAt off 4 else none) with
    | some g =>
      let v := BitVec.ofNat 32 (leNat a.data)
      (if off = g then s.gdwValue g v else s.gdwCompl g v (fun _ => true) fun s v => s.guardAct g v a).answer .done
    | none =>
      let s := s.guardExpire.guardMeets off len
      match s.accStop 0 off len a.gap false (s.a1Blocks off || s.snufCloses off) with
      | some t => t
      | none => (s.pfPut a).answer .done

/-- A full 32-bit write at an offset of a VF. -/
def State.vfFull (s : State) (d o : Nat) (v : Word) (a : AccIn) : State :=
  let m := s.dom d
  let put := fun (t : State) (x : DWord) => match arrAt (o - 4) 0x400 0x20 64 with
    | some (q, i) => t.sqBase d q (i == 8) x
    | none => t
  if o % 8 = 0 ∧ vfPairRW o = true then s.setDom d { m with wlatch := some (o, v) }
  else if o % 8 = 4 ∧ vfPairRW (o - 4) = true then
    match m.wlatch with
    | some (l, w) => if l = o - 4 then put (s.setDom d { m with wlatch := none }) (v ++ w) else put (s.accErr (d + 1) o 7 true) (v ++ (0 : Word))
    | none => put s (v ++ (0 : Word))
  else if (s.vfPair d (o / 8 * 8)).isSome && !(decide (0x4000 ≤ o ∧ o < 0x5000)) then s
  else s.vfWord32 d o v a

/-- One doubleword of a VF write. -/
def State.vfChunk (s : State) (d : Nat) (a : AccIn) (c : Nat × List Byte) : State :=
  if c.2.length = 4 then s.vfFull d c.1 (BitVec.ofNat 32 (leNat c.2)) a
  else if inRegions (byteRegion false) c.1 c.2.length then s.winWrite (d + 1) (c.1 - 0x2000) c.2
  else s.accErr (d + 1) c.1 1 true

/-- A VF write. -/
def State.vfStore (s : State) (d : Nat) (a : AccIn) : State :=
  let off := a.off.toNat
  match s.vfStop d off a.tee with
  | some t => t
  | none => match s.accStop (d + 1) off a.data.length a.gap false false with
    | some t => t
    | none =>
      (if a.data.length = 8 ∧ vfPairRW off = true then
        (match arrAt off 0x400 0x20 64 with
          | some (q, i) => s.sqBase d q (i == 8) (BitVec.ofNat 64 (leNat a.data))
          | none => s)
      else (chunksOf a.data.length off a.data).foldl (fun t c => t.vfChunk d a c) s).answer .done

/-- REGISTER_WRITE (R569, R577). -/
def execRegisterWrite (a : AccIn) (s : State) : Out :=
  .next (if a.fn = 0 then s.pfStore a else s.vfStore (a.fn.toNat - 1) a)

/-! ### Reads -/

/-- A word and its function's pair read latch. -/
def State.rlatch (s : State) (fn : Nat) : Option (Nat × Word) := if fn = 0 then s.mgmt.regs.rlatch else (s.dom (fn - 1)).rlatch
def State.setRlatch (s : State) (fn : Nat) (l : Option (Nat × Word)) : State :=
  if fn = 0 then s.modRegs fun r => { r with rlatch := l } else s.modDom (fn - 1) fun m => { m with rlatch := l }
/-- The live word. -/
def State.liveWord (s : State) (fn off : Nat) : Word := if fn = 0 then s.pfWord off else s.vfWord (fn - 1) off

/-- The word that a read of the high half of a pair returns: the latch when it is tagged with the pair (R575). -/
def State.heldWord (s : State) (fn off : Nat) : Word :=
  match s.rlatch fn with
  | some (l, w) => if off % 8 = 4 ∧ l = off - 4 ∧ (s.pairAt fn (off - 4)).isSome = true then w else s.liveWord fn off
  | none => s.liveWord fn off

/-- A full 32-bit read (R575, R577, R586). -/
def State.readWord (s : State) (fn off : Nat) : State × Word :=
  if fn = 0 ∧ off = 0x48 then s.indRead
  else match s.pairAt fn off with
    | some x => (s.setRlatch fn (some (off, BitVec.ofNat 32 (x / 2 ^ 32))), BitVec.ofNat 32 x)
    | none =>
      if off % 8 = 4 ∧ (s.pairAt fn (off - 4)).isSome = true then
        (match s.rlatch fn with
          | some (l, w) => if l = off - 4 then (s.setRlatch fn none, w) else (s, s.liveWord fn off)
          | none => (s, s.liveWord fn off))
      else ((if fn = 0 then s.pfClear off else s.vfClear (fn - 1) off), s.liveWord fn off)

/-- Ascending full reads of `n` doublewords. -/
def State.readWords (s : State) (fn : Nat) : Nat → Nat → List Word → State × List Word
  | 0, _, l => (s, l)
  | n + 1, off, l => let r := s.readWord fn off; r.1.readWords fn n (off + 4) (l ++ [r.2])

/-- The bytes that a narrow read returns, right-aligned (R571): IND_DATA's are those of the space, read without effect. -/
def State.narrow (s : State) (fn off len : Nat) : Word :=
  let w := if fn = 0 ∧ off / 4 * 4 = 0x48 then s.indWord.getD 0 else s.heldWord fn (off / 4 * 4)
  BitVec.ofNat 32 (w.toNat / 2 ^ (8 * (off % 4)) % 2 ^ (8 * len))

/-- HOST_LINK is read over the host link, which has trained by then; the speed, width and mode that it reached are measured (R326, R370,
log 54). -/
def State.hostUp (s : State) : State :=
  if s.mgmt.regs.linkSpeed ≠ 0 then s
  else
    let m := (Config.measured s.free).toNat
    (s.modRegs fun r => { r with
      linkSpeed := 1 + m % 6, linkWidth := 2 ^ (m / 8 % 5), linkFlit := m % 6 == 5 || m.testBit 8 }).drew 1

/-- An accepted read. -/
def State.fetchWords (s₀ : State) (fn off len : Nat) : State :=
  let s := if fn = 0 ∧ off < 0x100004 ∧ 0x100000 < off + len then s₀.hostUp else s₀
  if len < 4 then s.answer (.data [s.narrow fn off len])
  else match s.pairAt fn off with
    | some x =>
      if len = 8 then s.answer (.data [BitVec.ofNat 32 x, BitVec.ofNat 32 (x / 2 ^ 32)])
      else let r := s.readWords fn (len / 4) off []; r.1.answer (.data r.2)
    | none => let r := s.readWords fn (len / 4) off []; r.1.answer (.data r.2)

/-- REGISTER_READ (R569, R575, R577). -/
def execRegisterRead (fn : BitVec 9) (off : BitVec 25) (len : BitVec 16) (gap tee : Bool) (s : State) : Out :=
  .next (
    let f := fn.toNat
    let o := off.toNat
    let n := len.toNat
    if f = 0 then
      (if !s.pf0Up then s
      else match s.accStop 0 o n gap true (s.snufCloses o) with
        | some t => t
        | none => s.fetchWords 0 o n)
    else match s.vfStop (f - 1) o tee with
      | some t => t
      | none => match s.accStop f o n gap true false with
        | some t => t
        | none => s.fetchWords f o n)

end Sys2Proof.Machine
end

