-- ==== Sys2Proof/Machine/UpdateRows.lean ====
section
/-! DEFINITION. The update engines' own events as commands (R36, R186, R197, R198), and the times for which grants are
withheld (R214, R325). -/

namespace Sys2Proof.Machine

/-- The update that domain `d` may start next on engine `n`: the first of the domain there that is not yet applied, past
parked ones (R186, R197). -/
def State.headUpd (s : State) (n d : Nat) : Option Upd :=
  (s.updsOn n).find? fun u => u.dom == d && u.phase == .queued

/-- UPDATE_START (R197); not before the matrix operations that the launching Wick had queued have read their operands (R174, R195). -/
def execUpdateStart (n : BitVec 1) (d : BitVec 8) (s : State) : Out :=
  .next (match s.headUpd n.toNat d.toNat with
    | some u => if u.after = 0 then s.startUpd u else s
    | none => s)

/-- PARKED_UPDATE_RESUME (R186): the first parked update of the domain on the engine runs if its Lanterns are back. -/
def execParkedUpdateResume (n : BitVec 1) (d : BitVec 8) (s : State) : Out :=
  .next (match (s.updsOn n.toNat).find? fun u => u.dom == d.toNat && u.phase == .parked with
    | some u => if s.updSwapped u then s else (s.modUpd u.num fun v => { v with phase := .queued }).startUpd u
    | none => s)

/-- UPDATE_COMPLETE (R198): the oldest update of the context, once written and its fused reduction acknowledged. A swap that waited for
it follows (R494). -/
def execUpdateComplete (d : BitVec 8) (ctx : BitVec 16) (s : State) : Out :=
  .next (match s.eng.upds.find? fun u => u.dom == d.toNat && u.ctx == ctx.toNat with
    | some u => if u.phase == .written && s.fusedDone u && !(u.gsrc && s.fusedBefore u.dom u.comm u.seq) then (s.finishUpd u).lateSwap else s
    | none => s)

/-- The communicators with a fused reduction into engine `n`. -/
def State.fusedComms (s : State) (n : Nat) : List (Nat × Nat) :=
  ((s.updsOn n).filter Upd.gsrc).map fun u => (u.dom, u.comm)

/-- SPILL_DRAIN (R36): staged data enters the FIFO, and the reductions into the tile go on. -/
def execSpillDrain (n : BitVec 1) (s : State) : Out :=
  let t := s.drainSpill n.toNat
  .next ((t.fusedComms n.toNat).eraseDups.foldl (fun u p => u.collRun p.1 p.2) t)

/-- A grant of the communicator is withheld for want of a landing place (R325): not where a RESULT chunk only waits for its turn
(R318). -/
def State.grantHeld (s : State) (x : Comm) : Bool :=
  x.st == .ready && x.others.any fun r =>
    match s.firstHeld x r with
    | some p => p.1.upd.isNone || p.2.kind != 3 || (x.nextResult p).isSome
    | none => false

/-- A grant is withheld because the tile's FIFO and staging have no room for the next RESULT chunk (R37, R211). -/
def State.creditHeld (s : State) (n : Nat) (x : Comm) : Bool :=
  x.st == .ready && x.others.any fun r =>
    match (s.firstHeld x r).bind x.nextResult with
    | some (u, _) => (match s.upd? u with | some v => v.engine == n | none => false)
    | none => false

/-- Every communicator of the chip with its COMM_ID. -/
def State.allComms (s : State) : List (Nat × Comm) := (s.eng.comms.map Prod.snd).flatten

/-- Beacon time passed by `dt` while the state was `s`: UPD_HOLDn and COLL_GHOLDn count it (R214, R325). -/
def State.countHolds (s t : State) : State :=
  let dt := t.beacon - s.beacon
  let l := s.allComms
  [0, 1].foldl (fun u n =>
    let u := if l.any fun p => s.creditHeld n p.2 then u.modUpdEng n fun e => { e with hold := e.hold + dt } else u
    if l.any fun p => engOf p.1 == n && s.grantHeld p.2 then u.modColl n fun e => { e with ghold := e.ghold + dt } else u) t

/-- Close the quiet windows that have lasted 2 µs (R39). -/
def State.endWindows (s : State) : State :=
  let due (t : Option Nat) : Bool := match t with | some t => decide (t + 2000 ≤ s.beacon) | none => false
  let ls := (s.fab.links.filter fun p => due p.2.quietAt).map Prod.fst
  let ms := (s.mgmt.pwr.quiet.filter fun p => due p.2).map Prod.fst
  ms.foldl (fun t k => t.closeQuiet (0x40 + k / 256) (k % 256) 0) (ls.foldl (fun t n => t.closeQuiet n 0 0) s)

/-- While a fused reduction has no room for its next RESULT chunk the engine takes no more REDUCE data (R37). -/
def State.redFull (s : State) : Bool := s.allComms.any fun p => s.creditHeld 0 p.2 || s.creditHeld 1 p.2

/-- What waits at the egresses goes on when a nanosecond has passed (R281). -/
def State.tickLinks (s : State) : State :=
  let t : State := { s with fab := { s.fab with redHold := s.redFull } }
  if s.fab.links.any fun p => !p.2.queue.isEmpty then t.pumped else t

/-- One tick of the device clock with nothing commanded (R479; DESIGN CHOICE, log 2). -/
def State.tickAll (s : State) : State := (s.countHolds s.tickBeacon).endWindows.tickLinks

end Sys2Proof.Machine
end

