-- ==== Sys2Proof/Machine/Dispatch.lean ====
section
/-! DEFINITION. The dispatch of commands to their meanings, one arm per row of the table. -/

namespace Sys2Proof.Machine

def exec (i : Instr) (s : State) : Host.Outcome State Fault Refusal :=
  match i with
  | .nop w b => Sys2Proof.Machine.execNop w b s
  | .mma w b => Sys2Proof.Machine.execMma w b s
  | .tzero w b => Sys2Proof.Machine.execTzero w b s
  | .tcopy w b => Sys2Proof.Machine.execTcopy w b s
  | .tget w b => Sys2Proof.Machine.execTget w b s
  | .tput w b => Sys2Proof.Machine.execTput w b s
  | .attnBlkFwd w b => Sys2Proof.Machine.execAttnBlkFwd w b s
  | .attnBlkBwd w b => Sys2Proof.Machine.execAttnBlkBwd w b s
  | .matrixOpExecute w ev => Sys2Proof.Machine.execMatrixOpExecute w ev s
  | .vadd w b => Sys2Proof.Machine.execVadd w b s
  | .vsub w b => Sys2Proof.Machine.execVsub w b s
  | .vmul w b => Sys2Proof.Machine.execVmul w b s
  | .vfma w b => Sys2Proof.Machine.execVfma w b s
  | .vdiv w b => Sys2Proof.Machine.execVdiv w b s
  | .vsqrt w b => Sys2Proof.Machine.execVsqrt w b s
  | .vmax w b => Sys2Proof.Machine.execVmax w b s
  | .vmin w b => Sys2Proof.Machine.execVmin w b s
  | .vneg w b => Sys2Proof.Machine.execVneg w b s
  | .vabs w b => Sys2Proof.Machine.execVabs w b s
  | .vsign w b => Sys2Proof.Machine.execVsign w b s
  | .vexp2 w b => Sys2Proof.Machine.execVexp2 w b s
  | .vlog2 w b => Sys2Proof.Machine.execVlog2 w b s
  | .vcmpeq w b => Sys2Proof.Machine.execVcmpeq w b s
  | .vcmpne w b => Sys2Proof.Machine.execVcmpne w b s
  | .vcmplt w b => Sys2Proof.Machine.execVcmplt w b s
  | .vcmple w b => Sys2Proof.Machine.execVcmple w b s
  | .vclass w b => Sys2Proof.Machine.execVclass w b s
  | .vsel w b => Sys2Proof.Machine.execVsel w b s
  | .vcvt w b => Sys2Proof.Machine.execVcvt w b s
  | .vrand w b => Sys2Proof.Machine.execVrand w b s
  | .vredsum w b => Sys2Proof.Machine.execVredsum w b s
  | .vredmax w b => Sys2Proof.Machine.execVredmax w b s
  | .vredmin w b => Sys2Proof.Machine.execVredmin w b s
  | .viadd w b => Sys2Proof.Machine.execViadd w b s
  | .visub w b => Sys2Proof.Machine.execVisub w b s
  | .vimul w b => Sys2Proof.Machine.execVimul w b s
  | .vand w b => Sys2Proof.Machine.execVand w b s
  | .vor w b => Sys2Proof.Machine.execVor w b s
  | .vxor w b => Sys2Proof.Machine.execVxor w b s
  | .vshl w b => Sys2Proof.Machine.execVshl w b s
  | .vshr w b => Sys2Proof.Machine.execVshr w b s
  | .vsra w b => Sys2Proof.Machine.execVsra w b s
  | .vperm w b => Sys2Proof.Machine.execVperm w b s
  | .pand w b => Sys2Proof.Machine.execPand w b s
  | .por w b => Sys2Proof.Machine.execPor w b s
  | .pxor w b => Sys2Proof.Machine.execPxor w b s
  | .pnot w b => Sys2Proof.Machine.execPnot w b s
  | .ld w b ev => Sys2Proof.Machine.execLd w b ev s
  | .st w b ev => Sys2Proof.Machine.execSt w b ev s
  | .vld w b => Sys2Proof.Machine.execVld w b s
  | .vst w b => Sys2Proof.Machine.execVst w b s
  | .tld w b => Sys2Proof.Machine.execTld w b s
  | .tst w b => Sys2Proof.Machine.execTst w b s
  | .dmaIssue w b => Sys2Proof.Machine.execDmaIssue w b s
  | .dmaTransferComplete w q ev => Sys2Proof.Machine.execDmaTransferComplete w q ev s
  | .tokd w b => Sys2Proof.Machine.execTokd w b s
  | .movi w b => Sys2Proof.Machine.execMovi w b s
  | .movhi w b => Sys2Proof.Machine.execMovhi w b s
  | .movsa w b => Sys2Proof.Machine.execMovsa w b s
  | .movas w b => Sys2Proof.Machine.execMovas w b s
  | .movsw w b => Sys2Proof.Machine.execMovsw w b s
  | .vgetl w b => Sys2Proof.Machine.execVgetl w b s
  | .vsetl w b => Sys2Proof.Machine.execVsetl w b s
  | .vbcast w b => Sys2Proof.Machine.execVbcast w b s
  | .aadd w b => Sys2Proof.Machine.execAadd w b s
  | .aaddi w b => Sys2Proof.Machine.execAaddi w b s
  | .aset w b => Sys2Proof.Machine.execAset w b s
  | .pfromv w b => Sys2Proof.Machine.execPfromv w b s
  | .ptov w b => Sys2Proof.Machine.execPtov w b s
  | .add w b => Sys2Proof.Machine.execAdd w b s
  | .sub w b => Sys2Proof.Machine.execSub w b s
  | .mul w b => Sys2Proof.Machine.execMul w b s
  | .andS w b => Sys2Proof.Machine.execAndS w b s
  | .orS w b => Sys2Proof.Machine.execOrS w b s
  | .xorS w b => Sys2Proof.Machine.execXorS w b s
  | .shl w b => Sys2Proof.Machine.execShl w b s
  | .shr w b => Sys2Proof.Machine.execShr w b s
  | .sra w b => Sys2Proof.Machine.execSra w b s
  | .slt w b => Sys2Proof.Machine.execSlt w b s
  | .sltu w b => Sys2Proof.Machine.execSltu w b s
  | .br w b => Sys2Proof.Machine.execBr w b s
  | .beq w b => Sys2Proof.Machine.execBeq w b s
  | .bne w b => Sys2Proof.Machine.execBne w b s
  | .blt w b => Sys2Proof.Machine.execBlt w b s
  | .bge w b => Sys2Proof.Machine.execBge w b s
  | .bltu w b => Sys2Proof.Machine.execBltu w b s
  | .bgeu w b => Sys2Proof.Machine.execBgeu w b s
  | .loop w b => Sys2Proof.Machine.execLoop w b s
  | .jr w b => Sys2Proof.Machine.execJr w b s
  | .call w b => Sys2Proof.Machine.execCall w b s
  | .fsig w b => Sys2Proof.Machine.execFsig w b s
  | .fwait w b => Sys2Proof.Machine.execFwait w b s
  | .fwaitSatisfied w => Sys2Proof.Machine.execFwaitSatisfied w s
  | .fwaitTimeout w => Sys2Proof.Machine.execFwaitTimeout w s
  | .fwaitReread => Sys2Proof.Machine.execFwaitReread s
  | .fown w b => Sys2Proof.Machine.execFown w b s
  | .allocMem w b => Sys2Proof.Machine.execAllocMem w b s
  | .freeMem w b => Sys2Proof.Machine.execFreeMem w b s
  | .stepBarrier w b => Sys2Proof.Machine.execStepBarrier w b s
  | .stepBoundary d x => Sys2Proof.Machine.execStepBoundary d x s
  | .stepTimeout w => Sys2Proof.Machine.execStepTimeout w s
  | .coll w b => Sys2Proof.Machine.execColl w b s
  | .upd w b => Sys2Proof.Machine.execUpd w b s
  | .halt w b => Sys2Proof.Machine.execHalt w b s
  | .deadlockScan => Sys2Proof.Machine.execDeadlockScan s
  | .quantumEdge bad => Sys2Proof.Machine.execQuantumEdge bad s
  | .idlePlacement bad => Sys2Proof.Machine.execIdlePlacement bad s
  | .foldSwitch lant wick => Sys2Proof.Machine.execFoldSwitch lant wick s
  | .wickUncorrectableEcc lant wick => Sys2Proof.Machine.execWickUncorrectableEcc lant wick s
  | .lanternUncorrectableEcc lant => Sys2Proof.Machine.execLanternUncorrectableEcc lant s
  | .residueCheckMismatch lant wick => Sys2Proof.Machine.execResidueCheckMismatch lant wick s
  | .updateStart n d => Sys2Proof.Machine.execUpdateStart n d s
  | .parkedUpdateResume n d => Sys2Proof.Machine.execParkedUpdateResume n d s
  | .updateComplete d ctx => Sys2Proof.Machine.execUpdateComplete d ctx s
  | .spillDrain n => Sys2Proof.Machine.execSpillDrain n s
  | .sealClose c page => Sys2Proof.Machine.execSealClose c page s
  | .rekeyPage c x => Sys2Proof.Machine.execRekeyPage c x s
  | .flitReceive n f => Sys2Proof.Machine.execFlitReceive n f s
  | .replayTimeout n => Sys2Proof.Machine.execReplayTimeout n s
  | .stallCodeword n => Sys2Proof.Machine.execStallCodeword n s
  | .linkRetrain n r => Sys2Proof.Machine.execLinkRetrain n r s
  | .detectTimeout n signal => Sys2Proof.Machine.execDetectTimeout n signal s
  | .linkTrain n o => Sys2Proof.Machine.execLinkTrain n o s
  | .linkKeyx n k => Sys2Proof.Machine.execLinkKeyx n k s
  | .linkRekey n rx req k => Sys2Proof.Machine.execLinkRekey n rx req k s
  | .linkRetrainFull n => Sys2Proof.Machine.execLinkRetrainFull n s
  | .packetForward h => Sys2Proof.Machine.execPacketForward h s
  | .pktWrite p => Sys2Proof.Machine.execPktWrite p s
  | .pktReadReq p struck => Sys2Proof.Machine.execPktReadReq p struck s
  | .pktReadData p => Sys2Proof.Machine.execPktReadData p s
  | .pktAck p => Sys2Proof.Machine.execPktAck p s
  | .pktNak p => Sys2Proof.Machine.execPktNak p s
  | .strandResend x => Sys2Proof.Machine.execStrandResend x s
  | .readReqRetry x => Sys2Proof.Machine.execReadReqRetry x s
  | .pktToken p direct replica expert => Sys2Proof.Machine.execPktToken p direct replica expert s
  | .linkStateMsg chip link up => Sys2Proof.Machine.execLinkStateMsg chip link up s
  | .congestionReport member queued => Sys2Proof.Machine.execCongestionReport member queued s
  | .jointPeer p => Sys2Proof.Machine.execJointPeer p s
  | .closingBindingExpire d => Sys2Proof.Machine.execClosingBindingExpire d s
  | .commReady p => Sys2Proof.Machine.execCommReady p s
  | .commReadyResend d id => Sys2Proof.Machine.execCommReadyResend d id s
  | .commGrant p => Sys2Proof.Machine.execCommGrant p s
  | .commBreak p => Sys2Proof.Machine.execCommBreak p s
  | .collContrib p => Sys2Proof.Machine.execCollContrib p s
  | .collPartial p => Sys2Proof.Machine.execCollPartial p s
  | .reduceResult p => Sys2Proof.Machine.execReduceResult p s
  | .collGather p => Sys2Proof.Machine.execCollGather p s
  | .collBcast p => Sys2Proof.Machine.execCollBcast p s
  | .barrierUp p => Sys2Proof.Machine.execBarrierUp p s
  | .barrierDown p => Sys2Proof.Machine.execBarrierDown p s
  | .collToksum p => Sys2Proof.Machine.execCollToksum p s
  | .collectiveComplete d id => Sys2Proof.Machine.execCollectiveComplete d id s
  | .collwait d id seq => Sys2Proof.Machine.execCollwait d id seq s
  | .commStatusWrite d id => Sys2Proof.Machine.execCommStatusWrite d id s
  | .sqTail d q val ring => Sys2Proof.Machine.execSqTail d q val ring s
  | .cqHead d q val => Sys2Proof.Machine.execCqHead d q val s
  | .sqEnable d q => Sys2Proof.Machine.execSqEnable d q s
  | .sqDisable d q => Sys2Proof.Machine.execSqDisable d q s
  | .commandWaitEnd d q io => Sys2Proof.Machine.execCommandWaitEnd d q io s
  | .commandComplete d q cmdid => Sys2Proof.Machine.execCommandComplete d q cmdid s
  | .cmdNop d q io => Sys2Proof.Machine.execCmdNop d q io s
  | .progLoad d q io => Sys2Proof.Machine.execProgLoad d q io s
  | .progUnload d q io => Sys2Proof.Machine.execProgUnload d q io s
  | .launch d q io => Sys2Proof.Machine.execLaunch d q io s
  | .ctxDestroy d q io => Sys2Proof.Machine.execCtxDestroy d q io s
  | .ctxStep d q io => Sys2Proof.Machine.execCtxStep d q io s
  | .mapPage d q io => Sys2Proof.Machine.execMapPage d q io s
  | .unmapPage d q io => Sys2Proof.Machine.execUnmapPage d q io s
  | .copyData d q io => Sys2Proof.Machine.execCopyData d q io s
  | .fabricBind d q io => Sys2Proof.Machine.execFabricBind d q io s
  | .fabricUnbind d q io => Sys2Proof.Machine.execFabricUnbind d q io s
  | .ehtLoad d q io => Sys2Proof.Machine.execEhtLoad d q io s
  | .ehtCommit d q io => Sys2Proof.Machine.execEhtCommit d q io s
  | .ehtBankCopy d => Sys2Proof.Machine.execEhtBankCopy d s
  | .commCreate d q io => Sys2Proof.Machine.execCommCreate d q io s
  | .commDestroy d q io => Sys2Proof.Machine.execCommDestroy d q io s
  | .commAbort d q io => Sys2Proof.Machine.execCommAbort d q io s
  | .ckptConfig d q io => Sys2Proof.Machine.execCkptConfig d q io s
  | .ckptRequest d q io => Sys2Proof.Machine.execCkptRequest d q io s
  | .ckptExport d q io => Sys2Proof.Machine.execCkptExport d q io s
  | .relight d q io => Sys2Proof.Machine.execRelight d q io s
  | .ckptDeconfig d q io => Sys2Proof.Machine.execCkptDeconfig d q io s
  | .cutReq p => Sys2Proof.Machine.execCutReq p s
  | .cutStat p => Sys2Proof.Machine.execCutStat p s
  | .cutSet p => Sys2Proof.Machine.execCutSet p s
  | .cutCopyDone d => Sys2Proof.Machine.execCutCopyDone d s
  | .cutDone p => Sys2Proof.Machine.execCutDone p s
  | .cutCommit p => Sys2Proof.Machine.execCutCommit p s
  | .cutAbort p => Sys2Proof.Machine.execCutAbort p s
  | .ckptSize p => Sys2Proof.Machine.execCkptSize p s
  | .cutReportTimeout d => Sys2Proof.Machine.execCutReportTimeout d s
  | .copyLimitTimeout d => Sys2Proof.Machine.execCopyLimitTimeout d s
  | .cutHoldTimeout d => Sys2Proof.Machine.execCutHoldTimeout d s
  | .mbxHello fn => Sys2Proof.Machine.execMbxHello fn s
  | .mbxGo fn => Sys2Proof.Machine.execMbxGo fn s
  | .mbxReady fn => Sys2Proof.Machine.execMbxReady fn s
  | .pinAdd d => Sys2Proof.Machine.execPinAdd d s
  | .pinRemove d => Sys2Proof.Machine.execPinRemove d s
  | .setTimeout d => Sys2Proof.Machine.execSetTimeout d s
  | .setPagemode d => Sys2Proof.Machine.execSetPagemode d s
  | .setJobseed d => Sys2Proof.Machine.execSetJobseed d s
  | .policyLoad d => Sys2Proof.Machine.execPolicyLoad d s
  | .triggerArm d => Sys2Proof.Machine.execTriggerArm d s
  | .triggerCancel d => Sys2Proof.Machine.execTriggerCancel d s
  | .fwInfo => Sys2Proof.Machine.execFwInfo s
  | .bcrRead => Sys2Proof.Machine.execBcrRead s
  | .bcrWrite => Sys2Proof.Machine.execBcrWrite s
  | .nvsUserWrite => Sys2Proof.Machine.execNvsUserWrite s
  | .nvsUserRead => Sys2Proof.Machine.execNvsUserRead s
  | .nvsUserErase => Sys2Proof.Machine.execNvsUserErase s
  | .nvsCtrRead => Sys2Proof.Machine.execNvsCtrRead s
  | .nvsCtrInc => Sys2Proof.Machine.execNvsCtrInc s
  | .nvsOpComplete st => Sys2Proof.Machine.execNvsOpComplete st s
  | .fenceMirrorWrite d n high val => Sys2Proof.Machine.execFenceMirrorWrite d n high val s
  | .vfEnableSet num => Sys2Proof.Machine.execVfEnableSet num s
  | .vfEnableClear keep => Sys2Proof.Machine.execVfEnableClear keep s
  | .flrVf d => Sys2Proof.Machine.execFlrVf d s
  | .flrPf0 => Sys2Proof.Machine.execFlrPf0 s
  | .hostLinkReset => Sys2Proof.Machine.execHostLinkReset s
  | .vfConfigWrite d mse bme bar => Sys2Proof.Machine.execVfConfigWrite d mse bme bar s
  | .ideKm ses n k => Sys2Proof.Machine.execIdeKm ses n k s
  | .ideStreamStateChange n secure => Sys2Proof.Machine.execIdeStreamStateChange n secure s
  | .getTdispVersion ses d => Sys2Proof.Machine.execGetTdispVersion ses d s
  | .getTdispCapabilities ses d => Sys2Proof.Machine.execGetTdispCapabilities ses d s
  | .lockInterfaceRequest ses d stream => Sys2Proof.Machine.execLockInterfaceRequest ses d stream s
  | .getDeviceInterfaceReport ses d => Sys2Proof.Machine.execGetDeviceInterfaceReport ses d s
  | .getDeviceInterfaceState ses d => Sys2Proof.Machine.execGetDeviceInterfaceState ses d s
  | .startInterfaceRequest ses d nonce => Sys2Proof.Machine.execStartInterfaceRequest ses d nonce s
  | .stopInterfaceRequest ses d => Sys2Proof.Machine.execStopInterfaceRequest ses d s
  | .tdispUnsupported ses d => Sys2Proof.Machine.execTdispUnsupported ses d s
  | .getVersion => Sys2Proof.Machine.execGetVersion s
  | .getCapabilities mutAuth => Sys2Proof.Machine.execGetCapabilities mutAuth s
  | .negotiateAlgorithms offers => Sys2Proof.Machine.execNegotiateAlgorithms offers s
  | .getDigests => Sys2Proof.Machine.execGetDigests s
  | .getCertificate slot off len => Sys2Proof.Machine.execGetCertificate slot off len s
  | .spdmChallenge slot => Sys2Proof.Machine.execSpdmChallenge slot s
  | .getMeasurements index signed => Sys2Proof.Machine.execGetMeasurements index signed s
  | .keyExchange slot elems => Sys2Proof.Machine.execKeyExchange slot elems s
  | .spdmFinish ses ok => Sys2Proof.Machine.execSpdmFinish ses ok s
  | .spdmHeartbeat ses => Sys2Proof.Machine.execSpdmHeartbeat ses s
  | .heartbeatTimeout ses => Sys2Proof.Machine.execHeartbeatTimeout ses s
  | .keyUpdate ses => Sys2Proof.Machine.execKeyUpdate ses s
  | .endSession ses => Sys2Proof.Machine.execEndSession ses s
  | .getEncapsulatedRequest ses => Sys2Proof.Machine.execGetEncapsulatedRequest ses s
  | .deliverEncapsulatedResponse ses chain => Sys2Proof.Machine.execDeliverEncapsulatedResponse ses chain s
  | .chunkSend data last => Sys2Proof.Machine.execChunkSend data last s
  | .chunkGet => Sys2Proof.Machine.execChunkGet s
  | .respondIfReady fl => Sys2Proof.Machine.execRespondIfReady fl s
  | .getCsr slot => Sys2Proof.Machine.execGetCsr slot s
  | .setCertificate slot chain => Sys2Proof.Machine.execSetCertificate slot chain s
  | .spdmUnsupported => Sys2Proof.Machine.execSpdmUnsupported s
  | .bindDomain ses d rsv key sig => Sys2Proof.Machine.execBindDomain ses d rsv key sig s
  | .domainReport ses nonce => Sys2Proof.Machine.execDomainReport ses nonce s
  | .keyRelease ses slot kind rsv digest wrapped => Sys2Proof.Machine.execKeyRelease ses slot kind rsv digest wrapped s
  | .keyErase ses slot kind rsv => Sys2Proof.Machine.execKeyErase ses slot kind rsv s
  | .jointFinish ses digest => Sys2Proof.Machine.execJointFinish ses digest s
  | .modelKeyFetch ses => Sys2Proof.Machine.execModelKeyFetch ses s
  | .remask => Sys2Proof.Machine.execRemask s
  | .maskfail => Sys2Proof.Machine.execMaskfail s
  | .rngfail => Sys2Proof.Machine.execRngfail s
  | .vglitch => Sys2Proof.Machine.execVglitch s
  | .clockAlarm => Sys2Proof.Machine.execClockAlarm s
  | .tempAlarm => Sys2Proof.Machine.execTempAlarm s
  | .faultdet => Sys2Proof.Machine.execFaultdet s
  | .meshAlarm => Sys2Proof.Machine.execMeshAlarm s
  | .lightAlarm => Sys2Proof.Machine.execLightAlarm s
  | .enclAlarm => Sys2Proof.Machine.execEnclAlarm s
  | .integD2d => Sys2Proof.Machine.execIntegD2d s
  | .secLcReq compl blob bad weak => Sys2Proof.Machine.execSecLcReq compl blob bad weak s
  | .domkeys compl => Sys2Proof.Machine.execDomkeys compl s
  | .nvsuser compl => Sys2Proof.Machine.execNvsuser compl s
  | .ownseeds compl => Sys2Proof.Machine.execOwnseeds compl s
  | .tamperclr compl => Sys2Proof.Machine.execTamperclr compl s
  | .snuffNow compl => Sys2Proof.Machine.execSnuffNow compl s
  | .svnRaise compl bad weak => Sys2Proof.Machine.execSvnRaise compl bad weak s
  | .programWord compl bad weak => Sys2Proof.Machine.execProgramWord compl bad weak s
  | .secSnufArm compl => Sys2Proof.Machine.execSecSnufArm compl s
  | .pwrVovr compl => Sys2Proof.Machine.execPwrVovr compl s
  | .guardWindowExpire => Sys2Proof.Machine.execGuardWindowExpire s
  | .registerWrite a => Sys2Proof.Machine.execRegisterWrite a s
  | .indDataRead => Sys2Proof.Machine.execIndDataRead s
  | .indDataWrite val => Sys2Proof.Machine.execIndDataWrite val s
  | .snapBlock blk => Sys2Proof.Machine.execSnapBlock blk s
  | .snapAll => Sys2Proof.Machine.execSnapAll s
  | .memDomBwWrite d val => Sys2Proof.Machine.execMemDomBwWrite d val s
  | .memDomCcWrite d val => Sys2Proof.Machine.execMemDomCcWrite d val s
  | .fabWselWrite val => Sys2Proof.Machine.execFabWselWrite val s
  | .fabWsetWrite set val => Sys2Proof.Machine.execFabWsetWrite set val s
  | .fabEhtSegWrite d val => Sys2Proof.Machine.execFabEhtSegWrite d val s
  | .fabRouteWrite off val => Sys2Proof.Machine.execFabRouteWrite off val s
  | .bcnCtrlWrite val => Sys2Proof.Machine.execBcnCtrlWrite val s
  | .tsQuantumWrite val => Sys2Proof.Machine.execTsQuantumWrite val s
  | .arbDomWrite d val => Sys2Proof.Machine.execArbDomWrite d val s
  | .trigArm n val => Sys2Proof.Machine.execTrigArm n val s
  | .pwrCapWrite val => Sys2Proof.Machine.execPwrCapWrite val s
  | .pwrCalCtrlWrite val => Sys2Proof.Machine.execPwrCalCtrlWrite val s
  | .replan val ms => Sys2Proof.Machine.execReplan val ms s
  | .gutterForce val => Sys2Proof.Machine.execGutterForce val s
  | .sootEnable val => Sys2Proof.Machine.execSootEnable val s
  | .sootInterrupt => Sys2Proof.Machine.execSootInterrupt s
  | .usbDisable => Sys2Proof.Machine.execUsbDisable s
  | .wsetTrigger n => Sys2Proof.Machine.execWsetTrigger n s
  | .snapTrigger n => Sys2Proof.Machine.execSnapTrigger n s
  | .quietOpen q => Sys2Proof.Machine.execQuietOpen q s
  | .quietWindowClose unit ch delayed => Sys2Proof.Machine.execQuietWindowClose unit ch delayed s
  | .triggerCut n => Sys2Proof.Machine.execTriggerCut n s
  | .triggerFence n => Sys2Proof.Machine.execTriggerFence n s
  | .syncReq n p => Sys2Proof.Machine.execSyncReq n p s
  | .syncRsp n p => Sys2Proof.Machine.execSyncRsp n p s
  | .announce n p => Sys2Proof.Machine.execAnnounce n p s
  | .beaconExchange => Sys2Proof.Machine.execBeaconExchange s
  | .upstreamSwitch => Sys2Proof.Machine.execUpstreamSwitch s
  | .syncInEdge => Sys2Proof.Machine.execSyncInEdge s
  | .beaconCopyCorrection => Sys2Proof.Machine.execBeaconCopyCorrection s
  | .gutterScore => Sys2Proof.Machine.execGutterScore s
  | .marginSample ms => Sys2Proof.Machine.execMarginSample ms s
  | .ageingPlan ms => Sys2Proof.Machine.execAgeingPlan ms s
  | .powerRegulate watts steps => Sys2Proof.Machine.execPowerRegulate watts steps s
  | .powerBrake => Sys2Proof.Machine.execPowerBrake s
  | .pwrbrkN low => Sys2Proof.Machine.execPwrbrkN low s
  | .throttle group on arg => Sys2Proof.Machine.execThrottle group on arg s
  | .thermalTrip => Sys2Proof.Machine.execThermalTrip s
  | .linkMarginLow n eye => Sys2Proof.Machine.execLinkMarginLow n eye s
  | .hbmDrift c ch drift => Sys2Proof.Machine.execHbmDrift c ch drift s
  | .lpddrPeriodicCal c ch => Sys2Proof.Machine.execLpddrPeriodicCal c ch s
  | .trainingRecordRefresh => Sys2Proof.Machine.execTrainingRecordRefresh s
  | .standbyGood straps => Sys2Proof.Machine.execStandbyGood straps s
  | .standbyLoss => Sys2Proof.Machine.execStandbyLoss s
  | .mainPowerGood io => Sys2Proof.Machine.execMainPowerGood io s
  | .mainPowerLoss => Sys2Proof.Machine.execMainPowerLoss s
  | .overvoltage => Sys2Proof.Machine.execOvervoltage s
  | .perstNAssert => Sys2Proof.Machine.execPerstNAssert s
  | .perstNDeassert io => Sys2Proof.Machine.execPerstNDeassert io s
  | .globalStartReq val io => Sys2Proof.Machine.execGlobalStartReq val io s
  | .startRetry io => Sys2Proof.Machine.execStartRetry io s
  | .bundleLoad data => Sys2Proof.Machine.execBundleLoad data s
  | .coreReady core => Sys2Proof.Machine.execCoreReady core s
  | .coreReadyTimeout => Sys2Proof.Machine.execCoreReadyTimeout s
  | .watchdogExpire core => Sys2Proof.Machine.execWatchdogExpire core s
  | .fatalError => Sys2Proof.Machine.execFatalError s
  | .usbStage blk => Sys2Proof.Machine.execUsbStage blk s
  | .usbResult seq len => Sys2Proof.Machine.execUsbResult seq len s
  | .usbOpen => Sys2Proof.Machine.execUsbOpen s
  | .usbQuery => Sys2Proof.Machine.execUsbQuery s
  | .usbClose ses => Sys2Proof.Machine.execUsbClose ses s
  | .usbSessionTimeout => Sys2Proof.Machine.execUsbSessionTimeout s
  | .usbBusReset => Sys2Proof.Machine.execUsbBusReset s
  | .usbBulkTimeout => Sys2Proof.Machine.execUsbBulkTimeout s
  | .usbVbusChange present => Sys2Proof.Machine.execUsbVbusChange present s
  | .usbInfo => Sys2Proof.Machine.execUsbInfo s
  | .usbLogRead => Sys2Proof.Machine.execUsbLogRead s
  | .usbBcrRead => Sys2Proof.Machine.execUsbBcrRead s
  | .usbBcrWrite => Sys2Proof.Machine.execUsbBcrWrite s
  | .usbBundleLoad data => Sys2Proof.Machine.execUsbBundleLoad data s
  | .monitorUpdate data st => Sys2Proof.Machine.execMonitorUpdate data st s
  | .usbStart io => Sys2Proof.Machine.execUsbStart io s
  | .jtagIdcode => Sys2Proof.Machine.execJtagIdcode s
  | .jtagBypass => Sys2Proof.Machine.execJtagBypass s
  | .jtagSamplePreload => Sys2Proof.Machine.execJtagSamplePreload s
  | .jtagExtest => Sys2Proof.Machine.execJtagExtest s
  | .jtagDtmcs => Sys2Proof.Machine.execJtagDtmcs s
  | .jtagDmi => Sys2Proof.Machine.execJtagDmi s
  | .jtagTestmode => Sys2Proof.Machine.execJtagTestmode s
  | .blockRead code => Sys2Proof.Machine.execBlockRead code s
  | .alertMask val => Sys2Proof.Machine.execAlertMask val s
  | .alertStatus val => Sys2Proof.Machine.execAlertStatus val s
  | .alertResponse => Sys2Proof.Machine.execAlertResponse s
  | .i3cAddressAssign addr => Sys2Proof.Machine.execI3cAddressAssign addr s
  | .telemetryRefresh => Sys2Proof.Machine.execTelemetryRefresh s
  | .registerRead fn off len gap tee => Sys2Proof.Machine.execRegisterRead fn off len gap tee s
  | .controlRequest setup => Sys2Proof.Machine.execControlRequest setup s
  | .ref100mChange present => Sys2Proof.Machine.execRef100mChange present s
  | .syncInLoss => Sys2Proof.Machine.execSyncInLoss s
  | .brakeRelease => Sys2Proof.Machine.execBrakeRelease s

end Sys2Proof.Machine
end

