-- ==== Sys2Proof/Machine/Protect.lean ====
section
/-! DEFINITION. What lies in HBM and the Reservoir (R219 to R221, R227 to R233): the raw space of a stack or package, a page's tag block,
the slots and ciphertext of its lines, and the radix tables, each computed from what State holds; and the acceptance of a line read. -/

namespace Sys2Proof.Machine

/-! ### The raw space (R220) -/

/-- The regions of a stack or package. -/
inductive RawRegion where
  /-- The data region, at a data offset. -/
  | data (off : Nat)
  /-- Byte `at_` of the tag block of an epoch page. -/
  | tag (page at_ : Nat)
  | slack
  deriving DecidableEq, Repr

/-- Bytes of the data region of controller `c`. -/
def State.dataSize (s : State) (c : Nat) : Nat := if 12 ≤ c then rsvData s.dev.small else hbmData
/-- Raw capacity: 48 or 96 GiB. -/
def State.rawSize (s : State) (c : Nat) : Nat := if 12 ≤ c ∧ !s.dev.small then 96 * 2 ^ 30 else 48 * 2 ^ 30
/-- Where the tag block of epoch page `p` begins in the raw space. -/
def State.tagBlockAt (s : State) (c p : Nat) : Nat := s.dataSize c + tagBlock c * p
/-- Where the slot of line `j` of epoch page `p` lies in the raw space (R230). -/
def State.slotAt (s : State) (c p j : Nat) : Nat := s.tagBlockAt c p + 8 * j
/-- Epoch pages of a controller's data region (R235). -/
def State.epochPages (s : State) (c : Nat) : Nat := s.dataSize c / (256 * pageLines c)

/-- The region of a raw address. -/
def State.rawRegion (s : State) (c a : Nat) : RawRegion :=
  if a < s.dataSize c then .data a
  else
    let t := a - s.dataSize c
    if t < tagBlock c * s.epochPages c then .tag (t / tagBlock c) (t % tagBlock c) else .slack

/-! ### Keys (R231, R237, R380) -/

/-- The DPA of line `j` of epoch page `p` of controller `c`. -/
def lineDpa (c p j : Nat) : Nat := dpaOfPage c p + 256 * j

/-- The owner of a page: a domain, or the device (none) for a device region. -/
def State.keyOwner (s : State) (c p : Nat) : Option Nat := if isDevice (dpaOfPage c p) then none else s.pageOwner c p

/-- A line that a re-key in progress has already rewritten (R238). -/
def MemCtl.rewritten (x : MemCtl) (p j : Nat) : Option Rekeying := x.rk.filter fun r => r.page == p && decide (j < r.next)

/-- The memory key set under which a line is stored: of its page's generation, or of G_d for a line that a re-key has rewritten; the
device's for a device region. -/
def State.lineKey (s : State) (c p j : Nat) : List Byte :=
  let x := s.ctl c
  match s.keyOwner c p with
  | none => (x.devKey.map Masked.key).getD []
  | some d =>
    let g := FMap.get {} x.gens d
    ((if x.inCur d p || (x.rewritten p j).isSome then g.key else g.keyOld).map Masked.key).getD []

/-- The data key pair and the tag key of a key set. -/
def dataKey (k : List Byte) : List Byte := k.take 64
def tagKey (k : List Byte) : List Byte := k.drop 64

/-- C under which a line's slot is padded: the page's, or the new C of a re-key for a line already rewritten. -/
def State.lineC (s : State) (c p j : Nat) : Nat :=
  match (s.ctl c).rewritten p j with
  | some r => r.cNew
  | none => FMap.get 0 (s.ctl c).c p

/-! ### Slots and ciphertext (R231) -/

/-- E of a line: its epoch, or the marker it holds. -/
def State.lineE (s : State) (c p j : Nat) : Nat :=
  if FMap.get false s.mem.bad (lineDpa c p j / 256) then 0xFFFFFFFF
  else match FMap.get 0 (s.ctl c).e (p * 1024 + j) with
    | 0 => 0xFFFFFFFE
    | e => e

/-- The tweak of a chunk: DPA[41:6] in bits [35:0] and E in bits [95:64]. -/
def chunkTweak (dpa e : Nat) : Nat := dpa / 64 % 2 ^ 36 + e % 2 ^ 32 * 2 ^ 64

/-- The ciphertext of chunk `n` of a line; that of a marked line is what lay there before. -/
def State.chunk (s : State) (c p j n : Nat) : List Byte :=
  let a := lineDpa c p j + 64 * n
  let e := s.lineE c p j
  if 0xFFFFFFFE ≤ e then Config.oldCipher a
  else Config.xtsChunk (dataKey (s.lineKey c p j)) (chunkTweak a e) (Memory.rdN s.mem.data a 64)

/-- The 256 bytes of ciphertext of a line. -/
def State.lineCipher (s : State) (c p j : Nat) : List Byte := ((List.range 4).map (s.chunk c p j)).flatten

/-- The MAC of a line: over its DPA, E and, for a data line, its ciphertext. -/
def lineMac (key : List Byte) (dpa e : Nat) (cipher : List Byte) : BitVec 32 :=
  BitVec.ofNat 32 (leNat ((Config.aesCmac (tagKey key) (leBytes 6 dpa ++ leBytes 4 e ++ if 0xFFFFFFFE ≤ e then [] else cipher)).take 4))

/-- S of a line: E and the MAC. -/
def State.slotS (s : State) (c p j : Nat) : DWord :=
  lineMac (s.lineKey c p j) (lineDpa c p j) (s.lineE c p j) (s.lineCipher c p j) ++ BitVec.ofNat 32 (s.lineE c p j)

/-- The pad of a slot: the first 64 bits of AES-256 of the block (DPA of the line, C). -/
def slotPad (key : List Byte) (dpa c : Nat) : DWord :=
  BitVec.ofNat 64 (leNat ((Config.aesBlock (tagKey key) (leBytes 8 dpa ++ leBytes 8 c)).take 8))

/-- The stored slot: S XOR pad. -/
def State.slot (s : State) (c p j : Nat) : DWord :=
  s.slotS c p j ^^^ slotPad (s.lineKey c p j) (lineDpa c p j) (s.lineC c p j)

/-! ### Accepting a line (R233) -/

/-- What a line read finds. -/
inductive LineRead where
  | data (e : Nat) | zeros | poison | failed
  deriving DecidableEq, Repr

/-- The four cases of R233 for a stored slot and ciphertext, under a key and C. -/
def acceptLine (key : List Byte) (dpa c : Nat) (slot : DWord) (cipher : List Byte) : LineRead :=
  let x := slot ^^^ slotPad key dpa c
  let e := (x.extractLsb' 0 32).toNat
  if x.extractLsb' 32 32 ≠ lineMac key dpa e cipher then .failed
  else if 1 ≤ e ∧ e ≤ c ∧ e ≤ 0xFFFFFFFD then .data e
  else if e = 0xFFFFFFFE then .zeros
  else if e = 0xFFFFFFFF then .poison
  else .failed

/-- What a read of a line finds now. -/
def State.lineRead (s : State) (c p j : Nat) : LineRead :=
  acceptLine (s.lineKey c p j) (lineDpa c p j) (s.lineC c p j) (s.slot c p j) (s.lineCipher c p j)

/-! ### Raw contents -/

/-- A byte of the raw space: ciphertext, stored slots, or the zeros that memory initialisation wrote to the slack. -/
def State.rawByte (s : State) (c a : Nat) : Byte :=
  let lines := pageLines c
  match s.rawRegion c a with
  | .data o => (s.chunk c (o / (256 * lines)) (o / 256 % lines) (o / 64 % 4)).getD (o % 64) 0
  | .tag p b => (leBytes 8 (s.slot c p (b / 8)).toNat).getD (b % 8) 0
  | .slack => 0

/-! ### Page tables (R227 to R229) -/

/-- A leaf entry as it lies in a table. -/
def Pte.word (p : Pte) : DWord :=
  BitVec.ofNat 64 (1 + 2 + p.r.toNat * 4 + p.w.toNat * 8 + p.x.toNat * 16 + p.k.toNat * 32 + p.frame / 2 ^ 12 % 2 ^ 30 * 2 ^ 12)

/-- A leaf entry read back from its word; none while V is 0. -/
def Pte.ofWord (w : DWord) : Option Pte :=
  if w.getLsbD 0 then
    some { frame := fld w 12 30 * 2 ^ 12, r := tb w 2, w := tb w 3, x := tb w 4, k := tb w 5 }
  else none

/-- The levels of a tier's tables above the leaves: HBM 3 to 1, Reservoir 4 to 1. -/
def topLevel (rsv : Bool) : Nat := if rsv then 4 else 3

/-- The part of a virtual page number that names an entry at a level: 9 bits a level, what is left at the top. -/
def levelIndex (rsv : Bool) (level page : Nat) : Nat :=
  page / 2 ^ (9 * level) % (if level = topLevel rsv then (if rsv then 4 else 256) else 512)

/-- The entry of a domain's tables that a virtual page meets at a level: at level 0 the leaf, above it the address of the next table, valid
while a page below is mapped. Every compute tile's copy holds it (R229). -/
def Dom.entry (m : Dom) (d : Nat) (rsv : Bool) (level page : Nat) : DWord :=
  let pt := if rsv then m.ptR else m.ptH
  if level = 0 then (match FMap.find? pt page with | some p => p.word | none => 0)
  else if pt.any fun q => q.1 / 2 ^ (9 * level) == page / 2 ^ (9 * level) then
    BitVec.ofNat 64 (1 + Config.tableAddr d (if rsv then 1 else 0) (level - 1) (page / 2 ^ (9 * level)) / 2 ^ 12 % 2 ^ 30 * 2 ^ 12)
  else 0

/-- The walk of a virtual page: from the top level down, an invalid entry ends it (R227, R228). -/
def Dom.walk (m : Dom) (d : Nat) (rsv : Bool) (page : Nat) : Nat → Option Pte
  | 0 => Pte.ofWord (m.entry d rsv 0 page)
  | level + 1 => if tb (m.entry d rsv (level + 1) page) 0 then m.walk d rsv page level else none

end Sys2Proof.Machine
end

