-- ==== Sys2Proof/WellFormed.lean ====
section
/-! DEFINITION. Which terms of Instr are commands of the device: an instruction word carries its row's opcode, a packet its row's
type and the data it counts, a link, controller or function is one that the device has. -/

namespace Sys2Proof

open Sys2Proof.Machine

/-- The opcode field of an instruction word (R113). -/
def slotIs (w : DWord) (op : Nat) : Bool := w.toNat % 256 == op

/-- The device's fabric links, 0 to 35 (R252). -/
def linkIs (n : BitVec 6) : Bool := decide (n.toNat < 36)

/-- Functions: PF0 and VF 1 to 256 (R326). -/
def fnIs (f : BitVec 9) : Bool := decide (f.toNat ≤ 256)

end Sys2Proof

/-- The data slots hold the bytes that the header counts (R271). -/
def Sys2Proof.Machine.Pkt.sized (p : Sys2Proof.Machine.Pkt) : Bool :=
  if p.ptype = 2 then p.data.isEmpty else p.data.length == p.bytes.toNat

namespace Sys2Proof

open Sys2Proof.Machine

/-- A packet of one type (R271). -/
def pktIs (p : Pkt) (t : Nat) : Bool := p.ptype.toNat == t && p.sized

/-- The command is one the device can be given. -/
def Instr.wf : Instr → Bool
  | .nop _ b => b.m == 0
  | .mma _ b => slotIs b.m 0x01
  | .tzero _ b => slotIs b.m 0x02
  | .tcopy _ b => slotIs b.m 0x03
  | .tget _ b => slotIs b.m 0x04
  | .tput _ b => slotIs b.m 0x05
  | .attnBlkFwd _ b => slotIs b.m 0x08
  | .attnBlkBwd _ b => slotIs b.m 0x09
  | .matrixOpExecute _ _ | .dmaTransferComplete _ _ _ | .fwaitSatisfied _ | .fwaitTimeout _ | .fwaitReread | .stepBoundary _ _
  | .stepTimeout _ | .deadlockScan | .quantumEdge _ | .idlePlacement _ | .foldSwitch _ _ | .wickUncorrectableEcc _ _
  | .lanternUncorrectableEcc _ | .residueCheckMismatch _ _ | .updateStart _ _ | .parkedUpdateResume _ _ | .updateComplete _ _
  | .spillDrain _ | .strandResend _ | .readReqRetry _ | .congestionReport _ _ | .closingBindingExpire _ | .commReadyResend _ _
  | .collectiveComplete _ _ | .collwait _ _ _ | .commStatusWrite _ _ | .sqTail _ _ _ _ | .cqHead _ _ _ | .sqEnable _ _
  | .sqDisable _ _ | .commandWaitEnd _ _ _ | .commandComplete _ _ _ | .cmdNop _ _ _ | .progLoad _ _ _ | .progUnload _ _ _
  | .launch _ _ _ | .ctxDestroy _ _ _ | .ctxStep _ _ _ | .mapPage _ _ _ | .unmapPage _ _ _ | .copyData _ _ _ | .fabricBind _ _ _
  | .fabricUnbind _ _ _ | .ehtLoad _ _ _ | .ehtCommit _ _ _ | .ehtBankCopy _ | .commCreate _ _ _ | .commDestroy _ _ _
  | .commAbort _ _ _ | .ckptConfig _ _ _ | .ckptRequest _ _ _ | .ckptExport _ _ _ | .relight _ _ _ | .ckptDeconfig _ _ _
  | .cutCopyDone _ | .cutReportTimeout _ | .copyLimitTimeout _ | .cutHoldTimeout _ | .pinAdd _ | .pinRemove _ | .setTimeout _
  | .setPagemode _ | .setJobseed _ | .policyLoad _ | .triggerArm _ | .triggerCancel _ | .fwInfo | .bcrRead | .bcrWrite
  | .nvsUserWrite | .nvsUserRead | .nvsUserErase | .nvsCtrRead | .nvsCtrInc | .nvsOpComplete _ | .fenceMirrorWrite _ _ _ _
  | .vfEnableSet _ | .vfEnableClear _ | .flrVf _ | .flrPf0 | .hostLinkReset | .vfConfigWrite _ _ _ _ | .ideKm _ _ _
  | .ideStreamStateChange _ _ | .getTdispVersion _ _ | .getTdispCapabilities _ _ | .lockInterfaceRequest _ _ _
  | .getDeviceInterfaceReport _ _ | .getDeviceInterfaceState _ _ | .stopInterfaceRequest _ _ | .tdispUnsupported _ _
  | .getVersion | .getCapabilities _ | .negotiateAlgorithms _ | .getDigests | .getCertificate _ _ _ | .spdmChallenge _
  | .getMeasurements _ _ | .keyExchange _ _ | .spdmFinish _ _ | .spdmHeartbeat _ | .heartbeatTimeout _ | .keyUpdate _
  | .endSession _ | .getEncapsulatedRequest _ | .deliverEncapsulatedResponse _ _ | .chunkSend _ _ | .chunkGet | .getCsr _
  | .setCertificate _ _ | .spdmUnsupported | .keyErase _ _ _ _ | .modelKeyFetch _ | .remask | .maskfail | .rngfail | .vglitch
  | .clockAlarm | .tempAlarm | .faultdet | .meshAlarm | .lightAlarm | .enclAlarm | .integD2d | .secLcReq _ _ _ _ | .domkeys _
  | .nvsuser _ | .ownseeds _ | .tamperclr _ | .snuffNow _ | .svnRaise _ _ _ | .programWord _ _ _ | .secSnufArm _ | .pwrVovr _
  | .guardWindowExpire | .indDataRead | .indDataWrite _ | .snapBlock _ | .snapAll | .memDomBwWrite _ _ | .memDomCcWrite _ _
  | .fabWselWrite _ | .fabWsetWrite _ _ | .fabEhtSegWrite _ _ | .fabRouteWrite _ _ | .bcnCtrlWrite _ | .tsQuantumWrite _
  | .arbDomWrite _ _ | .trigArm _ _ | .pwrCapWrite _ | .pwrCalCtrlWrite _ | .replan _ _ | .gutterForce _ | .sootEnable _
  | .sootInterrupt | .usbDisable | .wsetTrigger _ | .snapTrigger _ | .quietOpen _ | .quietWindowClose _ _ _ | .triggerCut _
  | .triggerFence _ | .beaconExchange | .upstreamSwitch | .syncInEdge | .beaconCopyCorrection | .gutterScore | .marginSample _
  | .ageingPlan _ | .powerRegulate _ _ | .powerBrake | .pwrbrkN _ | .thermalTrip | .lpddrPeriodicCal _ _
  | .trainingRecordRefresh | .standbyGood _ | .standbyLoss | .mainPowerGood _ | .mainPowerLoss | .overvoltage | .perstNAssert
  | .perstNDeassert _ | .globalStartReq _ _ | .startRetry _ | .bundleLoad _ | .coreReady _ | .coreReadyTimeout
  | .watchdogExpire _ | .fatalError | .usbStage _ | .usbResult _ _ | .usbOpen | .usbQuery | .usbClose _ | .usbSessionTimeout
  | .usbBusReset | .usbBulkTimeout | .usbVbusChange _ | .usbInfo | .usbLogRead | .usbBcrRead | .usbBcrWrite | .usbBundleLoad _
  | .monitorUpdate _ _ | .usbStart _ | .jtagIdcode | .jtagBypass | .jtagSamplePreload | .jtagExtest | .jtagDtmcs | .jtagDmi
  | .jtagTestmode | .blockRead _ | .alertMask _ | .alertStatus _ | .alertResponse | .i3cAddressAssign _ | .telemetryRefresh
  | .controlRequest _ | .ref100mChange _ | .syncInLoss | .brakeRelease => true
  | .vadd _ b => slotIs b.v 0x40
  | .vsub _ b => slotIs b.v 0x41
  | .vmul _ b => slotIs b.v 0x42
  | .vfma _ b => slotIs b.v 0x43
  | .vdiv _ b => slotIs b.v 0x44
  | .vsqrt _ b => slotIs b.v 0x45
  | .vmax _ b => slotIs b.v 0x46
  | .vmin _ b => slotIs b.v 0x47
  | .vneg _ b => slotIs b.v 0x48
  | .vabs _ b => slotIs b.v 0x49
  | .vsign _ b => slotIs b.v 0x4A
  | .vexp2 _ b => slotIs b.v 0x4B
  | .vlog2 _ b => slotIs b.v 0x4C
  | .vcmpeq _ b => slotIs b.v 0x50
  | .vcmpne _ b => slotIs b.v 0x51
  | .vcmplt _ b => slotIs b.v 0x52
  | .vcmple _ b => slotIs b.v 0x53
  | .vclass _ b => slotIs b.v 0x54
  | .vsel _ b => slotIs b.v 0x55
  | .vcvt _ b => slotIs b.v 0x58
  | .vrand _ b => slotIs b.v 0x59
  | .vredsum _ b => slotIs b.v 0x60
  | .vredmax _ b => slotIs b.v 0x61
  | .vredmin _ b => slotIs b.v 0x62
  | .viadd _ b => slotIs b.v 0x68
  | .visub _ b => slotIs b.v 0x69
  | .vimul _ b => slotIs b.v 0x6A
  | .vand _ b => slotIs b.v 0x6B
  | .vor _ b => slotIs b.v 0x6C
  | .vxor _ b => slotIs b.v 0x6D
  | .vshl _ b => slotIs b.v 0x6E
  | .vshr _ b => slotIs b.v 0x6F
  | .vsra _ b => slotIs b.v 0x70
  | .vperm _ b => slotIs b.v 0x71
  | .pand _ b => slotIs b.v 0x74
  | .por _ b => slotIs b.v 0x75
  | .pxor _ b => slotIs b.v 0x76
  | .pnot _ b => slotIs b.v 0x77
  | .ld _ b _ => slotIs b.x 0x80
  | .st _ b _ => slotIs b.x 0x81
  | .vld _ b => slotIs b.x 0x82
  | .vst _ b => slotIs b.x 0x83
  | .tld _ b => slotIs b.x 0x84
  | .tst _ b => slotIs b.x 0x85
  | .dmaIssue _ b => slotIs b.x 0x88
  | .tokd _ b => slotIs b.x 0x8C
  | .movi _ b => slotIs b.x 0x90
  | .movhi _ b => slotIs b.x 0x91
  | .movsa _ b => slotIs b.x 0x92
  | .movas _ b => slotIs b.x 0x93
  | .movsw _ b => slotIs b.x 0x94
  | .vgetl _ b => slotIs b.x 0x95
  | .vsetl _ b => slotIs b.x 0x96
  | .vbcast _ b => slotIs b.x 0x97
  | .aadd _ b => slotIs b.x 0x98
  | .aaddi _ b => slotIs b.x 0x99
  | .aset _ b => slotIs b.x 0x9A
  | .pfromv _ b => slotIs b.x 0x9B
  | .ptov _ b => slotIs b.x 0x9C
  | .add _ b => slotIs b.c 0xC0
  | .sub _ b => slotIs b.c 0xC1
  | .mul _ b => slotIs b.c 0xC2
  | .andS _ b => slotIs b.c 0xC3
  | .orS _ b => slotIs b.c 0xC4
  | .xorS _ b => slotIs b.c 0xC5
  | .shl _ b => slotIs b.c 0xC6
  | .shr _ b => slotIs b.c 0xC7
  | .sra _ b => slotIs b.c 0xC8
  | .slt _ b => slotIs b.c 0xC9
  | .sltu _ b => slotIs b.c 0xCA
  | .br _ b => slotIs b.c 0xD0
  | .beq _ b => slotIs b.c 0xD1
  | .bne _ b => slotIs b.c 0xD2
  | .blt _ b => slotIs b.c 0xD3
  | .bge _ b => slotIs b.c 0xD4
  | .bltu _ b => slotIs b.c 0xD5
  | .bgeu _ b => slotIs b.c 0xD6
  | .loop _ b => slotIs b.c 0xD7
  | .jr _ b => slotIs b.c 0xD8
  | .call _ b => slotIs b.c 0xD9
  | .fsig _ b => slotIs b.c 0xE0
  | .fwait _ b => slotIs b.c 0xE1
  | .fown _ b => slotIs b.c 0xE2
  | .allocMem _ b => slotIs b.c 0xE8
  | .freeMem _ b => slotIs b.c 0xE9
  | .stepBarrier _ b => slotIs b.c 0xEA
  | .coll _ b => slotIs b.c 0xEC
  | .upd _ b => slotIs b.c 0xED
  | .halt _ b => slotIs b.c 0xFE
  | .sealClose c _ | .rekeyPage c _ => decide (c.toNat < 28)
  | .flitReceive n _ | .replayTimeout n | .stallCodeword n | .linkRetrain n _ | .detectTimeout n _ | .linkTrain n _
  | .linkKeyx n _ | .linkRekey n _ _ _ | .linkRetrainFull n | .linkMarginLow n _ => linkIs n
  | .packetForward h => decide (h.pkt.ptype.toNat ≤ 8) && h.pkt.sized
  | .pktWrite p => pktIs p 1
  | .pktReadReq p _ => pktIs p 2
  | .pktReadData p => pktIs p 3
  | .pktAck p => pktIs p 4
  | .pktNak p => pktIs p 5
  | .pktToken p _ _ _ => pktIs p 6
  | .linkStateMsg _ link _ => linkIs link
  | .jointPeer p | .commReady p | .commGrant p | .commBreak p | .cutReq p | .cutStat p | .cutSet p | .cutDone p | .cutCommit p
  | .cutAbort p | .ckptSize p => pktIs p 8
  | .collContrib p | .collPartial p | .reduceResult p | .collGather p | .collBcast p | .barrierUp p | .barrierDown p
  | .collToksum p => pktIs p 7
  | .mbxHello fn | .mbxGo fn | .mbxReady fn | .registerRead fn _ _ _ _ => fnIs fn
  | .startInterfaceRequest _ _ nonce | .domainReport _ nonce => decide (nonce.length = 32)
  | .respondIfReady fl => fnIs fl
  | .bindDomain _ _ _ key sig => decide (key.length = 2592) && decide (sig.length = 4627)
  | .keyRelease _ _ _ _ digest wrapped => decide (digest.length = 48) && decide (wrapped.length = 40)
  | .jointFinish _ digest => decide (digest.length = 48)
  | .registerWrite a => fnIs a.fn && !a.data.isEmpty
  | .syncReq n p | .syncRsp n p | .announce n p => linkIs n && pktIs p 8
  | .throttle group _ _ => decide (group.toNat < 20)
  | .hbmDrift c _ _ => decide (c.toNat < 12)

end Sys2Proof
end

