-- ==== Sys2Proof/Safety.lean ====
section
/-! DEFINITION. The terms in which claims about the device are stated: the canonical form of its memories, and when a Wick may issue a bundle
at once. -/

namespace Sys2Proof.Machine

/-- Every memory that the state holds outside its Wicks is in canonical form: the memory tiers' plaintext and what the device wrote to the
host (addresses strictly rising, no listed byte equal to what an unlisted one reads as). -/
def State.canonical (s : State) : Prop := Memory.wf s.mem.data = true ∧ Memory.wf s.hostMem = true

/-- PF0 registers take a write: the device answers, no guarded write is under way, and neither an A1 nor the Snuffer closes the
block (R400, R401, R583). -/
def State.pf0Free (s : State) : Prop :=
  s.pf0Up = true ∧ s.mgmt.regs.guard = none ∧ s.sec.a1block = false ∧ s.sec.snuffed = false

/-- A packet of type `pt` for a domain of this chip passes the checks made at its arrival (R271, R285). -/
def State.arrives (s : State) (p : Pkt) (pt : BitVec 8) : Prop :=
  s.dev.st = .run ∧ p.ptype = pt ∧ p.dst.toNat = s.fab.chip ∧ p.malformed = false ∧ s.admits p = true

/-! ### Bundles -/

/-- What a run of register acts makes of a Wick. -/
def Wick.regAct (k : Wick) : Act → Wick
  | .s r x => k.setS r x
  | .a r x => k.setA r x
  | .v r x => k.setV r x
  | .t r x => k.setT r x
  | .p r x => k.setP r x
  | .mat op => { k with mq := k.mq ++ [op] }
  | .dma q x => { k with dma := FMap.set [] k.dma q (FMap.get [] k.dma q ++ [x]) }
  | .store _ _ => k
  | .tok _ => k

/-- Not a store. -/
def Act.isReg : Act → Bool
  | .store _ _ => false
  | _ => true

/-- No token dispatch. -/
def Act.isTok : Act → Bool
  | .tok _ => true
  | _ => false

/-- The Wick is there: its context is live and it is not idle. -/
def State.on (s : State) (d c k : Nat) : Prop :=
  ∃ x, s.ctx? d c = some x ∧ x.status = .live ∧ (s.wickAt d c k).run ≠ .idle

/-- The C-slot words that do no more than write registers and set the program counter. -/
def plainC (w : DWord) : Bool :=
  !([0xE0, 0xE1, 0xE2, 0xE8, 0xE9, 0xEA, 0xEC, 0xED, 0xFE].contains (opOf w))

/-- The slots of a bundle, from the registers before it. -/
def State.iss (s : State) (w : WickRef) : Iss := ⟨s, w.d, w.c, w.key, s.wickAt w.d w.c w.key⟩

/-- A bundle whose lines have been read may issue at once: the Wick may run, its fetch and its slots raise no fault, and nothing it needs
is busy (R79, R123, R147). -/
structure Issues (s : State) (w : WickRef) (b : Bundle) : Prop where
  run : s.runnable w = true
  fetch : firstFlt (s.fetchFlts w.d (s.wickAt w.d w.c w.key).pc) = none
  legal : legalBundle b = true
  free : (slotM (s.wickAt w.d w.c w.key) b.m).stall = false ∧ (slotV (s.wickAt w.d w.c w.key) b.v).stall = false
    ∧ (slotX (s.iss w) b.x).stall = false ∧ vStall (s.wickAt w.d w.c w.key) b.v = false
  good : firstFlt (slotM (s.wickAt w.d w.c w.key) b.m).flts = none ∧ firstFlt (slotV (s.wickAt w.d w.c w.key) b.v).flts = none
    ∧ firstFlt (slotX (s.iss w) b.x).flts = none ∧ firstFlt (cFlts (s.iss w) b.c) = none

/-- A Wick issues a bundle at once: it may run, and with the lines that the bundle reads taken in (R230) the bundle may issue. -/
def State.goes (s : State) (w : WickRef) (b : Bundle) : Prop := s.runnable w = true ∧ Issues (s.readFor w b) w b

/-- No stored line holds damage that its check would find (R233, R241). -/
def State.sound (s : State) : Prop := ∀ p ∈ s.mem.noise, p.2 < 2

/-- The acts of a bundle's M, V and X slots. -/
def State.slotActs (s : State) (w : WickRef) (b : Bundle) : List Act :=
  (slotM (s.wickAt w.d w.c w.key) b.m).acts ++ (slotV (s.wickAt w.d w.c w.key) b.v).acts ++ (slotX (s.iss w) b.x).acts

end Sys2Proof.Machine
end

