-- ==== Sys2Proof/Certificates/Slice0/Obligations.lean ====
section
/-! DEFINITION. The statements for the provers, one def Obligations.<Name> each, and the tables of commands they quantify over. -/

namespace Sys2Proof.Claims

open Sys2Proof Sys2Proof.Machine

/-- A command that issues a bundle on a Wick. -/
abbrev Row := WickRef → Bundle → Instr

/-- Only one slot of the bundle holds an instruction. -/
def onlyM (b : Bundle) : Prop := b.v = 0 ∧ b.x = 0 ∧ b.c = 0
def onlyV (b : Bundle) : Prop := b.m = 0 ∧ b.x = 0 ∧ b.c = 0
def onlyX (b : Bundle) : Prop := b.m = 0 ∧ b.v = 0 ∧ b.c = 0
def onlyC (b : Bundle) : Prop := b.m = 0 ∧ b.v = 0 ∧ b.x = 0

/-- A Wick. -/
def wickOf (s : State) (w : WickRef) : Wick := s.wickAt w.d w.c w.key

/-- The state in which that Wick alone is changed: its new registers, and its program counter 32 bytes on. The statements below apply it
to the state in which the lines that a bundle reads have been taken in (R230): it differs from the state before in counters of the memory
tiers alone, unless a line fails its check (`Claims.readingIsQuiet`). -/
def advance (s : State) (w : WickRef) (k : Wick) : State := s.setWickAt w.d w.c w.key (k.setPc ((wickOf s w).pc + 32))

/-- Scalar arithmetic and what it computes (R144, R173). -/
def scalarRows : List (Row × (DWord → DWord → DWord)) :=
  [(.add, fun a b => a + b), (.sub, fun a b => a - b), (.mul, fun a b => a * b), (.andS, fun a b => a &&& b),
   (.orS, fun a b => a ||| b), (.xorS, fun a b => a ^^^ b), (.shl, fun a b => a <<< (b.toNat % 64)),
   (.shr, fun a b => a >>> (b.toNat % 64)), (.sra, fun a b => a.sshiftRight (b.toNat % 64)),
   (.slt, fun a b => if a.toInt < b.toInt then 1 else 0), (.sltu, fun a b => if a.toNat < b.toNat then 1 else 0)]

/-- Conditional branches and when they are taken (R144, R173). -/
def branchRows : List (Row × (DWord → DWord → Bool)) :=
  [(.beq, fun a b => decide (a = b)), (.bne, fun a b => decide (a ≠ b)), (.blt, fun a b => decide (a.toInt < b.toInt)),
   (.bge, fun a b => decide (b.toInt ≤ a.toInt)), (.bltu, fun a b => decide (a.toNat < b.toNat)),
   (.bgeu, fun a b => decide (b.toNat ≤ a.toNat))]

/-- Where a displacement of the C slot leads (R122, R138): the bundle's own address plus 32 times the signed IMM32. -/
def branchTo (k : Wick) (w : DWord) : DWord := k.pc + (w.extractLsb' 32 32).signExtend 64 * 32

/-- Register moves of the X slot and the Wick they leave (R143, R167). -/
def moveRows : List (Row × (State → WickRef → Wick → DWord → Wick)) :=
  [(.movi, fun _ _ k x => k.setS (fld x 8 6) ((x.extractLsb' 32 32).signExtend 64)),
   (.movhi, fun _ _ k x => k.setS (fld x 8 6) (x.extractLsb' 32 32 ++ (k.rs (fld x 8 6)).extractLsb' 0 32)),
   (.movsa, fun _ _ k x => k.setA (fld x 8 4) (k.rs (fld x 14 6))),
   (.movas, fun _ _ k x => k.setS (fld x 8 6) (k.ra (fld x 14 4))),
   (.movsw, fun s w k x => k.setS (fld x 8 6) (s.statusWord w.d w.c w.key)),
   (.vgetl, fun _ _ k x => k.setS (fld x 8 6) ((lane (k.rv (fld x 14 5)) (fld x 32 8)).zeroExtend 64)),
   (.vsetl, fun _ _ k x => k.setV (fld x 8 5) (mkVec fun n =>
      if n = fld x 32 8 then (k.rs (fld x 14 6)).extractLsb' 0 32 else lane (k.rv (fld x 8 5)) n)),
   (.vbcast, fun _ _ k x => k.setV (fld x 8 5) (List.replicate 256 ((k.rs (fld x 14 6)).extractLsb' 0 32))),
   (.aadd, fun _ _ k x => k.setA (fld x 8 4) (addOff (k.ra (fld x 14 4)) ((k.rs (fld x 20 6)).toNat : Int))),
   (.aaddi, fun _ _ k x => k.setA (fld x 8 4) (addOff (k.ra (fld x 14 4)) (x.extractLsb' 32 32).toInt)),
   (.aset, fun _ _ k x => k.setA (fld x 8 4) (x.extractLsb' 32 3 ++ (0 : BitVec 4) ++ (k.rs (fld x 14 6)).extractLsb' 0 57)),
   (.pfromv, fun _ _ k x => k.setP (fld x 8 3) (mkPred fun n => decide (lane (k.rv (fld x 14 5)) n ≠ 0))),
   (.ptov, fun _ _ k x => k.setV (fld x 8 5) (mkVec fun n => if (k.rp (fld x 14 3)).getLsbD n then 1 else 0))]

/-- Source B of lane `i` of a vector instruction (R128): VB, or the low half of a scalar register with BS. -/
def laneB (k : Wick) (x : DWord) (i : Nat) : Word :=
  if x.getLsbD 42 then (k.rs (fld x 43 6)).extractLsb' 0 32 else lane (k.rv (fld x 18 5)) i
/-- Sources A and C of lane `i`. -/
def laneA (k : Wick) (x : DWord) (i : Nat) : Word := lane (k.rv (fld x 13 5)) i
def laneC (k : Wick) (x : DWord) (i : Nat) : Word := lane (k.rv (fld x 23 5)) i
/-- Lane `i` is active (R117): its predicate bit, inverted by PI. -/
def laneOn (k : Wick) (x : DWord) (i : Nat) : Bool := (k.rp (fld x 28 3)).getLsbD i != x.getLsbD 31
/-- The rounding mode of vector arithmetic (R49): RM 1 is toward zero. -/
def rndOf (x : DWord) : Rnd := if fld x 32 2 = 1 then .rtz else .rne

/-- VD with a new value in its active lanes (R117). -/
def laneWise (k : Wick) (x : DWord) (f : Nat → Word) : Wick :=
  k.setV (fld x 8 5) (mkVec fun i => if laneOn k x i then f i else lane (k.rv (fld x 8 5)) i)

/-- Lane arithmetic: the result of one lane from the rounding mode and the three sources (R67, R158, R162 to R164). -/
def laneRows : List (Row × (Rnd → Word → Word → Word → Word)) :=
  [(.vadd, fun r a b _ => fadd r a b), (.vsub, fun r a b _ => fsub r a b), (.vmul, fun r a b _ => fmul r a b),
   (.vfma, fun r a b c => ffma r a b c), (.vdiv, fun r a b _ => fdiv r a b), (.vsqrt, fun r a _ _ => fsqrt r a),
   (.vmax, fun _ a b _ => fmax a b), (.vmin, fun _ a b _ => fmin a b), (.vneg, fun _ a _ _ => if isNaN32 a then 0x7FC00000#32 else a ^^^ 0x80000000#32),
   (.vabs, fun _ a _ _ => if isNaN32 a then 0x7FC00000#32 else a &&& 0x7FFFFFFF#32), (.vsign, fun _ a _ _ => fsign a), (.vexp2, fun _ a _ _ => vexp2 a),
   (.vlog2, fun _ a _ _ => vlog2 a), (.vclass, fun _ a _ _ => vclass a),
   (.viadd, fun _ a b _ => a + b), (.visub, fun _ a b _ => a - b), (.vimul, fun _ a b _ => a * b),
   (.vand, fun _ a b _ => a &&& b), (.vor, fun _ a b _ => a ||| b), (.vxor, fun _ a b _ => a ^^^ b),
   (.vshl, fun _ a b _ => a <<< (b.toNat % 32)), (.vshr, fun _ a b _ => a >>> (b.toNat % 32)),
   (.vsra, fun _ a b _ => a.sshiftRight (b.toNat % 32))]

/-- Compares into a predicate register (R67, R158). -/
def compareRows : List (Row × (Word → Word → Bool)) :=
  [(.vcmpeq, fcmpEq), (.vcmpne, fcmpNe), (.vcmplt, fcmpLt), (.vcmple, fcmpLe)]

/-- Reductions: the operation and its unit (R64). -/
def reduceRows : List (Row × (Word → Word → Word) × Word) :=
  [(.vredsum, fadd .rne, 0), (.vredmax, fmax, 0xFF800000#32), (.vredmin, fmin, 0x7F800000#32)]

/-- Predicate logic (R162). -/
def predRows : List (Row × (BitVec 256 → BitVec 256 → BitVec 256)) :=
  [(.pand, fun a b => a &&& b), (.por, fun a b => a ||| b), (.pxor, fun a b => a ^^^ b), (.pnot, fun a _ => ~~~a)]

/-- Tile moves and the Wick they leave (R153). -/
def tileRows : List (Row × (Wick → DWord → Wick)) :=
  [(.tzero, fun k x => k.setT (fld x 8 3) (List.replicate 4096 0)),
   (.tcopy, fun k x => k.setT (fld x 8 3) (k.rt (fld x 11 3))),
   (.tget, fun k x => k.setV (fld x 14 5) (mkVec fun i => lane (k.rt (fld x 11 3)) (256 * fld x 19 4 + i))),
   (.tput, fun k x => k.setT (fld x 8 3) ((List.range 4096).map fun i =>
      if i / 256 = fld x 19 4 then lane (k.rv (fld x 14 5)) (i % 256) else lane (k.rt (fld x 8 3)) i))]

/-! ### Memory accesses -/

/-- The address register of a load or store after it: advanced by OFF in post-increment form (R132). -/
def post (k : Wick) (x : DWord) (k' : Wick) : Wick :=
  if x.getLsbD 39 then k'.setA (fld x 14 4) (addOff (k.ra (fld x 14 4)) (xmOff x)) else k'

/-- The scale address register of a post-incrementing MX access after it (R133). -/
def postScale (k : Wick) (f : Fmt) (x : DWord) (k' : Wick) : Wick :=
  if x.getLsbD 39 && f.isMX then k'.setA (fld x 48 4) (addOff (k.ra (fld x 48 4)) (scaleOff f x)) else k'

/-- The address and the bytes that each store of an instruction takes: ST, one run; TST, 64 rows of 64 elements. -/
def stBytes (s : State) (w : WickRef) (x : DWord) : List (DWord × List Byte) :=
  [(xmAdr (s.iss w) x, leBytes (2 ^ fld x 36 2) ((wickOf s w).rs (fld x 8 6)).toNat)]
def tstBytes (s : State) (w : WickRef) (x : DWord) : List (DWord × List Byte) :=
  (List.range 64).map fun r =>
    (tileRow (s.iss w) x r, ofWords ((List.range 64).map fun c => lane ((wickOf s w).rt (fld x 8 3)) (64 * r + c)))
/-- VST: the runs of active lanes, or for MX the packed block data and the scales (R165). -/
def vstBytes (s : State) (w : WickRef) (x : DWord) (f : Fmt) : List (DWord × List Byte) :=
  let k := wickOf s w
  let v := k.rv (fld x 8 5)
  let on (n : Nat) : Bool := (k.rp (fld x 44 3)).getLsbD n != x.getLsbD 47
  if f.isMX then
    [(xmAdr (s.iss w) x, leBytes (vecBytes f) (ofBitFields f.bits ((List.range 256).map fun n => (lane v n).toNat))),
     (scaleAdr (s.iss w) f x, (List.range 8).map fun i => (lane v (32 * i)).extractLsb' 8 8)]
  else
    (laneRuns (f.bits / 8) 0 ((List.range 256).map fun n => (on n, leBytes (f.bits / 8) (lane v n).toNat))).map fun p =>
      (addOff (xmAdr (s.iss w) x) (p.1 : Int), p.2)

/-- The state after those stores. -/
def stored (s : State) (w : WickRef) (l : List (DWord × List Byte)) : State :=
  l.foldl (fun t p => t.wrSpace w.d w.c w.key p.1 p.2) s

/-- None of the stores meets a page whose counter is exhausted (R240). -/
def noHold (s : State) (w : WickRef) (l : List (DWord × List Byte)) : Prop :=
  s.heldStore w.d (l.map fun p => .store p.1 p.2) = none

/-- The three stores: the command, and what it stores. -/
def storeRows : List (Row × (State → WickRef → DWord → List (DWord × List Byte))) :=
  [(fun w b => .st w b {}, stBytes), (.tst, tstBytes),
   (.vst, fun s w x => match vecFmt x with | some f => vstBytes s w x f | none => [])]

/-- Is a DPA among those stored to through DOMAIN addresses, a LOCAL or LANTERN offset among those stored to? -/
def domStored (s : State) (w : WickRef) (l : List (DWord × List Byte)) (a : Nat) : Prop :=
  ∃ p ∈ l, spaceOf p.1 = some .dom ∧ ∃ i < p.2.length, (s.dom w.d).dpa (offOf p.1 + i) = some a
def locStored (l : List (DWord × List Byte)) (sp : Space) (a : Nat) : Prop :=
  ∃ p ∈ l, spaceOf p.1 = some sp ∧ offOf p.1 ≤ a ∧ a < offOf p.1 + p.2.length

end Sys2Proof.Claims

open Sys2Proof Sys2Proof.Machine Sys2Proof.Claims

/-- Scalar arithmetic writes its result to sSD, from sSA and source B (IMM32 sign-extended, or sSB); nothing else changes but the
program counter. -/
def Claims.scalarArithmetic : Prop :=
  ∀ row ∈ scalarRows, ∀ (s : State) (w : WickRef) (b : Bundle), (row.1 w b).wf = true → onlyC b → s.goes w b →
    let u := s.readFor w b
    let k := wickOf u w
    let y := if b.c.getLsbD 26 then (b.c.extractLsb' 32 32).signExtend 64 else k.rs (fld b.c 20 6)
    exec (row.1 w b) s = .next (advance u w (k.setS (fld b.c 8 6) (row.2 (k.rs (fld b.c 14 6)) y)))

/-- A conditional branch goes to its target when its condition holds, else to the next bundle; no register changes. -/
def Claims.conditionalBranches : Prop :=
  ∀ row ∈ branchRows, ∀ (s : State) (w : WickRef) (b : Bundle), (row.1 w b).wf = true → onlyC b → s.goes w b →
    let u := s.readFor w b
    let k := wickOf u w
    exec (row.1 w b) s = .next (u.setWickAt w.d w.c w.key
      (k.setPc (if row.2 (k.rs (fld b.c 8 6)) (k.rs (fld b.c 14 6)) then branchTo k b.c else k.pc + 32)))

/-- BR, JR, CALL and LOOP. CALL writes the address of the next bundle to sSA; LOOP takes one from sSA and branches unless that
leaves 0. -/
def Claims.jumpsAndLoops : Prop :=
  ∀ (s : State) (w : WickRef) (b : Bundle), onlyC b → s.goes w b →
    let u := s.readFor w b
    let k := wickOf u w
    let r := fld b.c 8 6
    ((Instr.br w b).wf = true → exec (.br w b) s = .next (u.setWickAt w.d w.c w.key (k.setPc (branchTo k b.c))))
    ∧ ((Instr.jr w b).wf = true → exec (.jr w b) s = .next (u.setWickAt w.d w.c w.key (k.setPc (k.rs r))))
    ∧ ((Instr.call w b).wf = true →
        exec (.call w b) s = .next (u.setWickAt w.d w.c w.key ((k.setS r (k.pc + 32)).setPc (branchTo k b.c))))
    ∧ ((Instr.loop w b).wf = true →
        exec (.loop w b) s = .next (u.setWickAt w.d w.c w.key
          ((k.setS r (k.rs r - 1)).setPc (if k.rs r = 1 then k.pc + 32 else branchTo k b.c))))

/-- R173: scalar arithmetic modulo 2^64 writes its result and nothing else but the program counter; branches compare sSA with sSB, signed or unsigned;
LOOP counts sSA down; CALL writes its link; control transfers go to their targets (R122). -/
def Obligations.ScalarInstructionsFollowTheirRule : Prop := Claims.scalarArithmetic ∧ Claims.conditionalBranches ∧ Claims.jumpsAndLoops

/-- R143, R167: the register moves of the X slot. -/
def Claims.registerMoves : Prop :=
  ∀ row ∈ moveRows, ∀ (s : State) (w : WickRef) (b : Bundle), (row.1 w b).wf = true → onlyX b → s.goes w b →
    let u := s.readFor w b
    exec (row.1 w b) s = .next (advance u w (row.2 u w (wickOf u w) b.x))

/-- R117, R158, R162: lane arithmetic writes the active lanes of vVD and leaves the others. -/
def Obligations.LaneArithmeticWritesActiveLanes : Prop :=
  ∀ row ∈ laneRows, ∀ (s : State) (w : WickRef) (b : Bundle), (row.1 w b).wf = true → onlyV b → s.goes w b →
    let u := s.readFor w b
    let k := wickOf u w
    exec (row.1 w b) s = .next (advance u w
      (laneWise k b.v fun i => row.2 (rndOf b.v) (laneA k b.v i) (laneB k b.v i) (laneC k b.v i)))

/-- R64, R67, R117, R131: compares write the active bits of pPD, VSEL selects per lane, VPERM permutes, and a reduction puts the pairwise
tree's value over the active lanes into every lane. -/
def Claims.compares : Prop :=
  ∀ (s : State) (w : WickRef) (b : Bundle), onlyV b → s.goes w b →
    let u := s.readFor w b
    let k := wickOf u w
    let x := b.v
    (∀ row ∈ compareRows, (row.1 w b).wf = true →
      exec (row.1 w b) s = .next (advance u w (k.setP (fld x 8 3)
        (mkPred fun i => if laneOn k x i then row.2 (laneA k x i) (laneB k x i) else (k.rp (fld x 8 3)).getLsbD i))))
    ∧ (∀ row ∈ reduceRows, (row.1 w b).wf = true →
      exec (row.1 w b) s = .next (advance u w (k.setV (fld x 8 5)
        (List.replicate 256 (pairTree row.2.1 8 (mkVec fun i => if laneOn k x i then laneA k x i else row.2.2))))))
    ∧ (∀ row ∈ predRows, (row.1 w b).wf = true →
      exec (row.1 w b) s = .next (advance u w (k.setP (fld x 8 3) (row.2 (k.rp (fld x 13 3)) (k.rp (fld x 18 3))))))
    ∧ ((Instr.vsel w b).wf = true →
      exec (.vsel w b) s = .next (advance u w (k.setV (fld x 8 5)
        (mkVec fun i => if laneOn k x i then laneA k x i else laneB k x i))))
    ∧ ((Instr.vperm w b).wf = true →
      exec (.vperm w b) s = .next (advance u w
        (laneWise k x fun i => lane (k.rv (fld x 13 5)) ((laneB k x i).toNat % 256))))

/-- R55, R56, R160, R161: VCVT writes the converted lanes, VRAND the 16-bit draw of the stream and element that four scalar registers name. -/
def Claims.conversions : Prop :=
  ∀ (s : State) (w : WickRef) (b : Bundle), onlyV b → s.goes w b →
    let u := s.readFor w b
    let k := wickOf u w
    let x := b.v
    (∀ fs fd, (Instr.vcvt w b).wf = true → Fmt.ofCode (fld x 34 4) = some fs → Fmt.ofCode (fld x 38 4) = some fd →
      exec (.vcvt w b) s = .next (advance u w (laneWise k x fun i => lane (vcvt k x fs fd (k.rv (fld x 13 5))) i)))
    ∧ ((Instr.vrand w b).wf = true →
      let g := fld x 49 6
      exec (.vrand w b) s = .next (advance u w (laneWise k x fun i =>
        (draw (k.rs g) (k.rs (g + 1)) ((k.rs (g + 2)).extractLsb' 0 24) ((k.rs (g + 2)).extractLsb' 24 8)
          (k.rs (g + 3) + BitVec.ofNat 64 i)).zeroExtend 32)))

/-- R55, R56, R64, R67, R117, R131, R160, R161: compares, selects, reductions, predicate logic, conversion and random bits. -/
def Obligations.ComparesConversionsAndReductions : Prop := Claims.compares ∧ Claims.conversions

/-- R113, R153: NOP does nothing but go on; the tile moves write their destination. -/
def Claims.tileMoves : Prop :=
  ∀ (s : State) (w : WickRef) (b : Bundle), onlyM b → s.goes w b →
    let u := s.readFor w b
    (∀ row ∈ tileRows, (row.1 w b).wf = true →
      exec (row.1 w b) s = .next (advance u w (row.2 (wickOf u w) b.m)))
    ∧ ((Instr.nop w b).wf = true → exec (.nop w b) s = .next (advance u w (wickOf u w)))

/-- R113, R143, R153, R167: register moves, tile moves and NOP write their destination and nothing else. -/
def Obligations.MovesWriteTheirDestination : Prop := Claims.registerMoves ∧ Claims.tileMoves

/-- R230, R241: reading lines of which none fails its check changes counters of the memory tiers alone: no byte, no register, no other part of
the device. -/
def Claims.readingIsQuiet : Prop :=
  ∀ (s : State) (w : WickRef) (b : Bundle), s.sound →
    let u := s.readFor w b
    u = { s with mem := u.mem } ∧ u.mem.data = s.mem.data ∧ u.mem.bad = s.mem.bad

/-- R132, R133, R165: a load writes what memory holds, and advances its address register in post-increment form. An LD or ST that meets an event
in memory (R242) is the one that meets none, after it. -/
def Claims.loads : Prop :=
  ∀ (s : State) (w : WickRef) (b : Bundle), onlyX b → s.goes w b →
    let u := s.readFor w b
    let k := wickOf u w
    let x := b.x
    let a := xmAdr (u.iss w) x
    let rd := fun (a : DWord) n => u.rdSpace w.d w.c w.key a n
    ((Instr.ld w b {}).wf = true →
      let n := 2 ^ fld x 36 2
      let v := leNat (rd a n)
      exec (.ld w b {}) s = .next (advance u w (post k x (k.setS (fld x 8 6)
        (if x.getLsbD 38 then BitVec.ofInt 64 (sx (8 * n) v) else BitVec.ofNat 64 v)))))
    ∧ (∀ f, vecFmt x = some f → (Instr.vld w b).wf = true →
      let els := bitFields f.bits 256 (leNat (rd a (vecBytes f)))
      let scs := if f.isMX then rd (scaleAdr (u.iss w) f x) 8 else []
      exec (.vld w b) s = .next (advance u w (postScale k f x (post k x (k.setV (fld x 8 5) (mkVec fun n =>
        if (k.rp (fld x 44 3)).getLsbD n != x.getLsbD 47 then BitVec.ofNat 32 (els.getD n 0 + (scs.getD (n / 32) 0).toNat * 256)
        else lane (k.rv (fld x 8 5)) n))))))
    ∧ ((Instr.tld w b).wf = true →
      exec (.tld w b) s = .next (advance u w (post k x (k.setT (fld x 8 3)
        ((List.range 64).map fun r => toWords (rd (tileRow (u.iss w) x r) 256)).flatten))))

/-- R241 to R243: what a scalar access meets at its line before it issues: a corrected event is counted, a failed line is poisoned. -/
def Claims.memoryEvents : Prop :=
  ∀ (s : State) (w : WickRef) (b : Bundle) (ev : MemEv),
    ((Instr.ld w b ev).wf = true → exec (.ld w b ev) s = exec (.ld w b {}) (s.scalarLine w b ev))
    ∧ ((Instr.st w b ev).wf = true → exec (.st w b ev) s = exec (.st w b {}) (s.scalarLine w b ev))
    ∧ (∀ dp, s.runnable w = true → legalBundle b = true → spaceOf (xmAdr (s.iss w) b.x) = some .dom →
        (s.dom w.d).dpa (offOf (xmAdr (s.iss w) b.x)) = some dp →
        let line := dp / 256 * 256
        s.scalarLine w b {} = s
        ∧ s.scalarLine w b { ev := .corrected }
            = (s.modCtl (ctlOf line) fun x => { x with corr := x.corr + 1 }).corrected line
        ∧ s.scalarLine w b { ev := .failed } = (s.poisonLine w.d line).integEvent w.d
        ∧ (s.poisonLine w.d line).badLine line = true)

/-- R132, R133, R165, R230, R241 to R243: loads, what they meet in memory, and that reading sound lines changes nothing that a program sees. -/
def Obligations.LoadsWriteWhatMemoryHolds : Prop := Claims.loads ∧ Claims.memoryEvents ∧ Claims.readingIsQuiet

/-- R132, R133, R165: a store writes its bytes at its addresses, in order, and advances its address registers in post-increment form; the
Wick's other registers stay. -/
def Obligations.StoresWriteTheirBytes : Prop :=
  ∀ row ∈ storeRows, ∀ (s : State) (w : WickRef) (b : Bundle), (row.1 w b).wf = true → onlyX b → s.goes w b →
    let u := s.readFor w b
    noHold u w (row.2 u w b.x) →
    let k := wickOf u w
    let t := stored u w (row.2 u w b.x)
    let mx (k' : Wick) : Wick := if opOf b.x = 0x83 then (match vecFmt b.x with | some f => postScale k f b.x k' | none => k') else k'
    exec (row.1 w b) s = .next (t.setWickAt w.d w.c w.key ((mx (post k b.x (wickOf t w))).setPc (k.pc + 32)))

/-- R93, R165, frame: a store leaves every byte outside those it stores to, in the memory tiers, in its Wick's LOCAL memory and in its
Lantern's, and every register but the program counter and the address registers it advances. Its state before is that in which its
bundle's lines have been read, which changes no byte (`Claims.readingIsQuiet`). -/
def Obligations.StoresLeaveEveryOtherByte : Prop :=
  ∀ row ∈ storeRows, ∀ (s t : State) (w : WickRef) (b : Bundle), (row.1 w b).wf = true → onlyX b → s.goes w b →
    let u := s.readFor w b
    let l := row.2 u w b.x
    noHold u w l → exec (row.1 w b) s = .next t →
    (∀ a, ¬ domStored u w l a → Memory.rd t.mem.data a = Memory.rd u.mem.data a)
    ∧ (∀ a, ¬ locStored l .loc a → Memory.rd (t.lmemOf w.d w.c w.key false) a = Memory.rd (u.lmemOf w.d w.c w.key false) a)
    ∧ (∀ a, ¬ locStored l .lant a → Memory.rd (t.lmemOf w.d w.c w.key true) a = Memory.rd (u.lmemOf w.d w.c w.key true) a)
    ∧ (∀ k', k' ≠ w.key → t.wickAt w.d w.c k' = u.wickAt w.d w.c k')
    ∧ (wickOf t w).s = (wickOf u w).s ∧ (wickOf t w).v = (wickOf u w).v ∧ (wickOf t w).t = (wickOf u w).t
    ∧ (wickOf t w).p = (wickOf u w).p
    ∧ (∀ i, (b.x.getLsbD 39 = true → i ≠ fld b.x 14 4 ∧ (opOf b.x = 0x83 → i ≠ fld b.x 48 4)) → (wickOf t w).ra i = (wickOf u w).ra i)

/-- R125, R135, R148, R154, R168: MMA and the attention blocks enter the matrix queue, and DMA its DMA queue, with the registers read at issue;
MMA with POST advances its address registers. -/
def Obligations.QueuedInstructionsEnterTheirQueue : Prop :=
  ∀ (s : State) (w : WickRef) (b : Bundle), s.goes w b →
    let u := s.readFor w b
    let k := wickOf u w
    (onlyM b → (Instr.mma w b).wf = true →
      exec (.mma w b) s = .next (advance u w ((mmaPost k b.m).foldl Wick.regAct { k with mq := k.mq ++ [{
        word := b.m, pc := k.pc
        adr := [k.ra (fld b.m 12 4), k.ra (fld b.m 16 4), k.ra (fld b.m 28 4), k.ra (fld b.m 32 4)], sc := [k.rs (fld b.m 48 6)] }] })))
    ∧ (∀ row ∈ ([.attnBlkFwd, .attnBlkBwd] : List Row), onlyM b → (row w b).wf = true →
      let g := fld b.m 11 4
      let h := fld b.m 15 6
      exec (row w b) s = .next (advance u w { k with mq := k.mq ++ [{
        word := b.m, pc := k.pc, adr := [k.ra g, k.ra (g + 1), k.ra (g + 2), k.ra (g + 3)], sc := [k.rs h, k.rs (h + 1), k.rs (h + 2)] }] }))
    ∧ (onlyX b → (Instr.dmaIssue w b).wf = true →
      let q := fld b.x 32 4
      exec (.dmaIssue w b) s = .next (advance u w { k with dma := FMap.set [] k.dma q (FMap.get [] k.dma q ++ [{
        pc := k.pc, src := k.ra (fld b.x 8 4), dst := k.ra (fld b.x 12 4), len := k.rs (fld b.x 16 6)
        fence := if b.x.getLsbD 44 then none else some { wk := w.key, adr := k.ra (fld b.x 22 4), val := k.rs (fld b.x 26 6) }
        tc := if fld b.x 36 2 = 0 then 2 else if fld b.x 36 2 = 1 then 1 else 0
        chip := k.rs (fld b.x 38 6) }]) }))

/-- R136, R172, R271, R288: a TOKD whose token passes its checks is outstanding under the next transfer tag, and its packet is held until its
ACK. -/
def Obligations.TokenDispatchIsOutstandingUntilItsAck : Prop :=
  ∀ (s : State) (w : WickRef) (b : Bundle), onlyX b → s.goes w b → (Instr.tokd w b).wf = true →
    let u := s.readFor w b
    let k := wickOf u w
    let t : TokRec :=
      { pc := k.pc, src := k.ra (fld b.x 8 4), se := k.rs (fld b.x 12 6), key := (k.rs (fld b.x 18 6)).extractLsb' 0 32
        len := k.rs (fld b.x 24 6), direct := b.x.getLsbD 41, ring := fld b.x 42 4
        fence := if b.x.getLsbD 40 then none else some { wk := w.key, adr := k.ra (fld b.x 30 4), val := k.rs (fld b.x 34 6) } }
    let v := (advance u w k).tokReads w t
    ∀ dest, v.liveCtx w.d w.c = true → firstFlt (v.tokFlts w.d t) = none → v.tokDest w.d t = .ok dest →
    ∃ z, exec (.tokd w b) s = .next z
      ∧ wickOf z w = { wickOf v w with tokd := (wickOf v w).tokd ++ [{ t with xtag := v.fab.nextXtag.toNat }] }
      ∧ (s.sound → wickOf v w = k.setPc (k.pc + 32)) ∧ z.fab.nextXtag = v.fab.nextXtag + 1
      ∧ (∃ h, z.fab.held = v.fab.held ++ [h] ∧ h.owner = .tok w.d w.c w.key ∧ h.pkt.xtag = v.fab.nextXtag ∧ h.pkt.ptype = 6
          ∧ h.pkt.dst = BitVec.ofNat 13 dest.1 ∧ h.pkt.data = v.rdSpace w.d w.c w.key t.src t.len.toNat)

/-- R148, R152: the operation at the head of the matrix queue executes on the Wick's tiles and vectors; one whose operand is poisoned leaves them
and faults its context. -/
def Obligations.MatrixOperationsExecuteInOrder : Prop :=
  ∀ (s : State) (w : WickRef) (op : MatOp) (rest : List MatOp), s.canExec w = true → (wickOf s w).mq = op :: rest →
    (∀ ev, ev ≠ .failed → (sigsAfter (wickOf s w).sigs).1 = [] →
      exec (.matrixOpExecute w ev) s = .next ((s.setWickAt w.d w.c w.key
        (matExec (s.matRd w.d w.c w.key) op { wickOf s w with mq := rest, sigs := (sigsAfter (wickOf s w).sigs).2 })).updsRead
        w.d w.c w.key))
    ∧ exec (.matrixOpExecute w .failed) s
        = .next (s.ctxFault w.d w.c w.key .poison (op.pc ||| 1) (op.adr.getD 0 0))

/-- R84, R168, R230: the transfer at the head of a DMA queue reads its source, copies its bytes and leaves the queue. -/
def Obligations.LocalTransfersCopyTheirBytes : Prop :=
  ∀ (s : State) (w : WickRef) (q : BitVec 4) (t : DmaDesc) (rest : List DmaDesc) (ev : MemEv),
    (s.canExec w = true → FMap.get [] (wickOf s w).dma q.toNat = t :: rest → t.sent = false → t.fence = none → t.pos = 0 →
      let r := s.dmaReads w.d w.c w.key t ev
      r.liveCtx w.d w.c = true →
      firstFlt (r.dmaFlts w.d t) = none → 0 < fld t.len 0 32 → isFab t.src = false → isFab t.dst = false →
      let bs := r.rdSpace w.d w.c w.key t.src (fld t.len 0 32)
      r.heldStore w.d [.store t.dst bs] = none →
      let u := r.wrSpace w.d w.c w.key t.dst bs
      exec (.dmaTransferComplete w q ev) s = .next (u.setWickAt w.d w.c w.key
        (Wick.settle { wickOf u w with dma := FMap.set [] (wickOf u w).dma q.toNat ((FMap.get [] (wickOf u w).dma q.toNat).drop 1) })))
    ∧ (s.sound → spaceOf t.src ≠ some .dom → s.dmaReads w.d w.c w.key t ev = s)

/-- R94, R99, R174, R176: FSIG raises a FENCE word to its value and never lowers it; FOWN writes the owner entry. -/
def Obligations.FenceInstructionsUpdateTheirWord : Prop :=
  ∀ (s : State) (w : WickRef) (b : Bundle), onlyC b → s.goes w b →
    let u := s.readFor w b
    let k := wickOf u w
    let a := k.ra (fld b.c 14 4)
    let v := k.rs (fld b.c 18 6)
    let n := offOf a / 8
    let old := FMap.get 0 (u.dom w.d).fences n
    ((Instr.fsig w b).wf = true → k.mq = [] → spaceOf a = some .fence →
      ∃ t, exec (.fsig w b) s = .next t ∧ wickOf t w = k.setPc (k.pc + 32) ∧ t.mem = u.mem
        ∧ (t.dom w.d).fences = FMap.set 0 (u.dom w.d).fences n (if old.toNat < v.toNat then v else old))
    ∧ ((Instr.fsig w b).wf = true → k.mq ≠ [] →
      exec (.fsig w b) s = .next (advance u w { k with sigs := k.sigs ++ [{ adr := a, val := v, after := k.mq.length, pc := k.pc }] }))
    ∧ ((Instr.fown w b).wf = true →
      ∃ t, exec (.fown w b) s = .next t ∧ wickOf t w = k.setPc (k.pc + 32) ∧ t.mem = u.mem
        ∧ (t.dom w.d).owners = FMap.set 0 (u.dom w.d).owners n (v.extractLsb' 0 32))

/-- R95 to R97, R175: FWAIT goes on at once with code 0, or 1 where bit 63 of the word is set, when the word has reached the value; otherwise the
Wick waits, at the FWAIT. -/
def Claims.waitsEnd : Prop :=
  ∀ (s : State) (w : WickRef) (b : Bundle), onlyC b → s.goes w b → (Instr.fwait w b).wf = true →
    let u := s.readFor w b
    let k := wickOf u w
    let a := k.ra (fld b.c 14 4)
    let v := k.rs (fld b.c 18 6)
    let x := u.fenceGet w.d w.c w.key a
    let us := fld (k.rs (fld b.c 24 6)) 0 32
    (v.toNat ≤ x.toNat → exec (.fwait w b) s = .next (advance u w (k.setS (fld b.c 8 6) (if x.getLsbD 63 then 1 else 0))))
    ∧ (x.toNat < v.toNat →
      exec (.fwait w b) s = .next (u.setWickAt w.d w.c w.key { k with run := .waiting {
        b := b, adr := a, val := v, since := u.beacon, timeoutUs := if us = 0 then (u.dom w.d).timeoutUs else us
        flt := b.c.getLsbD 30, sd := fld b.c 8 6 } }))

/-- A Wick of a live resident context waits at an FWAIT that stands alone in its bundle; with the waited word's line read (R230) its context is
still live, and the FWAIT raises no fault. -/
def Claims.WaitsAlone (s : State) (w : WickRef) (r : WaitRec) : Prop :=
  s.canExec w = true ∧ (wickOf s w).run = .waiting r ∧ onlyC r.b ∧ opOf r.b.c = 0xE1
    ∧ (s.readAll w.d [(r.adr, 8)] { r := true }).liveCtx w.d w.c = true
    ∧ firstFlt (cFlts ((s.readAll w.d [(r.adr, 8)] { r := true }).iss w) r.b.c) = none

/-- R96 to R98: a waiting Wick whose word is reached goes on with code 0 or 1, at a signal and at a re-read alike; one whose time is up goes on
with code 2 unless FLT is set, and then faults FTIMEOUT; one whose word is not reached and whose time is not up waits on. -/
def Claims.waitersGoOn : Prop :=
  ∀ (s : State) (w : WickRef) (r : WaitRec), Claims.WaitsAlone s w r →
    let u := s.readAll w.d [(r.adr, 8)] { r := true }
    let k := wickOf u w
    let x := u.fenceGet w.d w.c w.key r.adr
    let go (code : DWord) : State := u.setWickAt w.d w.c w.key
      { (k.setS (fld r.b.c 8 6) code) with pc := k.pc + 32, run := .running }
    (r.val.toNat ≤ x.toNat → exec (.fwaitSatisfied w) s = .next (go (if x.getLsbD 63 then 1 else 0)))
    ∧ (r.val.toNat ≤ x.toNat → s.allWicks = [w] → exec .fwaitReread s = .next (go (if x.getLsbD 63 then 1 else 0)))
    ∧ (x.toNat < r.val.toNat → r.since + r.timeoutUs * 1000 ≤ u.beacon → r.flt = false →
        exec (.fwaitTimeout w) s = .next (go 2))
    ∧ (x.toNat < r.val.toNat → r.since + r.timeoutUs * 1000 ≤ u.beacon → r.flt = true →
        exec (.fwaitTimeout w) s = .next (u.ctxFault w.d w.c w.key .ftimeout k.pc 0))
    ∧ (x.toNat < r.val.toNat → u.beacon < r.since + r.timeoutUs * 1000 → exec (.fwaitTimeout w) s = .next u)
    ∧ (x.toNat < r.val.toNat → exec (.fwaitSatisfied w) s = .next u)

/-- R95 to R98, R175: an FWAIT that is satisfied at once, one that waits, and what ends the wait. -/
def Obligations.WaitsEndWhenTheWordIsReached : Prop := Claims.waitsEnd ∧ Claims.waitersGoOn

/-- R177, R364 to R367: ALLOC writes status 0 and the address of the new record, or the status of its failure and address 0 of DOMAIN; FREE
releases the record and writes its status. -/
def Obligations.AllocationWritesStatusAndAddress : Prop :=
  ∀ (s : State) (w : WickRef) (b : Bundle), onlyC b → s.goes w b →
    let r := s.readFor w b
    let k := wickOf r w
    let u := advance r w k
    let sv := k.rs (fld b.c 22 6)
    let try_ := u.allocate w.d (u.tileOf w.d w.c w.key) (fld sv 0 60) (fld sv 60 4) (b.c.getLsbD 29) (b.c.getLsbD 30) (b.c.getLsbD 31)
    let fr := u.freeAlloc w.d (k.ra (fld b.c 14 4))
    let set (t : State) (k' : Wick) : State := t.setWickAt w.d w.c w.key k'
    ((Instr.allocMem w b).wf = true → ∀ t off, try_ = .ok (t, off) →
      exec (.allocMem w b) s = .next (set t (((wickOf t w).setS (fld b.c 8 6) 0).setA (fld b.c 14 4) (domAdr off))))
    ∧ ((Instr.allocMem w b).wf = true → ∀ e, try_ = .error e →
      exec (.allocMem w b) s = .next (advance r w ((k.setS (fld b.c 8 6) (BitVec.ofNat 64 e)).setA (fld b.c 14 4) (domAdr 0))))
    ∧ ((Instr.freeMem w b).wf = true →
      exec (.freeMem w b) s = .next (set fr.1 ((wickOf fr.1 w).setS (fld b.c 8 6) (BitVec.ofNat 64 fr.2))))

/-- R178, R180: STEP holds its Wick at the barrier with its program counter on the STEP, with the timeout in force at that moment (R368); HALT ends
it, at once where it has no transfer outstanding, else when they are complete. -/
def Claims.stepAndHalt : Prop :=
  ∀ (s : State) (w : WickRef) (b : Bundle), onlyC b → s.goes w b →
    let u := s.readFor w b
    let k := wickOf u w
    ((Instr.stepBarrier w b).wf = true →
      exec (.stepBarrier w b) s = .next (u.setWickAt w.d w.c w.key
        { k with run := .atStep (fld b.c 8 6) u.beacon (u.dom w.d).timeoutUs }))
    ∧ ((Instr.halt w b).wf = true → exec (.halt w b) s = .next (u.setWickAt w.d w.c w.key
      { k with run := if k.tokd = [] ∧ ∀ p ∈ k.dma, p.2 = [] then .halted else .halting }))

/-- The collective that a COLL's command `cmd` launches under sequence number `seq` (R301). -/
def Claims.collOf (cmd : BitVec 512) (seq ctx wk : Nat) (pc : DWord) (fence : Option FenceRef) (now : Nat) : CollOp :=
  { seq := seq, op := cmd.toNat % 2 ^ 8, fmt := cmd.toNat / 2 ^ 8 % 2 ^ 4, count := cmd.toNat / 2 ^ 64 % 2 ^ 64, root := cmd.toNat / 2 ^ 32 % 2 ^ 32
    src := BitVec.ofNat 64 (cmd.toNat / 2 ^ 128 % 2 ^ 64), dst := BitVec.ofNat 64 (cmd.toNat / 2 ^ 192 % 2 ^ 64)
    sig := crc32c (leBytes 16 (cmd.toNat % 2 ^ 128)), ctx := ctx, wk := wk, pc := pc, fence := fence, issued := now }

/-- R179, R303, R305, R322: a COLL whose checks pass joins its communicator's sequence; on a broken communicator it completes as aborted. One
that creates has it wait in order under the next sequence number. R196, R197: an UPD whose checks pass is queued on its engine under the next
launch number, and one that is fused joins its communicator's sequence besides. -/
def Obligations.LaunchesJoinTheirEngine : Prop :=
  ∀ (s : State) (w : WickRef) (b : Bundle), onlyC b → s.goes w b →
    let r := s.readFor w b
    let k := wickOf r w
    let u := advance r w k
    let a := k.ra (fld b.c 14 4)
    let fence : Option FenceRef := if b.c.getLsbD 28 then none
      else some { wk := w.key, adr := k.ra (fld b.c 18 4), val := k.rs (fld b.c 22 6) }
    ((Instr.coll w b).wf = true →
      let cmd : BitVec 512 := launchWord 512 (u.rdSpace w.d w.c w.key a 64)
      let id := cmd.toNat / 2 ^ 16 % 2 ^ 16
      ∀ x, u.comm? w.d id = some x →
      (x.st ≠ .broken → x.ops.length < 64 → u.collFlts w.d cmd (some x) = [] →
        let o := Claims.collOf cmd x.issued w.c w.key k.pc fence u.beacon
        exec (.coll w b) s = .next (u.joinComm w.d id x o)
        ∧ (x.st = .creating → (∀ p ∈ x.ops, p.seq ≠ x.issued) → o.op ≠ 3 →
            u.joinComm w.d id x o = u.setComm w.d id { x with issued := x.issued + 1, ops := x.ops ++ [o] }))
      ∧ (x.st = .broken →
        exec (.coll w b) s = .next ((u.setComm w.d id { x with issued := x.issued + 1, done := x.done + 1 }).abortFence w.d w.c fence)))
    ∧ ((Instr.upd w b).wf = true →
      let desc : BitVec 1024 := launchWord 1024 (u.rdSpace w.d w.c w.key a 128)
      let step := match u.ctx? w.d w.c with | some x => x.step | none => 0
      let u0 : Upd := { num := u.eng.nextUpd, dom := w.d, ctx := w.c, wk := w.key, pc := k.pc, desc := desc, fence := fence
                        step := step, engine := 0, after := k.mq.length }
      let u1 : State := { u with eng := { u.eng with nextUpd := u.eng.nextUpd + 1 } }
      let queued (v : Upd) : State := { u1 with eng := { u1.eng with upds := u.eng.upds ++ [v] } }
      (u0.gsrc = false →
        let v : Upd := { u0 with engine := u.updEngine u0 }
        u1.updFlts v = [] → exec (.upd w b) s = .next (queued v))
      ∧ (∀ x, u0.gsrc = true → u.comm? w.d u0.comm = some x → x.st ≠ .broken → x.ops.length < 64 →
        let v : Upd := { u0 with engine := u.updEngine u0, seq := x.issued }
        u1.updFlts v = [] →
        ∃ o : CollOp, exec (.upd w b) s = .next ((queued v).joinComm w.d u0.comm x o) ∧ o.seq = x.issued ∧ o.upd = some v.num
          ∧ o.op = (if u0.tokmode then 7 else 6) ∧ o.count = u0.nelem ∧ o.src = u0.gradA ∧ o.tok = u0.tokA ∧ o.fence = none))

/-- R81, R114, R123, R359: a bundle that is illegal aborts its context: no Wick and no program is left, and the tag is ABORTED. -/
def Obligations.IllegalBundlesAbortTheirContext : Prop :=
  ∀ (s : State) (w : WickRef) (b : Bundle), (Instr.add w b).wf = true → s.runnable w = true →
    let u := s.readFor w b
    u.runnable w = true → firstFlt (u.fetchFlts w.d (wickOf u w).pc) = none → legalBundle b = false →
    exec (.add w b) s = .next (u.ctxFault w.d w.c w.key .illegal (wickOf u w).pc 0)
    ∧ ∃ x, (u.ctxFault w.d w.c w.key .illegal (wickOf u w).pc 0).ctx? w.d w.c = some x
        ∧ x.status = .aborted ∧ x.prog = none ∧ x.wicks = [] ∧ x.lmem = [] ∧ x.ended = some .illegal

/-- R34, R35, R178: at its boundary a context's step number grows by one, and the domain records the number, the time and the context; with its
program resident every Wick that waits at STEP retires it with the new number, and no other Wick changes; of a program swapped out the STEPs retire
when it is restored. The boundary is not reached while a Wick has not arrived or a reduction or update is outstanding. A Wick that has waited at
STEP beyond the timeout in force when its STEP began faults FTIMEOUT; one that has not is left. -/
def Claims.stepBoundary : Prop :=
  (∀ (s : State) (d : BitVec 8) (c : BitVec 16) (idle) (x : Ctx), s.ctx? d.toNat c.toNat = some x → s.dev.st = .run → x.status = .live →
    x.retire = false → x.held = false →
    (x.allAtStep = true → s.busyCtx d.toNat c.toNat = false → ((s.ck d.toNat).conf = false ∨ (s.ck d.toNat).ctx ≠ c.toNat) →
      ∃ t y p, x.prog = some p ∧ exec (.stepBoundary d { ctx := c, idle := idle }) s = .next t ∧ (t.dom d.toNat).stepNum = x.step + 1
        ∧ (t.dom d.toNat).stepTime = BitVec.ofNat 64 s.beacon ∧ (t.dom d.toNat).stepCtx = c ∧ (t.dom d.toNat).stepCut = false
        ∧ t.ctx? d.toNat c.toNat = some y ∧ y.step = x.step + 1 ∧ y.retire = !p.resident ∧ y.held = false
        ∧ (p.resident = true → ∀ k sd since us, (x.wick k).run = .atStep sd since us →
            y.wick k = { ((x.wick k).setS sd (x.step + 1)) with pc := (x.wick k).pc + 32, run := .running })
        ∧ (p.resident = false → y.wicks = x.wicks)
        ∧ (∀ k, (∀ sd since us, (x.wick k).run ≠ .atStep sd since us) → y.wick k = x.wick k))
    ∧ (x.allAtStep = false ∨ s.busyCtx d.toNat c.toNat = true → exec (.stepBoundary d { ctx := c, idle := idle }) s = .next s))
  ∧ (∀ (s : State) (w : WickRef) (x : Ctx) (sd since us : Nat), s.ctx? w.d w.c = some x → s.dev.st = .run → x.status = .live →
    x.retire = false → x.held = false → (x.wick w.key).run = .atStep sd since us →
    (since + us * 1000 < s.beacon →
      exec (.stepTimeout w) s = .next (s.ctxFault w.d w.c w.key .ftimeout (x.wick w.key).pc 0)
      ∧ ∃ y, (s.ctxFault w.d w.c w.key .ftimeout (x.wick w.key).pc 0).ctx? w.d w.c = some y ∧ y.status = .aborted
          ∧ y.ended = some .ftimeout)
    ∧ (s.beacon ≤ since + us * 1000 → exec (.stepTimeout w) s = .next s))

/-- R34, R35, R178, R180: STEP and HALT hold their Wick; the boundary records the step and releases the Wicks; a STEP that waits too long faults. -/
def Obligations.StepsAndHaltsHoldTheirWick : Prop := Claims.stepAndHalt ∧ Claims.stepBoundary

/-- R100: a deadlock scan aborts every context that has a Wick on a cycle of waits. -/
def Obligations.DeadlockScanAbortsCycles : Prop :=
  ∀ s : State, s.dev.st = .run → ∃ t, exec .deadlockScan s = .next t
    ∧ ∀ w ∈ s.allWicks, s.onCycle w.d (w.c, w.key) (s.allWicks.length + 1) (w.c, w.key) = true →
      ∃ x, t.ctx? w.d w.c = some x ∧ x.status = .aborted

/-- R103, R108, R492, R493: an edge takes a new quantum into effect; a context that has its Lanterns to itself is restored at an edge, or between
edges where they are idle; a folded pair whose Wicks do not wait changes turns when 200 µs are over, and not before. -/
def Obligations.TimeSlicesGiveTurns : Prop :=
  (∀ (s : State) (bad), s.dev.st = .run → s.placed = [] →
    exec (.quantumEdge bad) s = .next (match s.bcn.newQuantum with
      | some q => { s with bcn := { s.bcn with quantum := q, newQuantum := none } }
      | none => s))
  ∧ (∀ (i : Instr) (s : State) (x : Placed) (y : Ctx), i = .quantumEdge [] ∨ i = .idlePlacement [] →
      (∀ l ∈ x.p.lants, (s.lantern l).owner = none) → s.dev.st = .run → s.placed = [x] → s.ctx? x.d x.c = some y →
      y.prog = some x.p → x.p.resident = false → (∀ q ∈ s.slotsLack x.p, q.2 = 0) → y.retire = false →
      (x.p.saved = false ∨ ∀ n < x.p.lants.length, s.imageOk x.p n = true) → (∀ d c k r, (s.wickAt d c k).run ≠ .waiting r) →
      ∃ t z p, exec i s = .next t ∧ t.ctx? x.d x.c = some z ∧ z.prog = some p ∧ p.resident = true ∧ z.wicks = y.wicks ∧ z.lmem = y.lmem
        ∧ ∀ l ∈ x.p.lants, (t.lantern l).owner = some (x.d, x.c))
  ∧ (∀ (s : State) (l : BitVec 6) (p : BitVec 3) (o : Nat × Nat) (pr : Prog) (i j : Nat), s.dev.st = .run →
      (s.lantern l.toNat).owner = some o → (s.ctx? o.1 o.2).bind (·.prog) = some pr →
      (List.range 8).filter (fun q => (s.lantern l.toNat).map.getD q q == p.toNat) = [i, j] →
      (∀ k r, (s.wickAt o.1 o.2 k).run ≠ .waiting r) → o.1 < 256 → o.2 < 65536 →
      let x := s.lantern l.toNat
      let last := FMap.get 0 x.turnAt p.toNat
      (last + 200000 ≤ s.beacon → exec (.foldSwitch l p) s = .next
        ((s.saveArea o.1 o.2 pr (pr.llantOf l.toNat) (if x.off.getLsbD i then j else i)).setLantern l.toNat
          { x with off := x.off ^^^ ((1#8 <<< i) ||| (1#8 <<< j)), turnAt := FMap.set 0 x.turnAt p.toNat s.beacon }))
      ∧ (s.beacon < last + 200000 → exec (.foldSwitch l p) s = .next s))

/-- A context with a program on Lantern `l` aborts with `code` in its record, which names logical Wick `j` there and its program counter. -/
def Claims.abortsAt (s : State) (d c : Nat) (pr : Prog) (l j : Nat) (code : FCode) (t : State) : Prop :=
  let k := 8 * pr.llantOf l + j
  t = s.ctxFault d c k code (s.wickAt d c k).pc 0 ∧ ∃ y, t.ctx? d c = some y ∧ y.status = .aborted ∧ y.ended = some code

/-- R106, R110, R505: a second uncorrectable event within 24 h fences the Wick or the Lantern, a residue mismatch fences the Wick at once, and the
fence is recorded in NVS; the first event aborts the context that runs there with POISON, its record naming the logical Wick that ran on the
failing one. -/
def Obligations.UncorrectableEventsFence : Prop :=
  (∀ (s : State) (l : BitVec 6) (p : BitVec 3) (t0 : Nat), s.dev.st = .run → (s.lantern l.toNat).owner = none → s.placed = [] →
    FMap.get [] (s.lantern l.toNat).errs p.toNat = [t0] → s.beacon < t0 + 24 * 3600 * 1000000000 →
    ∃ t, exec (.wickUncorrectableEcc l p) s = .next t ∧ (t.lantern l.toNat).fenced.getLsbD p.toNat = true
      ∧ (0, 8 * l.toNat + p.toNat) ∈ t.mgmt.nvs.fences)
  ∧ (∀ (s : State) (l : BitVec 6) (t0 : Nat), s.dev.st = .run → (s.lantern l.toNat).owner = none → s.placed = [] →
    FMap.get [] (s.lantern l.toNat).errs 8 = [t0] → s.beacon < t0 + 24 * 3600 * 1000000000 →
    ∃ t, exec (.lanternUncorrectableEcc l) s = .next t ∧ (t.lantern l.toNat).whole = true ∧ (1, l.toNat) ∈ t.mgmt.nvs.fences)
  ∧ (∀ (s : State) (l : BitVec 6) (p : BitVec 3), s.dev.st = .run → (s.lantern l.toNat).owner = none → s.placed = [] →
    ∃ t, exec (.residueCheckMismatch l p) s = .next t ∧ (t.lantern l.toNat).fenced.getLsbD p.toNat = true
      ∧ (0, 8 * l.toNat + p.toNat) ∈ t.mgmt.nvs.fences)
  ∧ (∀ (s : State) (l : BitVec 6) (p : BitVec 3) (d c : Nat) (x : Ctx) (pr : Prog), s.dev.st = .run →
    (s.lantern l.toNat).owner = some (d, c) → s.ctx? d c = some x → x.status = .live → x.prog = some pr →
    (FMap.get [] (s.lantern l.toNat).errs p.toNat = [] →
      ∃ t, exec (.wickUncorrectableEcc l p) s = .next t ∧ Claims.abortsAt (s.setLantern l.toNat { s.lantern l.toNat with
        errs := FMap.set [] (s.lantern l.toNat).errs p.toNat [s.beacon] }) d c pr l.toNat ((s.lantern l.toNat).runs p.toNat) .poison t)
    ∧ (FMap.get [] (s.lantern l.toNat).errs 8 = [] →
      ∃ t u, exec (.lanternUncorrectableEcc l) s = .next t ∧ Claims.abortsAt s d c pr l.toNat 0 .poison u
        ∧ t = u.setLantern l.toNat { u.lantern l.toNat with errs := FMap.set [] (u.lantern l.toNat).errs 8 [u.beacon] }))

/-- The rule of update `u` runs in `s`, its arrays read, on total `t` and gradient `g`, and leaves `o` without a fault. -/
def Claims.ruleRuns (s : State) (u : Upd) (t : DWord) (g : List Word) (o : UpdOut) : Prop :=
  let r := s.readAll u.dom u.readArrays
  (r.eng.upds.any fun v => v.num == u.num) = true ∧ o = r.runRule u t g none ∧ o.flt = none

/-- Its total and gradient are those in memory. -/
def Claims.ownGradient (s : State) (u : Upd) (t : DWord) (g : List Word) : Prop :=
  let r := s.readAll u.dom u.readArrays
  r.engRead u.dom u.tokA 8 = .ok (leBytes 8 t.toNat) ∧ r.badChunk u.dom u.gradA 4 u.nelem true = none
    ∧ g = r.rdW u.dom u.gradA u.nelem

/-- Update number `n` written: what its record will say is noted, and it holds no FIFO or staging. -/
def Claims.writtenUpd (o : UpdOut) (n : Nat) (t : DWord) : State :=
  o.s.modUpd n fun v => { v with phase := .written, fifo := 0, fifoSp := 0, stage := 0, total := t, nf := o.nf, auxval := o.aux }

/-- R186, R197: the update at the head of a domain's queue runs its rule, on the gradient in memory or on the reduced one that has arrived; one
whose Lantern is swapped out parks, its gradient held in staging, and runs when the Lantern is back. -/
def Claims.updatesRun : Prop :=
  (∀ (s : State) (n : BitVec 1) (d : BitVec 8) (u : Upd), s.headUpd n.toNat d.toNat = some u →
    (u.after ≠ 0 → exec (.updateStart n d) s = .next s)
    ∧ (∀ t g o, u.after = 0 → s.updSwapped u = false → u.gsrc = false → Claims.ownGradient s u t g → Claims.ruleRuns s u t g o →
      exec (.updateStart n d) s = .next (Claims.writtenUpd o u.num t))
    ∧ (∀ t o, u.after = 0 → s.updSwapped u = false → u.gsrc = true → u.tok = some t → u.nelem ≤ u.grad.length →
      Claims.ruleRuns (s.modUpd u.num fun v => { v with fifo := 0, fifoSp := 0, stage := 0 }) u t u.grad o →
      exec (.updateStart n d) s = .next (Claims.writtenUpd o u.num t))
    ∧ (u.after = 0 → s.updSwapped u = false → u.gsrc = true → (u.tok = none ∨ u.grad.length < u.nelem) →
      exec (.updateStart n d) s
        = .next ((s.modUpd u.num fun v => { v with fifo := 0, fifoSp := 0, stage := 0 }).collRun u.dom u.comm))
    ∧ (u.after = 0 → s.updSwapped u = true →
      let m := min u.fifo (s.stageRoom u.engine u.dom)
      exec (.updateStart n d) s = .next ((s.modUpd u.num fun v => { v with
          phase := .parked, stage := v.stage + m, fifo := v.fifo - m, fifoSp := v.fifoSp - min m v.fifoSp
          spilled := v.spilled + (m - min m v.fifoSp) }).modUpdEng u.engine fun x => { x with spillTot := x.spillTot + m })))
  ∧ (∀ (s : State) (n : BitVec 1) (d : BitVec 8) (u : Upd),
    ((s.updsOn n.toNat).find? fun v => v.dom == d.toNat && v.phase == .parked) = some u →
    (∀ t g o, s.updSwapped u = false → u.gsrc = false →
      let s1 := s.modUpd u.num fun v => { v with phase := .queued }
      Claims.ownGradient s1 u t g → Claims.ruleRuns s1 u t g o →
      exec (.parkedUpdateResume n d) s = .next (Claims.writtenUpd o u.num t))
    ∧ (s.updSwapped u = true → exec (.parkedUpdateResume n d) s = .next s))

/-- R191, R198: an update that is written, and whose fused reduction is done, completes: the ZEROG writes, the record, then its fence; the engine
counts it. One not yet written stays. -/
def Claims.updatesComplete : Prop :=
  ∀ (s : State) (d : BitVec 8) (c : BitVec 16) (u : Upd), (s.eng.upds.find? fun v => v.dom == d.toNat && v.ctx == c.toNat) = some u →
    (∀ z t, u.phase = .written → s.fusedDone u = true → (u.gsrc && s.fusedBefore u.dom u.comm u.seq) = false →
      (if u.zerog then ∃ y, s.engWrite u.dom u.gradA (List.replicate (4 * u.nelem) 0) = .ok y ∧ y.engWrite u.dom u.tokA (leBytes 8 0) = .ok z
        else z = s) →
      z.engWrite u.dom u.recA (z.updRecord u) = .ok t → FMap.wf {} s.eng.upd = true →
      let left : State := { t with eng := { t.eng with upds := t.eng.upds.filter fun v => v.num != u.num } }
      let v := (left.settleResv u.engine u.dom).modUpdEng u.engine fun x => { x with done := x.done + 1 }
      exec (.updateComplete d c) s = .next (v.signalFence u.dom u.ctx u.fence u.pc (leBytes 8 u.num)).lateSwap
        ∧ v.eng.upds = s.eng.upds.filter (fun v => v.num != u.num) ∧ (v.updEng u.engine).done = (s.updEng u.engine).done + 1)
    ∧ (u.phase ≠ .written → exec (.updateComplete d c) s = .next s)

/-- R36: staged data enters the FIFO where there is room. -/
def Claims.stagingDrains : Prop :=
  ∀ (s : State) (n : BitVec 1) (v : Upd), s.eng.upds = [v] → v.engine = n.toNat → v.phase ≠ .parked → 0 < v.stage → v.stage ≤ 4096 →
    s.fifoFits v.engine v v.stage = true → s.comm? v.dom v.comm = none →
    exec (.spillDrain n) s = .next { s with eng := { s.eng with
      upds := [{ v with fifo := v.fifo + v.stage, fifoSp := v.fifoSp + v.stage, stage := 0 }] } }

/-- R36, R186, R191, R197, R198: an update at the head of its queue runs, or parks while its Lantern is swapped out, and completes with its record
and its fence; staged gradient enters the FIFO. -/
def Obligations.UpdatesRunAndComplete : Prop := Claims.updatesRun ∧ Claims.updatesComplete ∧ Claims.stagingDrains

/-- R232, R237 to R239: an idle seal entry closes and its tag block is written; the page at the head of the re-key queue begins its re-key with the
next counter of its domain's present generation, which advances first where the page and every other are already in it; when its last line is
rewritten the page is in that generation, its data as before. -/
def Claims.pagesRekey : Prop :=
  (∀ (s : State) (c : BitVec 5) (p : BitVec 20) (e : Seal), ((s.ctl c.toNat).seals.find? fun x => x.page == p.toNat) = some e →
    (e.last + sealIdle c.toNat ≤ s.clk → exec (.sealClose c p) s = .next (s.setCtl c.toNat { s.ctl c.toNat with
      seals := (s.ctl c.toNat).seals.filter fun x => x.page != p.toNat, tagb := (s.ctl c.toNat).tagb + e.bytes c.toNat }))
    ∧ (s.clk < e.last + sealIdle c.toNat → exec (.sealClose c p) s = .next s))
  ∧ (∀ (s : State) (c : BitVec 5) (p d : Nat) (rest : List Nat), s.dev.st = .run → (s.ctl c.toNat).rk = none →
    (s.ctl c.toNat).rkq = p :: rest → s.pageOwner c.toNat p = some d → FMap.wf {} s.mem.ctls = true →
    let g := FMap.get {} (s.ctl c.toNat).gens d
    ((s.ctl c.toNat).inCur d p = false →
      ∃ t, exec (.rekeyPage c {}) s = .next t ∧ t.mem.data = s.mem.data
        ∧ (t.ctl c.toNat).rk = some { page := p, dom := d, next := 0, cNew := g.h + 1, sweep := false }
        ∧ FMap.get {} (t.ctl c.toNat).gens d = { g with h := g.h + 1 })
    ∧ ((s.ctl c.toNat).inCur d p = true → ((s.ctl c.toNat).oldPage? d fun q => s.pageOwner c.toNat q == some d) = none →
      ∃ t, exec (.rekeyPage c {}) s = .next t ∧ t.mem.data = s.mem.data
        ∧ (t.ctl c.toNat).rk = some { page := p, dom := d, next := 0, cNew := 1, sweep := false }
        ∧ FMap.get {} (t.ctl c.toNat).gens d = { g := g.g + 1, h := 1, hOld := g.h, key := s.newKey memKeyLen, keyOld := g.key })
    ∧ (∀ q, (s.ctl c.toNat).inCur d p = true → ((s.ctl c.toNat).oldPage? d fun q => s.pageOwner c.toNat q == some d) = some q →
      ∃ t, exec (.rekeyPage c {}) s = .next t
        ∧ (t.ctl c.toNat).rk = some { page := q, dom := d, next := 0, cNew := g.h + 1, sweep := true }))
  ∧ (∀ (s : State) (c : BitVec 5) (n : BitVec 11) (r : Rekeying), s.dev.st = .run → (s.ctl c.toNat).rk = some r → r.sweep = false →
    r.next ≤ pageLines c.toNat → pageLines c.toNat ≤ r.next + n.toNat → s.mem.heldW = [] → FMap.wf {} s.mem.ctls = true →
    (∀ l, r.next ≤ l → l < pageLines c.toNat → FMap.get 0 s.mem.noise ((dpaOfPage c.toNat r.page + 256 * l) / 256) = 0) →
    ∃ t, exec (.rekeyPage c { n := n }) s = .next t ∧ t.mem.data = s.mem.data ∧ (t.ctl c.toNat).rekeys = (s.ctl c.toNat).rekeys + 1
      ∧ (t.ctl c.toNat).rk = none
      ∧ (t.ctl c.toNat).c = FMap.set 0 (s.ctl c.toNat).c r.page r.cNew
      ∧ (t.ctl c.toNat).parity
          = FMap.set false (s.ctl c.toNat).parity r.page ((FMap.get {} (s.ctl c.toNat).gens r.dom).g % 2 == 1)
      ∧ ∀ l, r.next ≤ l → l < pageLines c.toNat → FMap.find? (t.ctl c.toNat).e (r.page * 1024 + l)
          = (FMap.find? (s.ctl c.toNat).e (r.page * 1024 + l)).map fun _ => r.cNew)

/-- R231, R233: a line read from its stored slot is poison or zeros where the slot holds that marker, data of the epoch that the slot holds where
that epoch is in the range of its page's counter, and fails beyond it. -/
def Claims.linesAreAccepted : Prop :=
  ∀ (s : State) (c p j : Nat),
    let bad := FMap.get false s.mem.bad (lineDpa c p j / 256)
    let e := FMap.get 0 (s.ctl c).e (p * 1024 + j)
    (bad = true → s.lineRead c p j = .poison)
    ∧ (bad = false → e = 0 → s.lineRead c p j = .zeros)
    ∧ (bad = false → 1 ≤ e → e ≤ 0xFFFFFFFD → e ≤ s.lineC c p j → s.lineRead c p j = .data e)
    ∧ (bad = false → e ≤ 0xFFFFFFFD → s.lineC c p j < e → s.lineRead c p j = .failed)

/-- R227, R228: the walk of a domain's tables finds the leaf of a virtual page, and nothing where the page has none. -/
def Claims.walksFindLeaves : Prop :=
  ∀ (m : Dom) (d : Nat) (rsv : Bool) (page : Nat),
    let leaf := FMap.find? (if rsv then m.ptR else m.ptH) page
    (∀ p, leaf = some p → p.frame % 2 ^ 12 = 0 ∧ p.frame < 2 ^ 42) → m.walk d rsv page (topLevel rsv) = leaf

/-- R227, R228, R231 to R233, R237 to R239: what the memory tiers hold of a page: its tables lead to its frame, its lines are accepted by their
slots, its seal entry closes when idle, and a re-key gives it the next counter and generation. -/
def Obligations.PagesCloseAndAreRekeyed : Prop := Claims.pagesRekey ∧ Claims.linesAreAccepted ∧ Claims.walksFindLeaves

/-! ### Links and packets -/

/-- Only the state of one link may differ. -/
def Claims.onlyLink (s t : State) (n : Nat) : Prop :=
  t = { s with fab := { s.fab with links := t.fab.links } } ∧ ∀ m, m ≠ n → t.link m = s.link m

/-- R254, R257, R258: what the receiver of a link that is UP makes of a frame. A flit that passes its checks advances the sequence and applies
ACKSEQ; one whose tag fails and a codeword that FEC cannot correct are discarded and counted, and the next flit sent carries NAK. The transmitter
then answers in its own frame. -/
def Claims.flitsAreChecked : Prop :=
  ∀ (s : State) (n : BitVec 6) (f : FlitIn), n.toNat < 36 → (s.link n.toNat).st = .up →
    let l := s.link n.toNat
    let t := s.recvFlit n.toNat f
    let l' := t.link n.toNat
    let cvc := (f.hdr.extractLsb' 13 5).toNat
    ((f.hdr ≠ 0 ∨ f.unc = true) →
      exec (.flitReceive n f) s = .next ({ t with fab := t.fab.answer t.clk n.toNat } : State).serveReads)
    ∧ (f.unc = false → f.syms.toNat ≤ l.fecLimit → f.hdr ≠ 0 → f.intact = true → f.hdr.extractLsb' 26 6 = 0 → (cvc < 20 ∨ cvc = 31) →
        f.hdr.getLsbD 12 = false → f.hdr.getLsbD 24 = l.rxEpoch → f.seq.toNat = l.rxSeq →
      Claims.onlyLink s t n.toNat ∧ l'.st = .up ∧ l'.rxSeq = l.rxSeq + 1 ∧ l'.nak = l.nak ∧ l'.gap = false
        ∧ l'.kept = ackTo l.kept (f.hdr.extractLsb' 0 12).toNat ∧ l'.fecCorr = l.fecCorr + f.syms.toNat)
    ∧ (f.unc = false → f.syms.toNat ≤ l.fecLimit → f.hdr ≠ 0 → f.intact = false → l.seqRun < 15 → (secCount s.beacon 1 l.tagSec).2 < 17 →
      Claims.onlyLink s t n.toNat ∧ l'.st = .up ∧ l'.rxSeq = l.rxSeq ∧ l'.nak = true ∧ l'.tagFail = l.tagFail + 1)
    ∧ (f.unc = true ∨ l.fecLimit < f.syms.toNat → l.uncRun < 7 → l.light = false →
      Claims.onlyLink s t n.toNat ∧ l'.st = .up ∧ l'.rxSeq = l.rxSeq ∧ l'.nak = true ∧ l'.fecUnc = l.fecUnc + 1)

/-- R254, R257, R258: a transmitter with nothing to send answers with an IDLE flit, numbered and kept until it is acknowledged, whose header carries
the last accepted number, NAK and the key epoch. -/
def Claims.idleFlitsAnswer : Prop :=
  ∀ (f : FabSt) (now n : Nat),
    let l := f.link n
    l.st = .up → l.quietAt = none → l.queue = [] → l.stream = [] → l.back = [] → l.kept.length < 256 →
    let l' := (f.answer now n).link n
    ∃ x, l'.kept = l.kept ++ [x] ∧ l'.txSeq = l.txSeq + 1 ∧ l'.nak = false ∧ x.seq = l.txSeq ∧ x.epoch = l.kepoch ∧ x.pkts = []
      ∧ x.hdr.extractLsb' 0 12 = BitVec.ofNat 12 (l.rxSeq + 4095) ∧ x.hdr.getLsbD 12 = l.nak ∧ x.hdr.getLsbD 24 = l.kepoch
      ∧ x.hdr.getLsbD 25 = true

/-- R254, R257, R258: flits are checked, numbered and answered; unacknowledged flits are replayed after 2 µs without an acknowledgement, and not
before; a stall codeword is skipped. -/
def Obligations.LinkFlitsAreNumberedAndReplayed : Prop :=
  Claims.flitsAreChecked ∧ Claims.idleFlitsAnswer
  ∧ ∀ (s : State) (n : BitVec 6),
    let l := s.link n.toNat
    l.st = .up →
    (l.kept ≠ [] → l.ackAt + 2000 ≤ s.clk → (secCount s.beacon l.kept.length l.resSec).2 ≤ 64 →
      exec (.replayTimeout n) s = .next (s.setLink n.toNat { l with
        replay := l.replay + l.kept.length, resSec := secCount s.beacon l.kept.length l.resSec, ackAt := s.clk }))
    ∧ (s.clk < l.ackAt + 2000 → exec (.replayTimeout n) s = .next s)
    ∧ exec (.stallCodeword n) s = .next (s.setLink n.toNat { l with uncRun := 0 })

/-- R259, R263 to R267: training takes a link from DETECT through TRAIN to KEYX when it finds its peer, key exchange to UP with keys of both
directions and fresh numbers, and a failure to DOWN with its cause; loss of frame lock enters a short retrain, whose success returns UP and resends;
a re-key gives a direction its next key; RETRAIN restarts from DETECT. -/
def Obligations.LinksTrainAndExchangeKeys : Prop :=
  ∀ (s : State) (n : BitVec 6),
    let l := s.link n.toNat
    (∀ o : TrainIn, l.st = .detect → o.signal = true →
      ∃ t, exec (.linkTrain n o) s = .next t ∧ (t.link n.toNat).st = .train ∧ (t.link n.toNat).short = false)
    ∧ (∀ o : TrainIn, l.st = .train → l.keyed = false → o.signal = true → let b := l.badLanes ||| o.bad
      (b.extractLsb' 0 4 = 0 ∨ b.extractLsb' 4 4 = 0) → o.eq = true → o.lock = true →
      s.expectPeer n.toNat = some (o.peer.toNat, o.peerLink.toNat) →
      ∃ t, exec (.linkTrain n o) s = .next t ∧ (t.link n.toNat).st = .keyx ∧ (t.link n.toNat).peer = o.peer.toNat
        ∧ (t.link n.toNat).peerLink = o.peerLink.toNat ∧ (t.link n.toNat).badLanes = b
        ∧ (t.link n.toNat).width4 = decide (b ≠ 0) ∧ (t.link n.toNat).light = (l.fecReq && o.light && !l.stdOnly))
    ∧ (∀ k : KeyxIn, l.st = .keyx → k.chain = true → k.lc.toNat = s.sec.lc.num → s.fab.minSvn ≤ k.svn.toNat →
      s.expectPeer n.toNat = some (k.peer.toNat, k.peerLink.toNat) → s.sec.rngDead = false →
      ∃ u : State, exec (.linkKeyx n k) s = .next (u.linkTold n.toNat) ∧ (u.link n.toNat).st = .up
        ∧ (u.link n.toNat).txKey.isSome = true ∧ (u.link n.toNat).rxKey.isSome = true ∧ (u.link n.toNat).txSeq = 0
        ∧ (u.link n.toNat).rxSeq = 0 ∧ (u.link n.toNat).rxEpoch = false ∧ (u.link n.toNat).kepoch = false ∧ (u.link n.toNat).kept = [])
    ∧ (∀ k : KeyxIn, l.st = .keyx → k.chain = false →
      ∃ t, exec (.linkKeyx n k) s = .next t ∧ (t.link n.toNat).st = .down ∧ (t.link n.toNat).cause = .auth)
    ∧ (l.st = .detect → l.since + 10000000 ≤ s.clk →
      ∃ t, exec (.detectTimeout n true) s = .next t ∧ (t.link n.toNat).st = .down ∧ (t.link n.toNat).cause = .peerProtocol)
    ∧ (l.st = .detect → l.since + 100000000 ≤ s.clk →
      ∃ t, exec (.detectTimeout n false) s = .next t ∧ (t.link n.toNat).st = .down ∧ (t.link n.toNat).cause = .noSignal)
    ∧ (∀ r, l.st = .up → ∃ t, exec (.linkRetrain n r) s = .next t ∧ (t.link n.toNat).st = .train
        ∧ (t.link n.toNat).short = true ∧ (t.link n.toNat).txKey = l.txKey ∧ (t.link n.toNat).rxKey = l.rxKey)
    ∧ (∀ bad light, l.st = .train → l.keyed = true → let b := l.badLanes ||| bad
      (b.extractLsb' 0 4 = 0 ∨ b.extractLsb' 4 4 = 0) → (secCount s.beacon l.kept.length l.resSec).2 ≤ 64 →
      ∃ t, exec (.linkRetrain n (.ok bad light)) s = .next t ∧ (t.link n.toNat).st = .up
        ∧ (t.link n.toNat).replay = l.replay + l.kept.length ∧ (t.link n.toNat).light = (l.fecReq && light && !l.stdOnly))
    ∧ (∀ k req, l.st = .up → s.keyxOk n.toNat k = true → s.sec.rngDead = false →
      (req = true ∨ 2 ^ 36 ≤ l.keyFlits →
        ∃ t, exec (.linkRekey n false req k) s = .next t ∧ (t.link n.toNat).txKey.isSome = true ∧ (t.link n.toNat).kepoch = !l.kepoch
          ∧ (t.link n.toNat).txSeq = 0 ∧ (t.link n.toNat).keyFlits = 0 ∧ l.kept <+: (t.link n.toNat).kept)
      ∧ ∃ t x, exec (.linkRekey n true req k) s = .next t ∧ t.link n.toNat = { l with rxNext := some x })
    ∧ (n.toNat < 36 → s.pf0Free → l.st ≠ .off → ∃ t, exec (.linkRetrainFull n) s = .next t ∧ (t.link n.toNat).st = .detect
        ∧ (t.link n.toNat).keyed = false)

/-- R92, R271, R283: a READ_REQ enters the queue of its ingress port, or is refused BUSY where that holds 256; one alone whose answer can leave is
answered with READ_DATA in the class that the transfer selects. -/
def Claims.readsAreServed : Prop :=
  ∀ (s : State) (p : Pkt), s.arrives p 2 →
    let u := s.freeIn p
    (∀ x, 256 ≤ (u.reqsAt p.port).length → exec (.pktReadReq p x) s = .next (u.nak p 4))
    ∧ (∀ x, (u.reqsAt p.port).length < 256 →
      exec (.pktReadReq p x) s = .next ((u.strike x).setReqs p.port (u.reqsAt p.port ++ [p])).serveReads)
    ∧ (p.img = false → s.fab.reqs = [] → u.answerFree p = true →
      let v := u.readAll p.ddom.toNat [(p.adr, p.bytes.toNat)] { r := true }
      v.remoteFlt p.ddom.toNat p.adr p.bytes.toNat { r := true } = none →
      exec (.pktReadReq p []) s = .next (v.sendHeld { v.pktTo p.ddom.toNat p.src.toNat with
        tc := p.rtc, ptype := 3, bytes := p.bytes, data := v.rdDom p.ddom.toNat (offOf p.adr) p.bytes.toNat, adr := p.aux } .answer))

/-- R92, R171, R271, R273, R283, R285: a WRITE is written and acknowledged; a READ_REQ is queued and answered with READ_DATA, or with NAK BUSY when its
queue is full; READ_DATA is written where its request says; a packet for another chip goes to its egress with one hop more, or back as NAK STRAND after
four; one that fails the binding check is counted and answered with NAK REJECT. Its slots leave the buffer of the link that it came on. -/
def Obligations.PacketsAreServedAtTheirDestination : Prop :=
  Claims.readsAreServed
  ∧ ∀ (s : State) (p : Pkt),
    let d := p.ddom.toNat
    let u := s.freeIn p
    (s.arrives p 1 → p.img = false → u.remoteFlt d p.adr p.data.length { w := true } = none →
      exec (.pktWrite p) s = .next ((u.wrDom d (offOf p.adr) p.data).ack p))
    ∧ (s.dev.st = .run → p.ptype = 1 → p.dst.toNat = s.fab.chip → p.malformed = false → u.admits p = false →
      exec (.pktWrite p) s = .next (u.countReject.nak p 3) ∧ (u.countReject.nak p 3).mem = s.mem)
    ∧ (∀ h d' c k q, s.arrives p 3 →
      (s.fab.held.find? fun h => h.pkt.ptype == 2 && h.pkt.dst == p.src && h.pkt.aux == p.adr && h.pkt.img == p.img) = some h →
      h.owner = .readReq d' c k q →
      let v := (u.dropHeld h.pkt.xtag).ack p
      firstFlt (v.accFlts d' p.adr 1 p.data.length { w := true }) = none →
      exec (.pktReadData p) s = .next ((v.wrSpace d' c k p.adr p.data).dmaAcked d' c k q))
    ∧ (∀ n q wait, s.dev.st = .run → p.malformed = false → p.ptype ≠ 0 → p.dst.toNat ≠ s.fab.chip → p.hop ≠ 4 →
      s.fab.egress p (p.hop.toNat + 1) = .ok (n, q) →
      let t := (s.tokenHop p n wait.toNat).onFab fun f => f.emit n { q with hop := p.hop + 1 }
      exec (.packetForward { pkt := p, wait := wait }) s = .next t ∧ t.mem = s.mem)
    ∧ (∀ wait, s.dev.st = .run → p.malformed = false → p.ptype ≠ 0 → p.ptype ≠ 4 → p.ptype ≠ 5 → p.dst.toNat ≠ s.fab.chip → p.hop = 4 →
      exec (.packetForward { pkt := p, wait := wait }) s = .next (u.countStrand.nak p 5))

/-- R290, R291: a token that its ring has room for is written as one entry, its header before its data, after a PAD entry where it would cross the
ring's end; PROD advances, the wake word is signalled, the token is counted and acknowledged. One that the ring has no room for is refused FULL and
changes no memory. -/
def Obligations.TokensAreDeliveredToTheirRing : Prop :=
  ∀ (s : State) (p : Pkt) (direct : Bool) (replica : BitVec 2) (expert : BitVec 16) (b : Binding) (r : Ring),
    s.arrives p 6 → p.whole = 0 →
    let d := p.ddom.toNat
    (s.dom d).binding = some b → spaceOf b.rings = some .dom →
    let e := offOf b.rings + 64 * (16 * fld p.adr 0 6 + fld p.aux 32 4)
    let v := (s.freeIn p).reads d e 64 { r := true, w := true, k := false }
    v.ringAt d e = some r →
    let n := 1 + p.data.length / 64
    let pos := r.prod.toNat % r.size
    let hd := entryHeader p.data.length (if direct then 3 else 1) (if direct then 0 else replica.toNat) (if direct then 0 else expert.toNat)
      p.src.toNat (fld p.adr 16 16) (fld p.adr 32 6) (fld p.adr 38 3) (fld p.aux 0 32)
    let done (t : State) (prod : DWord) : State :=
      (((t.wrDom d (e + 0x10) (leBytes 8 prod.toNat)).wakeRing d r.wake prod).countTok d).ack p
    (pos + n ≤ r.size → (r.prod - r.cons).toNat + n ≤ r.size →
      exec (.pktToken p direct replica expert) s
        = .next (done (v.wrDom d (r.base + 64 * pos) (hd ++ p.data)) (r.prod + BitVec.ofNat 64 n)))
    ∧ (r.size < pos + n → pos < r.size → (r.prod - r.cons).toNat + n + (r.size - pos) ≤ r.size →
      exec (.pktToken p direct replica expert) s
        = .next (done ((v.wrDom d (r.base + 64 * pos) (entryHeader (64 * (r.size - pos - 1)) 2 0 0 0 0 0 0 0)).wrDom d r.base (hd ++ p.data))
            (r.prod + BitVec.ofNat 64 (n + (r.size - pos)))))
    ∧ (r.size < (r.prod - r.cons).toNat + n →
      exec (.pktToken p direct replica expert) s = .next (v.nak p 1) ∧ (v.nak p 1).mem = v.mem)

/-- An answer of a type to this chip, well formed, in RUN. -/
def Claims.answers (s : State) (p : Pkt) (pt : BitVec 8) : Prop :=
  s.dev.st = .run ∧ p.ptype = pt ∧ p.dst.toNat = s.fab.chip ∧ p.malformed = false

/-- R271, R272, R292, R616: an ACK frees its packet, and a token's raises the token's fence; NAK BUSY and NAK STRAND hold the packet for a retry after
1 µs and 1 ms, and not before, NAK NOROUTE until its destination counts as unreachable no longer; a token refused FULL is bounced, counted. -/
def Obligations.AnswersReachTheHeldPacket : Prop :=
  ∀ (s : State) (p : Pkt) (h : Held),
    let f := s.freeIn p
    (∀ d c k q, Claims.answers s p 4 → s.heldBy p = some h → h.owner = .dma d c k q →
      exec (.pktAck p) s = .next ((f.dropHeld h.pkt.xtag).dmaAcked d c k q))
    ∧ (∀ d c k r, Claims.answers s p 4 → s.heldBy p = some h → h.owner = .tok d c k →
      ((s.wickAt d c k).tokd.find? fun t => t.xtag == h.pkt.xtag.toNat) = some r →
      let kk := s.wickAt d c k
      let u := (f.dropHeld h.pkt.xtag).setWickAt d c k ({ kk with tokd := kk.tokd.filter fun t => t.xtag != h.pkt.xtag.toNat } : Wick).settle
      exec (.pktAck p) s = .next (u.signalFence d c r.fence r.pc))
    ∧ (Claims.answers s p 5 → (s.fab.held.find? fun h => h.pkt.xtag == p.xtag) = some h → p.aux = 4 →
      exec (.pktNak p) s = .next (f.markHeld h.pkt.xtag (.busy s.clk)))
    ∧ (∀ d c k q, Claims.answers s p 5 → (s.fab.held.find? fun h => h.pkt.xtag == p.xtag) = some h → h.owner = .dma d c k q →
      (p.aux = 5 → exec (.pktNak p) s = .next (f.markHeld h.pkt.xtag (.stranded s.beacon)))
        ∧ (p.aux = 6 → exec (.pktNak p) s = .next (f.markHeld h.pkt.xtag (.noroute s.beacon))))
    ∧ (∀ d c k, Claims.answers s p 5 → (s.fab.held.find? fun h => h.pkt.xtag == p.xtag) = some h → h.owner = .tok d c k → p.aux = 1 →
      exec (.pktNak p) s = .next ((f.dropHeld h.pkt.xtag).bounce d c k h.pkt.xtag 1))
    ∧ (∀ x t, (s.fab.held.find? fun h => h.pkt.xtag == x) = some h → h.st = .stranded t → s.dev.st = .run →
      (t + 1000000 ≤ s.beacon → exec (.strandResend x) s = .next (s.onFab fun f => f.resend h))
        ∧ (s.beacon < t + 1000000 → exec (.strandResend x) s = .next s))
    ∧ (∀ x t, (s.fab.held.find? fun h => h.pkt.xtag == x) = some h → h.st = .busy t → s.dev.st = .run →
      (t + 1000 ≤ s.clk → exec (.readReqRetry x) s = .next (s.onFab fun f => f.resend h))
        ∧ (s.clk < t + 1000 → exec (.readReqRetry x) s = .next s))

/-- R277, R278, R335, R430: link-state and congestion messages update this chip's view, and this chip's own congestion goes to its group; a chip that
holds the same session is confirmed and answered; a closing binding ends 1 s after its removal. -/
def Obligations.MessagesUpdateTheView : Prop :=
  (∀ (s : State) (c : BitVec 13) (l : BitVec 6) (up : Bool), s.dev.st = .run → c.toNat ≠ s.fab.chip → l.toNat < 36 →
    let k := c.toNat * 64 + l.toNat
    (FMap.get false s.fab.view k ≠ !up →
      ∃ t, exec (.linkStateMsg c l up) s = .next t ∧ t.fab.view = FMap.set false s.fab.view k (!up) ∧ t.mem = s.mem ∧ t.doms = s.doms)
    ∧ (FMap.get false s.fab.view k = !up → exec (.linkStateMsg c l up) s = .next (s.onFab FabSt.linkNews)))
  ∧ (∀ (s : State) (m : BitVec 5) (q : List (BitVec 32)), s.dev.st = .run → FMap.wf 0 s.fab.cong = true →
    (m.toNat ≠ memOf s.fab.chip → ∃ t, exec (.congestionReport m q) s = .next t
      ∧ (∀ i < 4, FMap.get 0 t.fab.cong (m.toNat * 4 + i) = (q.getD i 0).toNat) ∧ t = { s with fab := { s.fab with cong := t.fab.cong } })
    ∧ (m.toNat = memOf s.fab.chip → exec (.congestionReport m q) s
        = .next (s.onFab fun f => f.cast (List.range 31) (congMsg ((List.range 4).map fun i => f.queued (31 + i))))))
  ∧ (∀ (s : State) (p : Pkt) (d : Nat), s.dev.st = .run → p.ptype = 8 → p.dst.toNat = s.fab.chip → p.badCtrl = false →
    p.pspec.toNat % 2 ^ 16 = 0x300 → s.ctrlDom p = some d →
    let u := (s.freeIn p).ack p
    (u.sec.dom d).joint ≠ .none → p.data = u.peerBytes d → p.src.toNat ∉ (u.sec.dom d).confirmed →
    exec (.jointPeer p) s = .next ((u.confirmPeer d p.src.toNat).sendPeer d p.src.toNat))
  ∧ (∀ (s : State) (d : BitVec 8) (b : Binding) (t : Nat), (s.dom d.toNat).closing = some (b, t) →
    (t + 1000000000 ≤ s.beacon →
      exec (.closingBindingExpire d) s = .next (s.modDom d.toNat fun m => { m with closing := none }))
    ∧ (s.beacon < t + 1000000000 → exec (.closingBindingExpire d) s = .next s))

/-! ### Collectives -/

/-- A REDUCE packet of a kind passes the checks of its arrival, for communicator `x` (R285, R305, R315). -/
def Claims.reduceOk (s : State) (p : Pkt) (kind : Nat) (x : Comm) : Prop :=
  s.arrives p 7 ∧ p.redKind = kind ∧ (kind ≠ 2 → p.redLevel = 0) ∧ s.comm? p.ddom.toNat p.redComm = some x ∧ x.st ≠ .broken
    ∧ x.ranks.getD p.redRank 0x2000 = p.src.toNat

/-- Its item is one that the outstanding collective `o` still awaits. -/
def Claims.itemOk (p : Pkt) (x : Comm) (o : CollOp) : Prop :=
  x.op? (fullSeq x.issued p.redSeq) = some o ∧ p.redSig = o.sig ∧ p.data.length = o.itemLen x.nranks p.item
    ∧ (x.itemsOf o p.redRank x.myrank).contains p.item = true ∧ x.arrived o p.redRank p.item = false

/-- The state once the packet is acknowledged and its sequence number noted. -/
def Claims.noted (s : State) (p : Pkt) (x : Comm) : State :=
  ((s.freeIn p).setComm p.ddom.toNat p.redComm { x with peerSeq := max x.peerSeq (fullSeq x.issued p.redSeq + 1) }).ack p

/-- R306, R308, R310 to R313, R318: a contribution is added when its rank's turn has come, else stored in the rank's buffer; a partial sum goes to its
combine slot, and from there into its node; results, blocks and broadcast chunks are written to their addresses, a fused result goes to its update's
FIFO in its turn; token words are kept by rank; barrier signals are counted against
their sequence number; then the communicator runs on. -/
def Obligations.CollectiveItemsAreTaken : Prop :=
  ∀ (s : State) (p : Pkt) (x : Comm) (o : CollOp),
    let d := p.ddom.toNat
    let id := p.redComm
    let u := Claims.noted s p x
    let on (kind : Nat) : Prop := Claims.reduceOk s p kind x ∧ Claims.itemOk p x o
    let lands (i : Instr) (a : DWord) : Prop := ∀ t, u.engWrite d a p.data = .ok t →
      exec i s = .next ((t.modOp d id o.seq fun q =>
        { q with got := FMap.set false q.got (chunkKey p.redShard p.redChunk * 2) true }).collArrive d id o.seq)
    (∀ k nx acc, on 1 → FMap.find? o.sums p.redChunk = some (k, nx, acc) →
      (nx = p.redRank → 0 < nx →
        exec (.collContrib p) s = .next (((u.modColl (engOf id) fun e => { e with adds := e.adds + (o.promote p.data).length }).modOp
          d id o.seq fun q => { q with sums := FMap.insert q.sums p.redChunk (k, nx + 1, addWords acc (o.promote p.data)) }).collArrive
          d id o.seq))
      ∧ (nx = p.redRank → nx = 0 →
        exec (.collContrib p) s = .next (((u.modColl (engOf id) fun e => { e with adds := e.adds + 0 }).modOp
          d id o.seq fun q => { q with sums := FMap.insert q.sums p.redChunk (k, 1, o.promote p.data) }).collArrive d id o.seq))
      ∧ (nx ≠ p.redRank → ∀ t, u.engWrite d (x.slotAdr p.redRank k) p.data = .ok t →
        exec (.collContrib p) s = .next (((t.modColl (engOf id) fun e => { e with rbuf := e.rbuf + p.data.length }).modOp
          d id o.seq fun q => { q with stored := FMap.set false q.stored (p.redChunk * 8192 + p.redRank) true }).collArrive
          d id o.seq)))
    ∧ (on 2 → exec (.collPartial p) s = .next (((u.modOp d id o.seq fun q => { q with
        slots := FMap.insert q.slots (chunkKey p.redShard p.redChunk * 16 + p.redLevel) (toWords p.data) }).treeMerge
          16 d id o.seq p.redShard p.redChunk).collArrive d id o.seq))
    ∧ (on 3 → o.upd = none → lands (.reduceResult p) (o.resAdr x.nranks p.redShard p.redChunk))
    ∧ (∀ num, on 3 → o.upd = some num → o.resultIndex x.nranks p.redShard p.redChunk = o.fed →
      exec (.reduceResult p) s = .next (((u.feed num (toWords p.data)).modOp d id o.seq fun q => { q with
        fed := q.fed + 1, got := FMap.set false q.got (chunkKey p.redShard p.redChunk * 2) true }).collArrive d id o.seq))
    ∧ (on 4 → lands (.collGather p) (movAdr o.dst (p.redShard * o.count + 4096 * p.redChunk)))
    ∧ (on 5 → lands (.collBcast p) (movAdr o.dst (4096 * p.redChunk)))
    ∧ (on 8 → ∀ t, u.engWrite d (x.tokAdr p.redRank (o.seq % 8)) (p.data.take 8) = .ok t →
      exec (.collToksum p) s = .next ((t.modOp d id o.seq fun q => { q with
        toks := FMap.set none q.toks p.redRank (some (BitVec.ofNat 64 (leNat (p.data.take 8)))) }).collArrive d id o.seq))
    ∧ (Claims.reduceOk s p 6 x → x.done ≤ fullSeq x.issued p.redSeq →
      p.redRank ∈ (childPos x.nranks x.myrank).map (·.2) →
      exec (.barrierUp p) s = .next ((u.modComm d id fun y => { y with
        ups := FMap.set none y.ups (fullSeq x.issued p.redSeq * 8192 + p.redRank) (some p.redSig) }).barrierRun
        d id (fullSeq x.issued p.redSeq)))
    ∧ (Claims.reduceOk s p 7 x → x.done ≤ fullSeq x.issued p.redSeq → x.myrank ≠ 0 → p.redRank = parentPos x.myrank →
      exec (.barrierDown p) s = .next ((u.modComm d id fun y => { y with
        downs := FMap.set none y.downs (fullSeq x.issued p.redSeq) (some p.redSig) }).barrierRun d id (fullSeq x.issued p.redSeq)))

/-- A collective control message of a type passes its checks, for communicator `x` of domain `d` (R299, R314, R322). -/
def Claims.collMsgOk (s : State) (p : Pkt) (ty d : Nat) (x : Comm) : Prop :=
  s.dev.st = .run ∧ p.ptype = 8 ∧ p.dst.toNat = s.fab.chip ∧ p.badCtrl = false ∧ p.msgType = ty ∧ p.pspec.toNat / 2 ^ 160 = 0
    ∧ s.ctrlDom p = some d ∧ s.comm? d p.ctlComm = some x ∧ x.ranks.getD p.ctlRank 0x2000 = p.src.toNat ∧ p.ctlRank ≠ x.myrank

/-- R299, R300, R304, R314, R321, R322: READY is noted, and a descriptor that differs breaks the communicator; GRANT raises a cumulative limit;
BREAK breaks; a complete collective leaves its communicator, counted; READY is resent and the status written each millisecond, and the watchdog counts. -/
def Obligations.CommunicatorsAgreeGrantAndComplete : Prop :=
  (∀ (s : State) (p : Pkt) (d : Nat) (x : Comm),
    (Claims.collMsgOk s p 0x100 d x → x.st = .creating → p.ctlValue % 2 ^ 32 = x.check →
      exec (.commReady p) s = .next ((((s.freeIn p).ack p).modComm d p.ctlComm fun y =>
        { y with ready := FMap.set false y.ready p.ctlRank true }).commReadyNow d p.ctlComm))
    ∧ (Claims.collMsgOk s p 0x100 d x → x.st ≠ .broken → p.ctlValue % 2 ^ 32 ≠ x.check →
      exec (.commReady p) s = .next (((s.freeIn p).ack p).breakComm d p.ctlComm 4 p.ctlRank))
    ∧ (Claims.collMsgOk s p 0x100 d x → x.st = .ready → p.ctlValue % 2 ^ 32 = x.check →
      exec (.commReady p) s = .next (((s.freeIn p).ack p).sendReady d p.ctlComm x [p.ctlRank]))
    ∧ (Claims.collMsgOk s p 0x101 d x → x.st ≠ .broken →
      exec (.commGrant p) s = .next ((((s.freeIn p).ack p).modComm d p.ctlComm fun y =>
        { y with limit := FMap.modify 0 y.limit p.ctlRank fun l => max l p.ctlValue }).collRun d p.ctlComm))
    ∧ (Claims.collMsgOk s p 0x102 d x → 1 ≤ p.ctlCause → p.ctlCause ≤ 5 →
      exec (.commBreak p) s = .next (((s.freeIn p).ack p).breakComm d p.ctlComm p.ctlCause p.ctlRank)))
  ∧ (∀ (s : State) (d : BitVec 8) (id : BitVec 16) (x : Comm), s.comm? d.toNat id.toNat = some x → s.dev.st = .run →
    (s.beacon < x.readyAt + 1000000 → exec (.commReadyResend d id) s = .next s)
    ∧ (s.beacon < x.statAt + 1000000 → exec (.commStatusWrite d id) s = .next s)
    ∧ (x.st = .creating → x.readyAt + 1000000 ≤ s.beacon →
      exec (.commReadyResend d id) s = .next ((s.setComm d.toNat id.toNat { x with readyAt := s.beacon }).sendReady d.toNat id.toNat x
        (x.others.filter fun r => !FMap.get false x.ready r)))
    ∧ (x.ops ≠ [] → x.statAt + 1000000 ≤ s.beacon →
      exec (.commStatusWrite d id) s
        = .next ((s.setComm d.toNat id.toNat { x with statAt := s.beacon }).writeStatus d.toNat { x with statAt := s.beacon }))
    ∧ (∀ o, x.ops = [o] → x.opDone o = true → o.fence = none → s.fusedBefore d.toNat id.toNat o.seq = false →
      ∃ t y, exec (.collectiveComplete d id) s = .next t ∧ t.comm? d.toNat id.toNat = some y ∧ y.ops = [] ∧ y.done = x.done + 1
        ∧ t.mem = s.mem)
    ∧ (∀ seq o, x.op? (BitVec.toNat (w := 64) seq) = some o → o.issued + (o.dog + 1) * x.wdog * 1000000 ≤ s.beacon →
      FMap.wf 0 s.eng.wait = true →
      ∃ t y, exec (.collwait d id seq) s = .next t ∧ t.comm? d.toNat id.toNat = some y ∧ y.waits = satAdd 32 x.waits 1
        ∧ FMap.get 0 t.eng.wait d.toNat = satAdd 32 (FMap.get 0 s.eng.wait d.toNat) 1))

/-! ### Queues and host commands -/

/-- The command at the head of a queue may start at once, with opcode `op`: it is well formed, waits for nothing and names a fence that may be
signalled (R341, R344 to R347). -/
structure Claims.Ready (s : State) (d q op : Nat) (c : Cmd) (rest : List Cmd) : Prop where
  there : (s.dom d).there = true
  open_ : (s.dom d).fenced = false
  head : (s.queue d q).fetched = c :: rest
  code : c.opcode.toNat = op
  room : (s.queue d q).started.length < 16
  alone : c.flags.getLsbD 3 = true → (s.queue d q).started = []
  good : c.malformed = false
  free : c.flags.getLsbD 0 = false
  sig : c.flags.getLsbD 1 = true ∨ (s.dom d).badRef c.sref c.sval = false

/-- It starts, and its context is live where it needs one (R357). -/
structure Claims.Starts (s : State) (d q op : Nat) (c : Cmd) (rest : List Cmd) : Prop extends Claims.Ready s d q op c rest where
  ctx : (c.ctx = 0 ∧ needsCtx op = false) ∨ (c.ctx ≠ 0 ∧ op = 0x11) ∨ ∃ x, c.ctx ≠ 0 ∧ s.ctx? d c.ctx.toNat = some x ∧ x.status = .live

/-- The queue without its head. -/
def Claims.popped (s : State) (d q : Nat) (rest : List Cmd) : State := s.setQueue d q { s.queue d q with fetched := rest }
/-- The command is started, with its status (none while it runs) and RESULT. -/
def Claims.started (t : State) (d q : Nat) (c : Cmd) (st : Option Nat) (res : DWord) : State :=
  t.setQueue d q { t.queue d q with started := (t.queue d q).started ++ [{ cmd := c, st := st, result := res }] }

/-- R338 to R343, R345, R347: a doorbell moves TAIL or HEAD and fetching goes on, one out of range is dropped with a record; EN starts a queue from
index 0, and clearing it completes what was not started with ABORTED; a waiting command starts when its word is reached, and ends with DEPABORT when
that word is aborted; a decided command signals its fence and completes. -/
def Obligations.QueuesFetchStartAndComplete : Prop :=
  ∀ (s : State) (d : BitVec 8) (q : BitVec 6),
    let x := s.queue d.toNat q.toNat
    (∀ v ring, s.doorOpen d.toNat = true → x.en = true → v.toNat % 2 ^ 16 < x.size →
      exec (.sqTail d q v ring) s
        = .next ((s.setQueue d.toNat q.toNat { x with tail := v.toNat % 2 ^ 16, ring := ring }).fetch d.toNat q.toNat))
    ∧ (∀ v ring, s.doorOpen d.toNat = true → (x.en = false ∨ x.size ≤ v.toNat % 2 ^ 16) →
      exec (.sqTail d q v ring) s = .next (s.dbErr d.toNat q.toNat (v.toNat % 2 ^ 16)))
    ∧ (∀ v, s.doorOpen d.toNat = true → x.en = true → v.toNat % 2 ^ 16 < x.size →
      exec (.cqHead d q v) s = .next ((s.setQueue d.toNat q.toNat { x with
        cqHead := v.toNat % 2 ^ 16, unread := x.unread - (v.toNat % 2 ^ 16 + x.size - x.cqHead) % x.size }).fetch d.toNat q.toNat))
    ∧ (s.doorOpen d.toNat = true → x.en = false → 4 ≤ x.log2 → x.log2 ≤ 12 → x.sqBase.toNat % 4096 = 0 → x.cqBase.toNat % 4096 = 0 →
      exec (.sqEnable d q) s = .next (s.setQueue d.toNat q.toNat
        { x with en := true, head := 0, tail := 0, cqHead := 0, cqTail := 0, phase := true, unread := 0, ring := [] }))
    ∧ (∀ c, s.doorOpen d.toNat = true → x.en = true → x.fetched = [c] →
      exec (.sqDisable d q) s = .next (((s.setQueue d.toNat q.toNat { x with en := false, fetched := [] }).cmdFence d.toNat c false).complete
        d.toNat q.toNat c 6 0))
    ∧ (∀ c rest io, (s.dom d.toNat).there = true → (s.dom d.toNat).fenced = false → x.fetched = c :: rest → x.started.length < 16 →
      c.flags.getLsbD 3 = false → c.malformed = false → c.flags.getLsbD 0 = true → (s.dom d.toNat).badRef c.wref c.wval = false →
      (c.flags.getLsbD 1 = true ∨ (s.dom d.toNat).badRef c.sref c.sval = false) →
      let w := s.fenceGet d.toNat 0 0 c.wref
      let u := Claims.popped s d.toNat q.toNat rest
      (w.toNat < c.wval.toNat → exec (.commandWaitEnd d q io) s = .next s)
      ∧ (c.wval.toNat ≤ w.toNat → w.getLsbD 63 = true →
        exec (.commandWaitEnd d q io) s = .next (Claims.started u d.toNat q.toNat c (some 7) 0))
      ∧ (c.wval.toNat ≤ w.toNat → w.getLsbD 63 = false → c.opcode = 1 → c.ctx = 0 →
        exec (.commandWaitEnd d q io) s = .next (Claims.started u d.toNat q.toNat c (some 0) 0)))
    ∧ (∀ r, x.started = [r] → r.raised = false →
      let u := s.setQueue d.toNat q.toNat { x with started := [] }
      (∀ st, r.st = some st →
        exec (.commandComplete d q r.cmd.cmdid) s
          = .next (((u.cmdFence d.toNat r.cmd (st == 0)).complete d.toNat q.toNat r.cmd st r.result).dropDying d.toNat))
      ∧ (r.st = none → r.cmd.opcode = 0x10 → s.launchDone d.toNat r.cmd.ctx.toNat = true →
        exec (.commandComplete d q r.cmd.cmdid) s
          = .next ((((u.endProg d.toNat r.cmd.ctx.toNat).cmdFence d.toNat r.cmd true).complete d.toNat q.toNat r.cmd 0 r.result).dropDying
              d.toNat)))

/-- R350 to R353, R357, R358: what the program, context and memory commands do when their checks pass, on the lines that they read. LAUNCH places the
program, not resident, on the Lanterns in order, every Wick at its entry; the others are decided at once with OK. A tag used for the first time is
live. -/
def Claims.programCommands : Prop :=
  ∀ (s : State) (d : BitVec 8) (q : BitVec 6) (io : CmdIn) (c : Cmd) (rest : List Cmd),
    let dn := d.toNat
    let tag := c.ctx.toNat
    let u := Claims.popped s dn q.toNat rest
    let on (op : Nat) : Prop := Claims.Starts s dn q.toNat op c rest
    let ok (t : State) (res : DWord) : State := Claims.started t dn q.toNat c (some 0) res
    (on 0x01 → exec (.cmdNop d q io) s = .next (ok u 0))
    ∧ (Claims.Ready s dn q.toNat 0x01 c rest → c.ctx ≠ 0 → s.ctx? dn tag = none → (s.dom dn).ctxs.length < 4096 →
      exec (.cmdNop d q io) s = .next (ok (u.setCtx dn tag {}) 0))
    ∧ (∀ bs t off, on 0x08 → let w := u.cmdReads dn (c.arg64 0x28) 64 (c.arg 0x30 8)
      w.cmdRead dn (c.arg64 0x28) 64 (c.arg 0x30 8) = .ok bs → goodImage bs = true → (w.sec.dom dn).policy = none →
      w.allocPages dn .prog false ((bs.length + 2 ^ 21 - 1) / 2 ^ 21) 0
        (fun f => { frame := f, r := true, w := false, x := true, k := true }) (fieldAt bs 0x10 8) = .ok (t, off) →
      let v := t.wrDom dn off bs
      exec (.progLoad d q io) s = .next (ok
        { v with sec := v.sec.setDom dn { v.sec.dom dn with pmr := pmrNext (w.sec.dom dn).pmr (bs.take 128) } }
        (BitVec.ofNat 64 (2 * 2 ^ 61 + off))))
    ∧ (∀ r, on 0x09 → (u.dom dn).program (c.arg64 0x28) = some r →
      (∀ p ∈ (u.dom dn).ctxs, ∀ g, p.2.prog = some g → g.handle ≠ c.arg64 0x28) →
      exec (.progUnload d q io) s = .next (ok (u.releaseRec dn r) 0))
    ∧ (∀ x r args, on 0x10 → let w := u.cmdReads dn (c.arg64 0x30) 64 (c.arg 0x38 2)
      w.ctx? dn tag = some x → x.prog = none → (w.dom dn).program (c.arg64 0x28) = some r →
      (if c.arg 0x38 2 = 0 then .ok [] else w.cmdRead dn (c.arg64 0x30) 64 (c.arg 0x38 2)) = .ok args →
      let n := c.arg 0x3A 1
      let lants := sortBy (fun (a b : Nat) => decide (a ≤ b)) (w.lantOrder.take n)
      let need := sumBy (fun l => (w.lantern l).slotFrames) lants
      n ≤ w.inService.length → (w.memDom dn).usedH + need ≤ w.quota dn false → need ≤ w.freeCount false →
      ∃ t y p, exec (.launch d q io) s = .next t ∧ t.ctx? dn tag = some y ∧ y.prog = some p ∧ p.handle = c.arg64 0x28 ∧ p.lants = lants
        ∧ p.resident = false ∧ y.step = x.step ∧ t.hostMem = w.hostMem
        ∧ (∀ k < 8 * n, (y.wick k).pc = BitVec.ofNat 64 (offOf (c.arg64 0x28) + 0x80 + r.entry) ∧ (y.wick k).run = .running
            ∧ (y.wick k).s = [])
        ∧ (∀ i < n, Memory.rdN (FMap.get [] y.lmem i) 0 args.length = args)
        ∧ (t.queue dn q.toNat).started = (w.queue dn q.toNat).started ++ [{ cmd := c, st := none, result := 0 }])
    ∧ (∀ x, on 0x12 → s.ctx? dn tag = some x → x.prog = none →
      exec (.ctxStep d q io) s = .next (ok (u.setCtx dn tag { x with step := c.arg64 0x28 }) 0))
    ∧ (on 0x11 → s.ctx? dn tag = none → exec (.ctxDestroy d q io) s = .next (ok u 0))
    ∧ (∀ x, on 0x11 → s.ctx? dn tag = some x → x.status = .aborted → exec (.ctxDestroy d q io) s = .next (ok (u.dropCtx dn tag) 0))
    ∧ (∀ t f, on 0x18 → (u.dom dn).driver = true → spaceOf (c.arg64 0x28) = some .dom →
      let o := offOf (c.arg64 0x28)
      let rsv := decide (2 ^ 56 ≤ o)
      let perm := c.arg 0x31 1
      o % frameSize rsv = 0 → (u.dom dn).pte o = none → (u.memDom dn).used rsv + 1 ≤ u.quota dn rsv → u.freeCount rsv ≠ 0 →
      u.mapFrame dn rsv (decide (16 ≤ c.arg 0x30 1)) (c.arg 0x30 1 % 16) = some (t, f) →
      exec (.mapPage d q io) s = .next (ok (t.modDom dn fun m =>
        { (m.setPt rsv (FMap.insert (m.pt rsv) (if rsv then (o - 2 ^ 56) / 2 ^ 18 else o / 2 ^ 21)
            { frame := f, r := perm.testBit 0, w := perm.testBit 1, x := perm.testBit 2, k := perm.testBit 3 })) with
          recs := m.recs ++ [{ kind := .map, base := o, pages := 1 }] }) 0))
    ∧ (∀ r, on 0x19 → spaceOf (c.arg64 0x28) = some .dom →
      ((u.dom dn).recs.find? fun r => r.kind == .map && r.base == offOf (c.arg64 0x28)) = some r →
      exec (.unmapPage d q io) s = .next (ok (u.releaseRec dn r) 0))

/-- R330, R354: a COPY whose checks pass runs with the host's bytes, and completes when they have moved: out of domain memory or into it, sealed
under the slot that it names. -/
def Claims.copyCommands : Prop :=
  ∀ (s : State) (d : BitVec 8) (q : BitVec 6) (io : CmdIn) (c : Cmd),
    let dn := d.toNat
    let host := c.arg 0x28 8
    let o := offOf (c.arg64 0x30)
    let n := c.arg 0x38 4
    let out := c.arg 0x3C 1 == 1
    let need : Need := { r := out, w := !out, k := false }
    (∀ rest, Claims.Starts s dn q.toNat 0x20 c rest → c.arg 0x3D 1 = 0 →
      let u := Claims.popped s dn q.toNat rest
      (u.sec.dom dn).policy = none → u.issues dn = true → 0 < n → n % 64 = 0 → n ≤ 2 ^ 31 → host % 64 = 0 → o % 64 = 0 →
      spaceOf (c.arg64 0x30) = some .dom → o + n ≤ 2 ^ 57 → (u.dom dn).mapOk o n need = true →
      exec (.copyData d q io) s = .next (u.setQueue dn q.toNat { u.queue dn q.toNat with
        started := (u.queue dn q.toNat).started ++ [{ cmd := c, st := none, result := 0, data := io.data }] }))
    ∧ (∀ r, (s.queue dn q.toNat).started = [r] → r.cmd = c → r.raised = false → r.st = none → c.opcode = 0x20 →
      let u := s.setQueue dn q.toNat { s.queue dn q.toNat with started := [] }
      let v := u.reads dn o n
      let ends (t : State) : Prop :=
        exec (.commandComplete d q c.cmdid) s = .next (((t.cmdFence dn c true).complete dn q.toNat c 0 0).dropDying dn)
      (u.dom dn).mapOk o n need = true →
      (out = true → v.poisonAt dn o n = none →
        (c.arg 0x3D 1 = 0 → ends { v with hostMem := Memory.wrN v.hostMem host (v.rdDom dn o n) })
        ∧ (∀ key, c.arg 0x3D 1 ≠ 0 → u.copyKey dn c = some key →
          ends (({ v with hostMem := Memory.wrN v.hostMem host (v.sealRecs dn key o (n / 4096) (n / 4096)) } : State).drew 1)))
      ∧ (out = false → c.arg 0x3D 1 = 0 → r.data.length = n → ends (u.wrDom dn o r.data))
      ∧ (∀ key t, out = false → c.arg 0x3D 1 ≠ 0 → u.copyKey dn c = some key →
        u.unsealRecs dn key r.data o (n / 4096) 0 (n / 4096) = (t, some 0, 0) → ends t))

/-- R330, R350 to R354, R357, R358: what the program, context and memory commands do when their checks pass. -/
def Obligations.ProgramAndMemoryCommandsTakeEffect : Prop := Claims.programCommands ∧ Claims.copyCommands

/-- R289, R297, R355, R356: binding, unbinding, Expert Home Table and communicator commands do what they say when their checks pass; the bank copy
makes the banks of a segment alike. -/
def Obligations.FabricCommandsTakeEffect : Prop :=
  ∀ (s : State) (d : BitVec 8) (q : BitVec 6) (io : CmdIn) (c : Cmd) (rest : List Cmd),
    let dn := d.toNat
    let u := Claims.popped s dn q.toNat rest
    let on (op : Nat) : Prop := Claims.Starts s dn q.toNat op c rest
    let ok (t : State) : State := Claims.started t dn q.toNat c (some 0) 0
    let seg : EhtSeg := FMap.get {} u.fab.segs dn
    (∀ h t, on 0x28 → (u.sec.dom dn).policy = none → (u.dom dn).binding = none →
      let v := u.cmdReads dn (c.arg64 0x28) 64 64
      v.cmdRead dn (c.arg64 0x28) 64 64 = .ok h →
      let w := v.cmdReads dn (BitVec.ofNat 64 (fieldAt h 0x10 8)) 4 (4 * fieldAt h 8 2)
      w.cmdReadTable dn (BitVec.ofNat 64 (fieldAt h 0x10 8)) 4 4 (fieldAt h 8 2) = .ok t →
      let chips := t.map fun e => (e % 2 ^ 13, e / 2 ^ 13 % 2 ^ 8)
      fieldAt h 0xA 6 = 0 → fieldAt h 0x28 24 = 0 → (∀ e ∈ t, e < 2 ^ 21) → fieldAt h 0 8 ≠ 0 → 1 ≤ fieldAt h 8 2 → fieldAt h 8 2 ≤ 4128 →
      rising (chips.map Prod.fst) = true → (w.fab.chip, dn) ∈ chips →
      exec (.fabricBind d q io) s = .next (ok ((w.modDom dn fun m => { m with
        binding := some { tag := BitVec.ofNat 64 (fieldAt h 0 8), chips := chips, rings := BitVec.ofNat 64 (fieldAt h 0x18 8)
                          blog := BitVec.ofNat 64 (fieldAt h 0x20 8), digest := sha384 (h ++ (t.map (leBytes 4)).flatten) }
        closing := none }).startBounce dn (BitVec.ofNat 64 (fieldAt h 0x20 8)))))
    ∧ (on 0x29 → (u.sec.dom dn).policy = none → (u.dom dn).binding ≠ none → FMap.get [] u.eng.comms dn = [] →
      exec (.fabricUnbind d q io) s = .next (ok (u.unbind dn)))
    ∧ (∀ t, on 0x2A → (u.dom dn).binding ≠ none → c.arg 0x30 4 + c.arg 0x34 4 ≤ seg.len * 256 →
      let w := u.cmdReads dn (c.arg64 0x28) 1 (16 * c.arg 0x34 4)
      w.cmdReadTable dn (c.arg64 0x28) 1 16 (c.arg 0x34 4) = .ok t → (∀ e ∈ t, w.badEntry dn e = false) →
      (FMap.get ({} : EhtSeg) w.fab.segs dn).copying = false →
      let put (b : FMap (BitVec 128)) : FMap (BitVec 128) := (List.range (c.arg 0x34 4)).foldl
        (fun m i => FMap.set 0 m (seg.base * 256 + c.arg 0x30 4 + i) (BitVec.ofNat 128 (t.getD i 0))) b
      exec (.ehtLoad d q io) s = .next (ok { w with fab :=
        if seg.active then { w.fab with bankA := put w.fab.bankA } else { w.fab with bankB := put w.fab.bankB } }))
    ∧ (∀ x, on 0x2B → s.ctx? dn c.ctx.toNat = some x → x.step.toNat < (c.arg64 0x28).toNat →
      exec (.ehtCommit d q io) s = .next (ok { u with fab := { u.fab with
        segs := FMap.set {} u.fab.segs dn { seg with commit := some (c.ctx.toNat, c.arg64 0x28) } } }))
    ∧ (∀ h t, on 0x30 → let v := u.cmdReads dn (c.arg64 0x28) 1 64
      v.cmdRead dn (c.arg64 0x28) 1 64 = .ok h →
      let id := fieldAt h 0 2
      let algo := fieldAt h 2 2 == 1
      let n := fieldAt h 4 4
      let me := fieldAt h 8 4
      let depth := fieldAt h 0xC 1
      let rbuf : DWord := BitVec.ofNat 64 (fieldAt h 0x18 8)
      let stat : DWord := BitVec.ofNat 64 (fieldAt h 0x20 8)
      let rlen := if algo then n * 64 else n * (depth * 4096 + 64)
      let eng : CollEng := FMap.get {} v.eng.coll (id % 2)
      fieldAt h 2 2 < 2 → fieldAt h 0xD 3 = 0 → fieldAt h 0x2C 20 = 0 → id ≠ 0 → n ≠ 0 → n ≤ 4128 → me < n → depth ≠ 0 → depth ≤ 16 →
      offOf rbuf % 4096 = 0 → offOf stat % 64 = 0 →
      let w := v.cmdReads dn (BitVec.ofNat 64 (fieldAt h 0x10 8)) 1 (2 * n)
      w.cmdReadTable dn (BitVec.ofNat 64 (fieldAt h 0x10 8)) 1 2 n = .ok t →
      spaceOf rbuf = some .dom → offOf rbuf + rlen ≤ 2 ^ 56 → (v.dom dn).mapOk (offOf rbuf) rlen { r := true, w := true, k := false } = true →
      (∀ a ∈ pageStarts (offOf rbuf) rlen, ∀ p, (v.dom dn).pte a = some p → p.k = false) →
      spaceOf stat = some .dom → (v.dom dn).mapOk (offOf stat) 64 { r := false, w := true, k := false } = true →
      (∀ e ∈ t, e < 2 ^ 13 ∧ w.bound dn e = true) → noRepeat t = true → t.getD me 0x2000 = w.fab.chip → (v.dom dn).binding ≠ none →
      w.comm? dn id = none → (FMap.get [] w.eng.comms dn).length < 256 → sumBy (fun (p : Nat × FMap Comm) => p.2.length) w.eng.comms < 1024 →
      eng.sums + sumNeed algo depth ≤ 2048 → eng.comb + combNeed algo depth n ≤ 1024 →
      let x : Comm := { algo := algo, nranks := n, myrank := me, depth := depth, ranks := t, rbuf := rbuf, status := stat
                        wdog := if fieldAt h 0x28 4 = 0 then 10000 else fieldAt h 0x28 4, readyAt := w.beacon }
      let y := w.modColl (id % 2) fun e => { e with sums := e.sums + sumNeed algo depth, comb := e.comb + combNeed algo depth n }
      exec (.commCreate d q io) s
        = .next (ok ((((y.setComm dn id x).writeStatus dn x).sendReady dn id x x.others).commReadyNow dn id)))
    ∧ (∀ x, on 0x31 → u.comm? dn (c.arg 0x28 2) = some x → x.ops = [] → x.peersBusy = false →
      exec (.commDestroy d q io) s = .next (ok (u.removeComm dn (c.arg 0x28 2))))
    ∧ (∀ x, on 0x31 → u.comm? dn (c.arg 0x28 2) = some x → x.ops ≠ [] →
      exec (.commDestroy d q io) s = .next (ok ((u.breakComm dn (c.arg 0x28 2) 3 x.myrank).removeComm dn (c.arg 0x28 2))))
    ∧ (∀ x, on 0x32 → u.comm? dn (c.arg 0x28 2) = some x →
      exec (.commAbort d q io) s = .next (ok (u.breakComm dn (c.arg 0x28 2) 2 x.myrank)))
    ∧ (seg.copying = true → FMap.wf 0 s.fab.bankA = true → FMap.wf 0 s.fab.bankB = true → FMap.wf {} s.fab.segs = true →
      ∃ t, exec (.ehtBankCopy d) s = .next t ∧ (FMap.get ({} : EhtSeg) t.fab.segs dn).copying = false
        ∧ (∀ e, seg.base * 256 ≤ e → e < (seg.base + seg.len) * 256 →
            FMap.get 0 t.fab.bankA e = FMap.get 0 (if seg.active then s.fab.bankB else s.fab.bankA) e
            ∧ FMap.get 0 t.fab.bankB e = FMap.get 0 (if seg.active then s.fab.bankB else s.fab.bankA) e)
        ∧ (∀ e, (e < seg.base * 256 ∨ (seg.base + seg.len) * 256 ≤ e) →
            FMap.get 0 t.fab.bankA e = FMap.get 0 s.fab.bankA e ∧ FMap.get 0 t.fab.bankB e = FMap.get 0 s.fab.bankB e))

/-! ### Checkpoints -/

/-- R515, R517, R528, R531: CKPT_CONFIG takes its descriptor in and announces its size; CKPT_REQUEST makes a request and runs on until the cut ends;
CKPT_EXPORT writes the backup image to host memory; RELIGHT with PROBE answers the epoch, and without it restores the sections and the step number;
CKPT_DECONFIG clears the configuration. -/
def Obligations.CheckpointCommandsTakeEffect : Prop :=
  ∀ (s : State) (d : BitVec 8) (q : BitVec 6) (io : CmdIn) (c : Cmd) (rest : List Cmd),
    let dn := d.toNat
    let u := Claims.popped s dn q.toNat rest
    let on (op : Nat) : Prop := Claims.Starts s dn q.toNat op c rest
    let ok (t : State) (r : DWord) : State := Claims.started t dn q.toNat c (some 0) r
    (∀ h bs, on 0x38 → u.buddyBound dn = true → u.ckptKey dn ≠ none → (u.ck dn).conf = false →
      let v := u.cmdReads dn (c.arg64 0x28) 64 64
      v.cmdRead dn (c.arg64 0x28) 64 64 = .ok h →
      let w := v.cmdReads dn (c.arg64 0x28) 64 (64 + 32 * fieldAt h 0 1)
      w.cmdRead dn (c.arg64 0x28) 64 (64 + 32 * fieldAt h 0 1) = .ok bs → badCkDesc bs = false →
      let l := sectsOf bs
      let rgn : DWord := BitVec.ofNat 64 (fieldAt bs 8 8)
      let ro := offOf rgn
      let rlen := fieldAt bs 0x10 8
      (∀ x ∈ l, (u.dom dn).sectOk x = true ∧ (x.kind ≠ 4 → x.kind ≠ 6 → Machine.overlaps ro rlen (offOf x.sadr) x.len = false)) →
      ro % 2 ^ 18 = 0 → rlen % 4096 = 0 → spaceOf rgn = some .dom → 2 ^ 56 ≤ ro → ro + rlen ≤ 2 ^ 57 →
      (u.dom dn).mapOk ro rlen { r := true, w := true, k := false } = true → (u.dom dn).noWick ro rlen = true →
      let lim := fieldAt bs 0x20 4
      exec (.ckptConfig d q io) s = .next (ok (((w.modCk dn fun k => { k with
        conf := true, ctx := c.ctx.toNat, sects := l, rgn := rgn, rgnLen := rlen, base := BitVec.ofNat 64 (fieldAt bs 0x18 8)
        limitMs := if lim = 0 then 60000 else lim, sized := false, latch := [] }).buddyCheck dn).sendSize dn) 0))
    ∧ (on 0x39 → (u.ck dn).conf = true →
      exec (.ckptRequest d q io) s = .next (Claims.started (u.cutRequest dn 2) dn q.toNat c none 0))
    ∧ (on 0x3A → (u.ck dn).conf = true → (u.ck dn).rgnState = 3 → (u.ck dn).req = false → u.issues dn = true →
      let o := offOf (u.ck dn).rgn
      let n := c.arg 0x30 8
      let host := c.arg 0x28 8
      n = 4096 + leNat (u.rdDom dn (o + 0xB0) 8) → host % 4096 = 0 → (u.dom dn).mapOk o n { r := true, k := false } = true →
      let v := u.reads dn o n
      v.poisonAt dn o n = none →
      exec (.ckptExport d q io) s = .next (ok { v with hostMem := Memory.wrN v.hostMem host (v.rdDom dn o n) } 0))
    ∧ (∀ h bs key im, on 0x3B → let r := u.cmdReads dn (c.arg64 0x28) 64 64
      r.cmdRead dn (c.arg64 0x28) 64 64 = .ok h →
      let w := r.cmdReads dn (c.arg64 0x28) 64 (0x60 + 16 * fieldAt h 3 1)
      w.cmdRead dn (c.arg64 0x28) 64 (0x60 + 16 * fieldAt h 3 1) = .ok bs → badRelight bs = false → w.ckptKey dn = some key →
      chooseImage 5 ((io.parts.take (fieldAt bs 2 1)).filter (w.validImage dn key (fieldAt bs 0 2) (fieldAt bs 8 8))) = some im →
      let body := imBody key im
      let sects := imSects (fieldAt im 0x23 1) body
      let todo := restores bs sects
      (∀ i < fieldAt bs 3 1, fieldAt bs (0x60 + 16 * i) 1 < sects.length) → (∀ p ∈ todo, p.1.kind = 4 → spaceOf p.2 = some .dom) →
      (∀ x, w.ctx? dn c.ctx.toNat = some x → x.prog = none) → (w.ck dn).req = false →
      (∀ p ∈ todo, p.1.kind ≠ 6 → spaceOf p.2 = some .dom ∧ offOf p.2 + p.1.len ≤ 2 ^ 57
        ∧ (w.dom dn).mapOk (offOf p.2) p.1.len { r := false, w := true, k := false } = true) →
      ((c.arg 0x30 1).testBit 0 = true → (c.arg 0x30 1).testBit 1 = false →
        exec (.relight d q io) s = .next (ok w (BitVec.ofNat 64 (imEpoch im))))
      ∧ ((c.arg 0x30 1).testBit 0 = false → sha384 body = imDigest im →
        let v := todo.foldl (fun t p =>
          let data := (body.drop p.1.off).take p.1.len
          if p.1.kind = 6 then (if fieldAt bs 0 2 = t.fab.chip then t.restoreEht dn data else t) else t.wrDom dn (offOf p.2) data) w
        exec (.relight d q io) s = .next (ok ((v.modCtx dn c.ctx.toNat fun x =>
          { x with step := BitVec.ofNat 64 (fieldAt im 0x10 8) }).modDom dn fun m =>
          { m with jobSeed := BitVec.ofNat 64 (fieldAt im 0xC0 8) }) (BitVec.ofNat 64 (imEpoch im)))))
    ∧ (on 0x3C → (u.ck dn).req = false →
      exec (.ckptDeconfig d q io) s = .next (ok (u.modCk dn fun k => { k with conf := false, buddyOk := false, sects := [], latch := [] }) 0))

/-- A message of a checkpoint passes its checks, for domain `d` (R520). -/
def Claims.cutMsgOk (s : State) (p : Pkt) (d : Nat) : Prop :=
  s.dev.st = .run ∧ p.ptype = 8 ∧ p.dst.toNat = s.fab.chip ∧ p.badCtrl = false ∧ s.ctrlDom p = some d

/-- R515, R518, R519, R522: a request is taken and reported; the coordinator gathers reports and completions; CUT_SET from the coordinator holds, freezes
or runs on; CUT_COMMIT commits; CUT_ABORT abandons; SIZE from the partner decides whether it is ready. -/
def Claims.cutMessages : Prop :=
  ∀ (s : State) (p : Pkt) (d : Nat), Claims.cutMsgOk s p d →
    let u := (s.freeIn p).ack p
    ((u.ck d).conf = true → (u.ck d).req = false → p.cutCode ≠ 1 →
      exec (.cutReq p) s = .next ((u.modCk d fun k => { k with req := true, reason := p.cutCode }).cutReport d))
    ∧ ((u.ck d).conf = true → (u.ck d).req = false → p.cutCode = 1 →
      ∃ t, exec (.cutReq p) s = .next t ∧ t.mgmt.gut.recv = s.mgmt.gut.recv + 1 ∧ (t.ck d).req = true ∧ (t.ck d).reason = 1)
    ∧ (u.coordOf d = u.fab.chip →
      exec (.cutStat p) s = .next (u.coordStat d p.src.toNat { code := p.cutCode, step := p.cutA, floor := p.cutB })
      ∧ exec (.cutDone p) s = .next (u.coordDone d p.src.toNat p.cutCode))
    ∧ (p.src.toNat = u.coordOf d → (u.ck d).conf = true →
      exec (.cutSet p) s = .next (u.onCutSet d p.cutA p.cutB)
      ∧ ∃ t, exec (.cutCommit p) s = .next t ∧ (t.ck d).epoch = p.cutB ∧ (t.ck d).step = p.cutA ∧ (t.ck d).rgnState = 3
          ∧ (t.ck d).cuts = ((u.ck d).cuts + 1) % 2 ^ 32 ∧ (t.ck d).req = false ∧ (t.ck d).cause = 0)
    ∧ (p.src.toNat = u.coordOf d → (u.ck d).req = true → FMap.wf {} s.ckpt = true →
      ∃ t, exec (.cutAbort p) s = .next t ∧ (t.ck d).req = false ∧ (t.ck d).cause = p.cutCode ∧ (t.ck d).cut = none
        ∧ (t.ck d).fails = satAdd 32 (u.ck d).fails 1)
    ∧ (p.src.toNat = buddyOf s.fab.chip → (u.ck d).conf = true → (u.ck d).sized = true →
      ∃ t, exec (.ckptSize p) s = .next t ∧ (t.ck d).psize = some (p.cutA.toNat, p.cutB.toNat)
        ∧ (t.ck d).buddyOk = decide (s.imageLen d ≤ p.cutB.toNat))

/-- R521, R522: a copy whose last ACK has come is reported with cause 0, a failed one or one past its limit with 5; the coordinator abandons a cut whose
reports or completions stay out, and a chip one whose CUT_SET stays out for 200 ms. -/
def Claims.cutTimers : Prop :=
  ∀ (s : State) (d : BitVec 8), s.dev.st = .run →
    let k := s.ck d.toNat
    (∀ t, k.copying = some t → k.done = false → k.bad = false → k.left = 0 →
      exec (.cutCopyDone d) s = .next (s.copyReport d.toNat 0))
    ∧ (∀ t, k.copying = some t → k.done = false → k.bad = true →
      exec (.cutCopyDone d) s = .next ((s.dropImage d.toNat).copyReport d.toNat 5))
    ∧ (∀ t, k.copying = some t → k.done = false → t + k.limitMs * 1000000 ≤ s.beacon →
      exec (.copyLimitTimeout d) s = .next ((s.dropImage d.toNat).copyReport d.toNat 5))
    ∧ (∀ t, k.copying = none → k.doneAt = some t → t + k.limitMs * 1000000 ≤ s.beacon →
      exec (.copyLimitTimeout d) s = .next (s.coordAbort d.toNat 1))
    ∧ (∀ t, k.repAt = some t → k.set = none → t + 100000000 ≤ s.beacon →
      exec (.cutReportTimeout d) s = .next (s.coordAbort d.toNat 1))
    ∧ (∀ h, k.heldAt = some h → k.cut = none → h.2 + 200000000 ≤ s.beacon → k.req = true →
      ∃ t, exec (.cutHoldTimeout d) s = .next t ∧ (t.ck d.toNat).req = false ∧ (t.ck d.toNat).cause = 1 ∧ (t.ck d.toNat).heldAt = none)

/-- R515 to R520: the messages that drive a cut and the timers that end it. -/
def Obligations.CutMessagesAndTimersDriveTheCut : Prop := Claims.cutMessages ∧ Claims.cutTimers

/-! ### Mailboxes and NVS -/

/-- A mailbox message of function `fn` with operation `op` and payload `p` waits to be served in RUN (R442, R443). -/
def Claims.mails (s : State) (fn op : Nat) (p : List Byte) : Prop :=
  s.dev.st = .run ∧ s.mbxWaits fn op = true ∧ (s.mbx fn).payload = p

/-- A function may write its mailbox registers. -/
def Claims.mbxOpen (s : State) (fn : BitVec 9) : Prop := (fn = 0 ∧ s.pf0Free) ∨ (fn ≠ 0 ∧ s.doorOpen (fn.toNat - 1) = true)

/-- R363, R368, R418, R442 to R444, R487: GO submits a message that is framed, and is refused while one is outstanding; READY is cleared by the
host; HELLO negotiates; the domain operations change their domain and reply OK. -/
def Obligations.MailboxOperationsServeTheirDomain : Prop :=
  (∀ (s : State) (fn : BitVec 9), Claims.mbxOpen s fn →
    let m := s.mbx fn.toNat
    (m.go = false → m.ready = false → s.dev.st = .run → s.mbxServed fn.toNat = true → m.framing fn.toNat = 0 → m.badCmd fn.toNat = false →
      exec (.mbxGo fn) s = .next (s.modMbx fn.toNat fun m => { m with go := true, frame := 0 }))
    ∧ ((m.go = true ∨ m.ready = true) → exec (.mbxGo fn) s = .next (s.modMbx fn.toNat fun m => { m with frame := 6 }))
    ∧ exec (.mbxReady fn) s = .next (s.modMbx fn.toNat fun m => { m with ready := false }))
  ∧ (∀ (s : State) (fn : BitVec 9) (p : List Byte), Claims.mails s fn.toNat 1 p → p.length = 16 → (leNat p).testBit 0 = true →
    let b := leNat p &&& mbxBits fn.toNat
    exec (.mbxHello fn) s = .next ((s.modMbx fn.toNat fun m => { m with hello := some b }).mbxReply fn.toNat 0
      (leBytes 16 b ++ leBytes 16 (mbxBits fn.toNat))))
  ∧ (∀ (s : State) (d : BitVec 8) (p : List Byte),
    let n := d.toNat + 1
    let m := s.dom d.toNat
    let on (op len : Nat) : Prop := Claims.mails s n op p ∧ p.length = len
    let sets (i : Instr) (m' : Dom) : Prop := exec i s = .next ((s.setDom d.toNat m').mbxReply n 0 [])
    (on 0x200 12 → 0 < fieldAt p 4 8 → fieldAt p 4 8 < 2 ^ 37 → fieldAt p 0 4 < 2 ^ 24 → (∀ x ∈ m.pins, x.tensor ≠ fieldAt p 0 4) →
      2 * (fieldAt p 4 8 + sumBy Pin.nelem m.pins) ≤ 32 * 2 ^ 20 →
      sets (.pinAdd d) { m with pins := m.pins ++ [{ tensor := fieldAt p 0 4, nelem := fieldAt p 4 8 }] })
    ∧ (on 0x201 4 → (∃ x ∈ m.pins, x.tensor = leNat p) →
      (∀ u ∈ s.eng.upds, ¬ (u.dom = d.toNat ∧ u.tensor = leNat p ∧ u.store = 1)) →
      sets (.pinRemove d) { m with pins := m.pins.filter fun x => x.tensor != leNat p })
    ∧ (on 0x202 4 → leNat p ≠ 0 → sets (.setTimeout d) { m with timeoutUs := leNat p })
    ∧ (on 0x203 1 → leNat p < 2 → m.ctxs = [] → m.driver = (leNat p == 1) → sets (.setPagemode d) { m with driver := leNat p == 1 })
    ∧ (on 0x203 1 → leNat p < 2 → m.ctxs = [] → m.driver ≠ (leNat p == 1) →
      exec (.setPagemode d) s = .next (((s.setDom d.toNat { m with driver := leNat p == 1 }).raiseIrq n 0).mbxReply n 0 []))
    ∧ (on 0x207 8 → m.ctxs = [] → sets (.setJobseed d) { m with jobSeed := BitVec.ofNat 64 (leNat p) })
    ∧ (let adr := BitVec.ofNat 64 (fieldAt p 0 8)
      let w := s.cmdReads d.toNat adr 1 (fieldAt p 8 4)
      ∀ t, on 0x204 12 → (FMap.get [] s.sec.spdm.ready d.toNat).length < 4 → 128 ≤ fieldAt p 8 4 → fieldAt p 8 4 ≤ 128 + 32 * 48 + 256 * 32 →
      w.cmdRead d.toNat adr 1 (fieldAt p 8 4) = .ok t → badPolicy t = false →
      (w.sec.dom d.toNat).policy = none → w.strangeProg d.toNat t = false → (w.dom d.toNat).ctxs = [] →
      (t.drop 0x20).take 48 = (match (w.dom d.toNat).binding with | some b => b.digest | none => List.replicate 48 0) →
      exec (.policyLoad d) s = .next ((((match (w.dom d.toNat).binding with
        | some b => (b.chips.map Prod.fst).filter (· != s.fab.chip) | none => []).foldl (fun (v : State) c => v.sendPeer d.toNat c)
          (w.modJoint d.toNat fun x => { x with policy := some t, joint := .forming, joined := 0, done := 0, confirmed := [] })).mbxReply n 0 [])))
    ∧ (on 0x205 36 → fieldAt p 2 2 ≤ 511 → fieldAt p 8 4 ≤ 0x7FFFFF → fieldAt p 4 2 ≤ 16383 → fieldAt p 0 1 ≤ 1 → fieldAt p 6 2 = 0 →
      fieldAt p 28 8 < 2 ^ 63 →
      ∀ u k, s.trigArm d.toNat { mode := fieldAt p 0 1 == 1, action := fieldAt p 1 1, word := fieldAt p 2 2, count := fieldAt p 4 2
                                 inc := fieldAt p 8 4, time := BitVec.ofNat 64 (fieldAt p 12 8)
                                 period := BitVec.ofNat 64 (fieldAt p 20 8), arg := BitVec.ofNat 64 (fieldAt p 28 8) } false = .ok (u, k) →
      exec (.triggerArm d) s = .next (u.mbxReply n 0 (leBytes 2 k)))
    ∧ (on 0x206 2 → 128 ≤ leNat p → leNat p < 256 → (s.trig (leNat p)).en = true → (s.trig (leNat p)).dom = d.toNat →
      exec (.triggerCancel d) s = .next ((s.setTrig (leNat p) {}).mbxReply n 0 [])))

/-- R445, R449, R456, R457, R549: the management operations answer from the firmware bundle, the records and the NVS, whose corrected words are
logged; writes and increments that pass the checks of R450 wait in the NVS queue; the one at its head takes effect and answers when it completes,
and a torn one leaves its target BAD or erased. -/
def Obligations.ManagementOperationsUseTheNvs : Prop :=
  ∀ (s : State) (p : List Byte),
    let on (op : Nat) : Prop := Claims.mails s 0 op p
    let n := s.mgmt.nvs
    let key := (s.sec.nvsKey.map Masked.key).getD []
    let answers (u : State) (i : Instr) (b : List Byte) : Prop := exec i s = .next (u.mbxReply 0 0 b)
    let queues (u : State) (i : Instr) (w : NvsWork) : Prop :=
      n.checkAll .security w = 0 → n.queue.length < 16 →
        exec i s = .next (u.modNvs fun n => { n with queue := n.queue ++ [{ work := w, who := .mailbox }] })
    (on 0x100 → p = [] → answers s .fwInfo (leBytes 1 s.mgmt.fw.comps.length ++ leBytes 1 s.mgmt.fw.source ++ leBytes 2 s.mgmt.fw.bsvn
      ++ (s.mgmt.fw.comps.map fun c => leBytes 1 c.type ++ leBytes 1 0 ++ leBytes 2 c.svn ++ c.digest).flatten))
    ∧ (∀ b, on 0x101 → p.length = 1 → n.bcr (leNat p) = some b →
      answers (s.nvsLook (· == (2 + leNat p, 0))) .bcrRead (b.take 4032))
    ∧ (on 0x102 → goodBcr p = true → n.bcrTop < bcrSeqOf p → queues s .bcrWrite (.bcr (s.mgmt.start.copy == 1) p))
    ∧ (on 0x103 → fieldAt p 2 2 ≤ 4028 → p.length = 4 + fieldAt p 2 2 → fieldAt p 0 2 < 768 →
      queues (s.drewBytes 12) .nvsUserWrite (.userWrite (fieldAt p 0 2) { nonce := s.rndBytes 12, key := key, bytes := p.drop 4 }))
    ∧ (∀ x, on 0x104 → p.length = 2 → leNat p < 768 → FMap.get .erased n.user (leNat p) = .data x → x.key = key →
      answers (s.nvsLook (· == (10 + leNat p / 128, leNat p % 128))) .nvsUserRead (leBytes 2 x.bytes.length ++ x.bytes))
    ∧ (on 0x105 → p.length = 2 → leNat p < 768 → queues s .nvsUserErase (.userErase (leNat p)))
    ∧ (∀ v q, on 0x106 → p.length = 1 → leNat p < 42 → n.ctr (leNat p) = some (v, q) →
      answers ((s.nvsLook fun y => y.1 == 7 && y.2 / 3 == leNat p).ctrTie (leNat p)) .nvsCtrRead (leBytes 8 v.toNat ++ leBytes 4 q))
    ∧ (on 0x107 → p.length = 1 → 10 ≤ leNat p → leNat p < 42 → n.ctr (leNat p) ≠ none → queues s .nvsCtrInc (.ctr (leNat p)))
    ∧ (∀ work who rest, s.powered = true → n.queue = { work := work, who := who } :: rest →
      let ends (st : BitVec 8) (m : NvsSt) (ok : Bool) : Prop := ∃ u : State,
        u.mgmt.nvs = { m with queue := rest, last := st.toNat } ∧ u.sec = (if ok then s.sec.nvsDone work else s.sec)
        ∧ u.free = s.free + 1
        ∧ (who = .nobody → exec (.nvsOpComplete st) s = .next u)
        ∧ (who = .mailbox → exec (.nvsOpComplete st) s = .next (if ok then u.mbxReply 0 0
            (match work with | .ctr i => leBytes 8 (u.mgmt.nvs.val i) | _ => []) else u.mbxReply 0 stNOSPACE []))
        ∧ (who = .usb → exec (.nvsOpComplete st) s = .next (if ok then u.usbDone 0 else u.usbDone 9 (leBytes 1 st.toNat)))
      ends 0 ((n.fresh work).apply work) true ∧ ends 4 (n.tear work) false ∧ ends 5 (n.cut (s.rnd.getLsbD 0) work) false)
    ∧ (∀ id w, FMap.get .erased (n.apply (.userWrite id w)).user id = .data w
        ∧ (FMap.wf .erased n.user = true → FMap.get .erased (n.tear (.userWrite id w)).user id = .bad))
    ∧ (∀ id, n.ctr id ≠ none → (FMap.get [.erased, .erased, .erased] n.ctrs id).length = 3 →
      FMap.wf [.erased, .erased, .erased] n.ctrs = true →
      (n.apply (.ctr id)).val id = (n.val id + 1) % 2 ^ 64 ∧ (n.tear (.ctr id)).val id = n.val id)

/-! ### Functions, interfaces, attestation -/

/-- The responder has served a request: the response waits in the flow, the mailbox says ResponseNotReady (R415). -/
def Claims.answered (t : State) (fl : Nat) (r : SRsp) : State :=
  (t.modSpdm fun x => { x with ready := FMap.modify [] x.ready fl (· ++ [r]) }).refuse .responseNotReady

/-- A message in an open secured session `x`, whose flow takes another request (R413 to R415). -/
def Claims.inSes (s : State) (ses : BitVec 32) (x : Session) : Prop :=
  s.pf0Up = true ∧ s.noRoot = false ∧ s.session? ses.toNat = some x ∧ x.open_ = true ∧ (FMap.get [] s.sec.spdm.ready x.flow).length < 4

/-- A request outside a session is served: a root exists, the connection is negotiated as far as `need` (R409). -/
def Claims.bare (s : State) (need : Nat) : Prop :=
  s.pf0Up = true ∧ s.noRoot = false ∧ need ≤ s.sec.spdm.neg ∧ (FMap.get [] s.sec.spdm.ready 256).length < 4

/-- R327, R330, R333, R334, R361, R578: VF Enable creates domains at their reset values and its clearing destroys them; a function-level reset leaves a
fresh domain; a reset of PF0 clears VF Enable, the guard window, the pair latches and its configuration state, and one of the host link the stream keys
too; a change of what a locked or running interface was attested with is an error of it; the fence mirror raises a FENCE word. -/
def Obligations.FunctionsAreCreatedAndReset : Prop :=
  (∀ (s : State) (num : BitVec 9), s.vfenOk = true → num.toNat ≤ 256 → s.dev.vfEnable = false → (∀ d, (s.dom d).there = false) →
    ∃ t, exec (.vfEnableSet num) s = .next t ∧ t.dev.vfEnable = true ∧ t.dev.numVfs = num.toNat
      ∧ ∀ d < num.toNat, (t.dom d).there = true ∧ (t.dom d).tdi = .unlocked ∧ (t.dom d).ctxs = [] ∧ (t.dom d).binding = none
          ∧ (t.dom d).fenced = false)
  ∧ (∀ s : State, s.dev.vfEnable = true →
    ∃ t, exec (.vfEnableClear none) s = .next t ∧ t = s.setVfs false s.dev.numVfs ∧ t.dev.vfEnable = false)
  ∧ (∀ (s : State) (n : BitVec 9), s.dev.vfEnable = true → n.toNat < s.dev.numVfs →
    ∃ t, exec (.vfEnableClear (some n)) s = .next t ∧ t = s.setVfs true n.toNat ∧ t.dev.numVfs = n.toNat)
  ∧ (∀ (s : State) (d : BitVec 8), (s.dom d.toNat).there = true →
    ∃ t, exec (.flrVf d) s = .next t ∧ (t.dom d.toNat).there = true ∧ (t.dom d.toNat).tdi = .unlocked ∧ (t.dom d.toNat).ctxs = []
      ∧ (t.dom d.toNat).qs = [] ∧ (t.dom d.toNat).fences = [] ∧ (t.dom d.toNat).binding = none ∧ (t.dom d.toNat).fenced = false)
  ∧ (∀ s : State, s.pf0Up = true →
    ∃ t, exec .flrPf0 s = .next t ∧ t.dev.vfEnable = false ∧ t.dev.numVfs = 0 ∧ t.mgmt.regs.guard = none ∧ t.mgmt.regs.rlatch = none
      ∧ t.mgmt.regs.wlatch = none ∧ t.mgmt.regs.mps = 128 ∧ t.mgmt.regs.mrrs = 512 ∧ t.mgmt.regs.d3 = [])
  ∧ (∀ s : State, s.dev.st = .run ∨ s.dev.st = .hold →
    ∃ t, exec .hostLinkReset s = .next t ∧ t.dev.vfEnable = false ∧ t.sec.streams = [] ∧ t.sec.tdiStream = []
      ∧ t.mgmt.regs.linkSpeed = 0 ∧ t.mgmt.regs.linkWidth = 0 ∧ t.mgmt.regs.linkFlit = false)
  ∧ (∀ (s : State) (d : BitVec 8) (mse bme : Bool) (bar : BitVec 64), (s.dom d.toNat).there = true → (s.dom d.toNat).tdi = .unlocked →
    exec (.vfConfigWrite d mse bme bar) s = .next (
      if (s.dom d.toNat).mse = mse ∧ (s.dom d.toNat).bme = bme ∧ (s.dom d.toNat).bar = bar then s
      else s.setDom d.toNat { s.dom d.toNat with mse := mse, bme := bme, bar := bar }))
  ∧ (∀ (s : State) (d : BitVec 8) (mse bme : Bool) (bar : BitVec 64), (s.dom d.toNat).there = true → (s.dom d.toNat).fenced = false →
    ((s.dom d.toNat).tdi = .locked ∨ (s.dom d.toNat).tdi = .run) → ((s.dom d.toNat).mse ≠ mse ∨ (s.dom d.toNat).bme ≠ bme ∨ (s.dom d.toNat).bar ≠ bar) →
    ∃ t, exec (.vfConfigWrite d mse bme bar) s = .next t ∧ (t.dom d.toNat).tdi = .error ∧ (t.dom d.toNat).fenced = true
      ∧ (t.dom d.toNat).fcause = 2)
  ∧ (∀ (s : State) (d : BitVec 8) (n : BitVec 9) (v : BitVec 32), s.doorOpen d.toNat = true →
    exec (.fenceMirrorWrite d n false v) s
        = .next (s.setDom d.toNat { s.dom d.toNat with wlatch := some (0x4000 + 8 * n.toNat, v) })
    ∧ (∀ lo, (s.dom d.toNat).wlatch = some (0x4000 + 8 * n.toNat, lo) → v.getLsbD 31 = false →
      exec (.fenceMirrorWrite d n true v) s
        = .next ((s.setDom d.toNat { s.dom d.toNat with wlatch := none }).fenceWord d.toNat n.toNat (sigWord (v ++ lo)))))

/-- R329 to R332: stream keys and states; TDISP locks an unlocked interface whose Selective stream is Secure, starts it on the nonce it answered, and
stops it into ERROR; the report and the state are answered, and an unknown message refused. -/
def Obligations.InterfacesLockStartAndStop : Prop :=
  (∀ (s : State) (n : BitVec 4) (secure : Bool), n.toNat ≤ 8 →
    let old : IdeStream := FMap.get {} s.sec.streams n.toNat
    (secure = false ∨ old.key ≠ none) →
    exec (.ideStreamStateChange n secure) s
      = .next ((s.modSec fun y => { y with streams := FMap.set {} y.streams n.toNat { old with secure := secure } }).streamsChanged s))
  ∧ (∀ (s : State) (ses : BitVec 32) (x : Session), Claims.inSes s ses x → x.dom = none →
    (∀ (n : BitVec 4) (k : IdeIn), n.toNat ≤ 8 → k.fn.toNat ≤ 256 → k.key.length = 32 → k.blocks.length ≤ 2 →
      let u := (s.modSec fun y => { y with
        streams := FMap.set {} y.streams n.toNat { (FMap.get ({} : IdeStream) s.sec.streams n.toNat) with
          key := some (s.maskKey k.key), fn := k.fn.toNat, blocks := k.blocks, pcrc := k.pcrc } }).drewBytes 32
      ((∀ e, s.boundTdi n.toNat = some e → (s.dom e).tdiSes = some ses.toNat) →
        exec (.ideKm ses n k) s = .next (Claims.answered (u.streamsChanged s) 256 .ideKm))
      ∧ (∀ e, s.boundTdi n.toNat = some e → (s.dom e).tdiSes ≠ some ses.toNat →
        exec (.ideKm ses n k) s = .next (Claims.answered ((u.tdiError e).streamsChanged s) 256 .ideKm)))
    ∧ ∀ d : BitVec 8, (s.dom d.toNat).there = true →
      let m := s.dom d.toNat
      exec (.getTdispVersion ses d) s = .next (Claims.answered s 256 .tdispVersion)
      ∧ exec (.getTdispCapabilities ses d) s = .next (Claims.answered s 256 .tdispCapabilities)
      ∧ exec (.getDeviceInterfaceState ses d) s = .next (Claims.answered s 256 (.interfaceState m.tdi.num))
      ∧ exec (.tdispUnsupported ses d) s = .next (Claims.answered s 256 (.tdispError 7))
      ∧ (m.tdi = .locked ∨ m.tdi = .run →
        exec (.getDeviceInterfaceReport ses d) s = .next (Claims.answered s 256 (.report (reportBytes d.toNat m.bar m.lockRep))))
      ∧ (∀ st : BitVec 4, m.tdi = .unlocked → st ≠ 0 → (FMap.get ({} : IdeStream) s.sec.streams st.toNat).fn = d.toNat + 1 →
        (FMap.get ({} : IdeStream) s.sec.streams st.toNat).secure = true →
        ∃ t, exec (.lockInterfaceRequest ses d st) s = .next (Claims.answered t 256 .lockRsp) ∧ (t.dom d.toNat).tdi = .locked
          ∧ (t.dom d.toNat).lockRep = s.resources d.toNat ∧ (t.dom d.toNat).tdiSes = some ses.toNat
          ∧ FMap.find? t.sec.tdiStream d.toNat = some st.toNat)
      ∧ (∀ nonce, m.tdi = .locked → nonce = m.tdiNonce →
        exec (.startInterfaceRequest ses d nonce) s
          = .next (Claims.answered ((s.tdiTo d.toNat .run).wakeQueues d.toNat) 256 .startRsp))
      ∧ exec (.stopInterfaceRequest ses d) s = .next (Claims.answered (s.tdiError d.toNat) 256 .stopRsp)
      ∧ (m.tdi = .locked → m.fenced = false → ((s.tdiError d.toNat).dom d.toNat).tdi = .error
          ∧ ((s.tdiError d.toNat).dom d.toNat).fenced = true))

/-- R407 to R412, R415: the connection is negotiated in three steps; digests, certificates, challenges and measurements are answered; certificates are
installed once in PROV; responses are collected in order, a large one in chunks. -/
def Obligations.TheResponderServesItsConnection : Prop :=
  ∀ (s : State),
    let ans (r : SRsp) : State := Claims.answered s 256 r
    (Claims.bare s 0 → exec .getVersion s = .next (Claims.answered (s.modSpdm fun x => { x with neg := 1 }) 256 .version))
    ∧ (∀ m, Claims.bare s 1 → exec (.getCapabilities m) s
        = .next (Claims.answered (s.modSpdm fun x => { x with neg := 2, mutAuth := m }) 256 (.capabilities (s.sec.lc == .prov))))
    ∧ (Claims.bare s 2 → exec (.negotiateAlgorithms 0xFF) s
        = .next (Claims.answered (s.modSpdm fun x => { x with neg := 3 }) 256 .algorithms))
    ∧ (Claims.bare s 3 →
      exec .getDigests s = .next (ans (.digests ([0, 1].filter fun i => (s.chain? i).isSome)))
      ∧ (∀ (sl : BitVec 8) (o n : BitVec 16) (c : List Byte), s.chain? sl.toNat = some c →
        exec (.getCertificate sl o n) s = .next (ans (.certificate ((c.drop o.toNat).take n.toNat)))
        ∧ exec (.spdmChallenge sl) s = .next (ans .challengeAuth))
      ∧ (∀ sg, exec (.getMeasurements 0xFF sg) s = .next (ans (.measurements sg s.measBlocks)))
      ∧ (∀ sl : BitVec 8, sl.toNat < 2 → s.sec.lc = .prov →
        exec (.getCsr sl) s = .next (Claims.answered (s.modSpdm fun x =>
          { x with csrs := if x.csrs.contains sl.toNat then x.csrs else x.csrs ++ [sl.toNat] }) 256 (.csr sl.toNat)))
      ∧ (∀ (sl : BitVec 8) c, sl.toNat < 2 → s.sec.lc = .prov → FMap.find? s.sec.spdm.chains sl.toNat = none →
        Config.certLeaf c = some (Config.idKey sl.toNat (s.sec.idSecret sl.toNat)) → sl.toNat ∈ s.sec.spdm.csrs →
        exec (.setCertificate sl c) s = .next (Claims.answered (s.modSpdm fun x =>
          { x with chains := FMap.insert x.chains sl.toNat c }) 256 .setCertificateRsp)))
    ∧ (s.pf0Up = true → s.noRoot = false → exec .spdmUnsupported s = .next (s.refuse .unsupportedRequest))
    ∧ (∀ data, s.pf0Up = true → s.noRoot = false → (s.sec.spdm.chunkIn ++ data).length ≤ 65536 →
      exec (.chunkSend data false) s = .next ((s.modSpdm fun x => { x with chunkIn := s.sec.spdm.chunkIn ++ data }).reply .chunkSendAck)
      ∧ exec (.chunkSend data true) s = .next ((s.modSpdm fun x => { x with chunkIn := [] }).reply .chunkSendAck))
    ∧ (∀ r n, s.pf0Up = true → s.noRoot = false → s.sec.spdm.chunkOut = some (r, n) →
      exec .chunkGet s = .next (if n ≤ 1 then (s.modSpdm fun x => { x with chunkOut := none }).reply r
        else (s.modSpdm fun x => { x with chunkOut := some (r, n - 1) }).reply .chunkResponse))
    ∧ (∀ (fl : BitVec 9) r l, s.pf0Up = true → FMap.get [] s.sec.spdm.ready fl.toNat = r :: l →
      let u := s.modSpdm fun x => { x with ready := FMap.set [] x.ready fl.toNat l }
      exec (.respondIfReady fl) s = .next (if r.chunks ≤ 1 then u.reply r
        else (u.modSpdm fun x => { x with chunkOut := some (r, r.chunks) }).refuse .largeResponse))

/-- R409, R411, R413, R414: KEY_EXCHANGE makes a session, FINISH opens it, the requester may authenticate itself between; heartbeats keep it, and
END_SESSION or 120 s without one ends it. -/
def Obligations.SessionsOpenAndEnd : Prop :=
  ∀ (s : State) (ses : BitVec 32) (x : Session),
    (∀ (sl : BitVec 8) (el : List (BitVec 8)), Claims.bare s 3 → s.dev.st ≠ .hold → 1 ∈ el → (∀ e ∈ el, 1 ≤ e.toNat ∧ e.toNat ≤ 3) →
      (s.chain? sl.toNat).isSome = true → s.sec.spdm.sessions.length < 256 →
      ∃ t, exec (.keyExchange sl el) s
          = .next (Claims.answered t 256 (.keyExchangeRsp s.sec.spdm.nextSession s.sec.spdm.mutAuth))
        ∧ t.session? s.sec.spdm.nextSession = some { auth := s.sec.spdm.mutAuth, beat := s.beacon }
        ∧ t.sec.spdm.nextSession = s.sec.spdm.nextSession + 1)
    ∧ (Claims.bare s 0 → s.session? ses.toNat = some x → x.open_ = false → (x.auth = true → x.leaf ≠ none) →
      (∃ t y, exec (.spdmFinish ses true) s = .next (Claims.answered t 256 .finishRsp) ∧ t.session? ses.toNat = some y
        ∧ y.open_ = true ∧ y.beat = s.beacon ∧ y.leaf = x.leaf ∧ y.dom = x.dom
        ∧ y.th2 = s.rndBytes 48 ∧ y.secret = (s.drewBytes 48).newKey 48)
      ∧ exec (.spdmFinish ses false) s = .next (Claims.answered (s.dropSession ses.toNat) 256 (.error .decryptError)))
    ∧ (Claims.inSes s ses x →
      exec (.spdmHeartbeat ses) s
        = .next (Claims.answered (s.setSession ses.toNat { x with beat := s.beacon }) x.flow .heartbeatAck)
      ∧ exec (.keyUpdate ses) s = .next (Claims.answered s x.flow .keyUpdateAck)
      ∧ exec (.endSession ses) s = .next (Claims.answered (s.dropSession ses.toNat) x.flow .endSessionAck))
    ∧ (s.session? ses.toNat = some x → x.open_ = true → x.beat + 120000000000 ≤ s.beacon →
      exec (.heartbeatTimeout ses) s = .next (s.dropSession ses.toNat))
    ∧ (Claims.bare s 0 → s.session? ses.toNat = some x → x.open_ = false → x.auth = true →
      exec (.getEncapsulatedRequest ses) s = .next (Claims.answered s 256 .encapsulatedRequest)
      ∧ ∀ c k, Config.certLeaf c = some k → exec (.deliverEncapsulatedResponse ses c) s
          = .next (Claims.answered (s.setSession ses.toNat { x with leaf := some k }) 256 .encapsulatedAck))

/-- A Zyndowin answer: the session has received one, status and body wait in its flow (R420). -/
def Claims.vendor (t : State) (ses : BitVec 32) (x : Session) (op st : Nat) (body : List Byte) : State :=
  Claims.answered (t.setSession ses.toNat { x with zyn := true }) x.flow (.vendor op st body)

/-- R414, R422, R423, R425, R427, R431: an authenticated session binds to a domain; the report is signed; an owner's key is released, erased; owners
finish, and the model key is handed to an owner of a finished session. -/
def Obligations.OwnersReleaseKeysToTheirDomain : Prop :=
  ∀ (s : State) (ses : BitVec 32) (x : Session), Claims.inSes s ses x →
    (∀ (d : BitVec 8) (key sig leaf : List Byte), x.zyn = false → x.dom = none → key.length = 2592 → sig.length = 4627 → x.leaf = some leaf →
      (s.dom d.toNat).there = true → (s.sec.spdm.sessions.filter fun p => p.2.dom == some d.toNat).length < 32 →
      Config.mldsaOk key (ascii "Siloft bind" ++ x.th2) sig = true →
      ∃ t y, exec (.bindDomain ses d 0 key sig) s = .next (Claims.answered t 256 (.vendor 1 0 [])) ∧ t.session? ses.toNat = some y
        ∧ y.dom = some d.toNat ∧ y.ident = sha384 (leaf ++ key) ∧ y.zyn = true)
    ∧ (∀ d, x.dom = some d →
      (∀ nonce : List Byte, nonce.length = 32 →
        exec (.domainReport ses nonce) s = .next (Claims.vendor s ses x 2 0 (s.report d nonce)))
      ∧ ∀ p o, (s.dom d).fenced = false → (s.sec.dom d).policy = some p → ownerOf p x.ident = some o →
        (∀ (sl : BitVec 8) (w k : List Byte), s.sec.lc = .field → w.length = 40 → s.releaseStop d o sl.toNat 1 p = none →
          Config.keyUnwrap x.wrapKey w = some k →
          exec (.keyRelease ses sl 1 0 (sha384 p) w) s = .next (Claims.vendor ((s.drew 4).modJoint d fun y =>
            { y with slots := FMap.insert y.slots sl.toNat (s.slotKey o k) }) ses x 3 0 []))
        ∧ (∀ (sl : BitVec 8) (w k : List Byte), s.sec.lc = .field → w.length = 40 → s.releaseStop d o sl.toNat 2 p = none →
          Config.keyUnwrap x.wrapKey w = some k →
          exec (.keyRelease ses sl 2 0 (sha384 p) w) s = .next (Claims.vendor (s.installKey d o sl.toNat 2 p k) ses x 3 0 []))
        ∧ (∀ (sl : BitVec 8) k, (s.sec.dom d).joint ≠ .finished → FMap.find? (s.sec.dom d).slots sl.toNat = some k → k.owner = o →
          k.dying = false →
          let u := s.modJoint d fun y => { y with slots := FMap.insert y.slots sl.toNat { k with dying := true } }
          exec (.keyErase ses sl 1 0) s = .next (Claims.vendor (u.dropDying d) ses x 4 0 [])
          ∧ (u.copyNames d sl.toNat = false → ∀ q ∈ ((u.dropDying d).sec.dom d).slots, q.1 ≠ sl.toNat))
        ∧ ((s.sec.dom d).joint = .active → (s.sec.dom d).done.testBit o = false →
          exec (.jointFinish ses (sha384 p)) s = .next (Claims.vendor (s.modJoint d fun y => { y with
            done := (s.sec.dom d).done ||| 2 ^ o
            joint := if bitCount (polN p) ((s.sec.dom d).done ||| 2 ^ o) = polN p then .finished else .active }) ses x 5 0 []))
        ∧ (∀ k, (s.sec.dom d).joint = .finished → s.modelKey d = some k →
          exec (.modelKeyFetch ses) s = .next (Claims.vendor s ses x 6 0 (Config.keyWrap x.wrapKey k)))
        ∧ ((s.sec.dom d).joint ≠ .finished → exec (.modelKeyFetch ses) s = .next (Claims.vendor s ses x 6 zSTATE [])))
    ∧ (∀ d p, x.dom = some d → (s.dom d).fenced = false → (s.sec.dom d).policy = some p → ownerOf p x.ident = none →
        exec (.modelKeyFetch ses) s = .next (Claims.vendor s ses x 6 zNOTOWNER []))

/-! ### Security events and guarded writes -/

/-- Sensors and the codes of their events (R399). -/
def Claims.alarms : List (Instr × Nat) :=
  [(.vglitch, 7), (.clockAlarm, 8), (.tempAlarm, 9), (.faultdet, 0xA), (.meshAlarm, 0xB), (.lightAlarm, 0xC), (.integD2d, 6)]

/-- The key slots of the device (R380, R383): those of the security core, the die-to-die ports, the domains, the sessions, the IDE engine, the memory
controllers and the links. -/
def Claims.slots (s : State) : List Masked :=
  let x := s.sec
  let slot (k : KeySlot) : Masked := { a := k.a, m := k.m }
  x.seed.toList ++ x.root.toList ++ x.idSeed.toList ++ x.nvsKey.toList ++ x.d2d.map Prod.snd
    ++ (x.doms.map fun p => (p.2.slots.map fun q => slot q.2) ++ p.2.shares.map fun q => slot q.2).flatten
    ++ (x.spdm.sessions.map fun p => p.2.secret.toList).flatten ++ (x.streams.map fun p => p.2.key.toList).flatten
    ++ (s.mem.ctls.map fun p => p.2.devKey.toList ++ (p.2.gens.map fun q => q.2.key.toList ++ q.2.keyOld.toList).flatten).flatten
    ++ (s.fab.links.map fun p => (p.2.txKey.toList ++ p.2.rxKey.toList ++ p.2.rxNext.toList ++ p.2.rxOld.toList).map (·.key)).flatten

/-- R374, R383, R399 to R401, R404: a sensor's event is raised; at A2 and A3 every key slot of the device is erased, nothing is held for sending and
the device is in HOLD with cause SNUFFED; re-masking draws a fresh mask for every slot and changes no key, and 2 ms without it is an event; TAMPER_N
counts once armed. -/
def Obligations.SecurityEventsSnuffTheDevice : Prop :=
  (∀ s : State, s.secRuns = true → ∀ row ∈ Claims.alarms, exec row.1 s = .next (s.secEvent row.2 none))
  ∧ (∀ s : State, s.sec.armEncl = true → s.secRuns = true → exec .enclAlarm s = .next (s.secEvent 0xD none))
  ∧ (∀ s : State, s.sec.armEncl = false → exec .enclAlarm s = .next s)
  ∧ (∀ s : State, s.secRuns = true →
      ∃ t, exec .rngfail s = .next t ∧ t.sec.rngDead = true ∧ t.sec.evCnt = s.sec.evCnt + 1 ∧ t.newKey 32 = none)
  ∧ (∀ s : State, s.secRuns = true → s.sec.remaskAt + 2000000 ≤ s.clk → exec .maskfail s = .next (s.secEvent 0x12 none))
  ∧ (∀ (s : State) (e : Nat), s.sec.snuffed = false → (s.sec.levelOf e = 2 ∨ s.sec.levelOf e = 3) →
      let t := s.secEvent e none
      t.sec.snuffed = true ∧ t.dev.st = .hold ∧ t.dev.cause = 0xD ∧ Claims.slots t = [] ∧ t.fab.held = [] ∧ t.sec.evCnt = s.sec.evCnt + 1
        ∧ t.sec.last = e ∧ t.sec.level = s.sec.levelOf e ∧ t.sec.spdm.sessions = [] ∧ t.eng.upds = [] ∧ t.mgmt.nvs.queue = []
        ∧ (s.sec.levelOf e = 3 → t.sec.tamper = true))
  ∧ (∀ s : State, s.secRuns = true → s.sec.remaskAt + 1000000 ≤ s.clk → (∀ k ∈ Claims.slots s, k.a.length = k.m.length) →
      ∃ t, exec .remask s = .next t ∧ t.sec.remaskAt = s.clk ∧ (Claims.slots t).map Masked.key = (Claims.slots s).map Masked.key
        ∧ ∀ k ∈ Claims.slots t, ∃ i ≥ s.free, k.m = drawAt i k.m.length)

/-- The window of a guarded register is open with value `v`, and neither an A1 nor the Snuffer closes the register (R400, R401, R583). -/
def Claims.window (s : State) (off : Nat) (v : Word) : Prop :=
  s.pf0Up = true ∧ s.sec.a1block = false ∧ s.sec.snuffed = false ∧ ∃ t, s.mgmt.regs.guard = some (off, v, t) ∧ s.clk ≤ t + 4096

/-- R392, R396, R404, R405, R567, R583: the complement of an open window's value applies the guarded write once and closes the window; any other value,
or 4,096 ns, breaks it and raises GUARD. A permitted life-cycle request programs the three copies; a refused one leaves the OTP; SVN_RAISE adds one. -/
def Obligations.GuardedWritesApplyOnce : Prop :=
  ∀ (s : State) (v : Word),
    let u := s.modRegs fun r => { r with guard := none }
    (∀ c blob bad weak, c ≠ ~~~v → ∀ row ∈ ([(0x500030, .pwrVovr c), (0x200040, .secSnufArm c), (0x200020, .domkeys c), (0x200020, .nvsuser c),
        (0x200020, .ownseeds c), (0x200020, .tamperclr c), (0x200020, .snuffNow c), (0x200010, .secLcReq c blob bad weak),
        (0x200030, .svnRaise c bad weak), (0x200030, .programWord c bad weak)] : List (Nat × Instr)),
      Claims.window s row.1 v → exec row.2 s = .next (s.guardBreak row.1))
    ∧ (∀ o t, s.mgmt.regs.guard = some (o, v, t) → t + 4096 < s.clk → exec .guardWindowExpire s = .next (s.guardBreak o))
    ∧ (Claims.window s 0x500030 v → s.sec.lc.factory = true →
      exec (.pwrVovr (~~~v)) s = .next { u with mgmt := { u.mgmt with pwr := { u.mgmt.pwr with vovr := v.toNat % 512 } } })
    ∧ (Claims.window s 0x200040 v → (s.sec.armEncl = true → v.getLsbD 0 = true) → (s.sec.armEsc = true → v.getLsbD 1 = true) →
      exec (.secSnufArm (~~~v)) s = .next (u.modSec fun x => { x with
        armEncl := x.armEncl || v.getLsbD 0, armEsc := x.armEsc || v.getLsbD 1 }))
    ∧ (Claims.window s 0x200020 v →
      (v = 1 → s.noDomains = true → ∃ t, exec (.domkeys (~~~v)) s = .next t ∧ t.keysEmpty = true ∧ t.mem = s.mem)
      ∧ (v = 2 → s.mgmt.nvs.checkAll .security .eraseUser = 0 → s.mgmt.nvs.queue.length < 16 → ∃ t, exec (.nvsuser (~~~v)) s = .next t
          ∧ t.mgmt.nvs.queue = s.mgmt.nvs.queue ++ [{ work := .eraseUser }] ∧ t.sec.erase = 2)
      ∧ (v = 4 → s.mgmt.nvs.checkAll .security .eraseSeeds = 0 → s.mgmt.nvs.queue.length < 16 → ∃ t, exec (.ownseeds (~~~v)) s = .next t
          ∧ t.mgmt.nvs.queue = s.mgmt.nvs.queue ++ [{ work := .eraseSeeds }] ∧ t.sec.erase = 4)
      ∧ (v = 8 → s.sec.lc = .rma → s.mgmt.nvs.checkAll .security (.tamper false) = 0 → s.mgmt.nvs.queue.length < 16 → ∃ t, exec (.tamperclr (~~~v)) s = .next t
          ∧ t.mgmt.nvs.queue = s.mgmt.nvs.queue ++ [{ work := .tamper false }])
      ∧ (v = 16 → exec (.snuffNow (~~~v)) s = .next ((u.modSec fun x => { x with erase := 16 }).secEvent 0 none)))
    ∧ (∀ blob bad weak e, Claims.window s 0x200010 v → s.lcStop (Lc.ofNum (v.toNat % 16)) blob = some e →
      ∃ t, exec (.secLcReq (~~~v) blob bad weak) s = .next t ∧ t.sec.lcStatus = e ∧ t.sec.otp = s.sec.otp ∧ t.sec.mark = s.sec.mark)
    ∧ (∀ blob tl, Claims.window s 0x200010 v → Lc.ofNum (v.toNat % 16) = some tl → s.lcStop (some tl) blob = none →
      ∃ t, exec (.secLcReq (~~~v) blob [] []) s = .next t ∧ t.sec.lcStatus = 0 ∧ t.sec.pend = true ∧ t.sec.mark = none
        ∧ (∀ b ∈ lcBases, t.sec.held (codeCells b tl) = true) ∧ t.sec.nonce = (List.range 4).map fun i => Config.freeValue (s.free + i))
    ∧ (Claims.window s 0x200030 v → v.toNat % 16 = 1 → s.sec.lc = .field → s.sec.svn < 256 → s.sec.svn + 1 ≤ s.mgmt.fw.bsvn →
      ∃ t, exec (.svnRaise (~~~v) [] []) s = .next t ∧ t.sec.otpStatus = 0 ∧ t.sec.svn = s.sec.svn + 1)
    ∧ (Claims.window s 0x200030 v → v.toNat % 16 = 2 → s.sec.otpAddr % 4 = 0 → otpMay s.sec.lc s.sec.otpAddr = true →
      ∃ t, exec (.programWord (~~~v) [] []) s = .next t ∧ t.sec.otpStatus = 0
        ∧ ∀ i < 32, s.sec.otpData.getLsbD i = true → otpBit t.sec.otp (8 * s.sec.otpAddr + i) = true)

/-! ### Registers -/

/-- A share of memory bandwidth or of cache lines is within what the device has (R246, R248): `bw` by tier, `cc` by cache. -/
def Claims.bwFits (s : State) (d : Nat) (v : Word) : Prop :=
  let t := s.setMemDom d { s.memDom d with bw := v }
  t.floorSum false ≤ 224 ∧ t.floorSum true ≤ 224
    ∧ (bitsOf v 8 8 = 0 ∨ bitsOf v 0 8 ≤ bitsOf v 8 8) ∧ (bitsOf v 24 8 = 0 ∨ bitsOf v 16 8 ≤ bitsOf v 24 8)

/-- R246, R248, R276, R282, R286, R295: a write of a memory or fabric register that the rules accept sets its field, and nothing else; one outside
the register's bounds only sets the register's refusal bit. -/
def Obligations.MemoryAndFabricRegistersTakeEffect : Prop :=
  ∀ (s : State) (v : Word), s.pf0Free →
    (∀ d : BitVec 8,
      (Claims.bwFits s d.toNat v → exec (.memDomBwWrite d v) s = .next (s.setMemDom d.toNat { s.memDom d.toNat with bw := v }))
      ∧ (¬ Claims.bwFits s d.toNat v →
          exec (.memDomBwWrite d v) s = .next { s with mem := { s.mem with refused := true, lastDom := d.toNat } }))
    ∧ (∀ d : BitVec 8,
      let t := s.setMemDom d.toNat { s.memDom d.toNat with cc := v &&& 0x03FF0FFF }
      let sum := fun (lo n : Nat) => sumBy (fun (p : Nat × MemDom) => bitsOf p.2.cc lo n) t.mem.doms
      (sum 0 12 ≤ 3072 ∧ sum 16 10 ≤ 768 → exec (.memDomCcWrite d v) s = .next t)
      ∧ (3072 < sum 0 12 ∨ 768 < sum 16 10 →
          exec (.memDomCcWrite d v) s = .next { s with mem := { s.mem with refused := true, lastDom := d.toNat } }))
    ∧ exec (.fabWselWrite v) s = .next { s with fab := { s.fab with wsel := v.toNat % 4 } }
    ∧ (∀ (i : BitVec 2) (w : WSet), v.toNat = w.token + w.reduce * 2 ^ 8 + w.bulk * 2 ^ 16 + w.ctrl * 2 ^ 24 →
        w.token < 256 → w.reduce < 256 → w.bulk < 256 → w.ctrl < 256 →
        (w.token + w.reduce + w.bulk + w.ctrl = 100 ∧ 1 ≤ w.token ∧ 1 ≤ w.reduce ∧ 1 ≤ w.bulk ∧ 1 ≤ w.ctrl →
          exec (.fabWsetWrite i v) s = .next { s with fab := { s.fab with wsets := FMap.set {} s.fab.wsets i.toNat w } })
        ∧ (w.token + w.reduce + w.bulk + w.ctrl ≠ 100 →
          exec (.fabWsetWrite i v) s = .next { s with fab := { s.fab with wrefused := true } }))
    ∧ (∀ d : BitVec 8, (s.dom d.toNat).binding = none →
        let n : EhtSeg := { (FMap.get {} s.fab.segs d.toNat) with base := v.toNat % 256, len := v.toNat / 256 % 512 }
        (n.base + n.len ≤ 256 → (∀ p ∈ s.fab.segs, p.1 ≠ d.toNat → p.2.base + p.2.len ≤ n.base ∨ n.base + n.len ≤ p.2.base) →
          exec (.fabEhtSegWrite d v) s = .next { s with fab := { s.fab with segs := FMap.set {} s.fab.segs d.toNat n } })
        ∧ (256 < n.base + n.len → exec (.fabEhtSegWrite d v) s = .next { s with fab := { s.fab with segrefused := true } }))
    ∧ (∀ m < 32, v.toNat % 64 < 31 ∨ v.toNat % 64 = 63 →
        ∃ t, exec (.fabRouteWrite (BitVec.ofNat 16 (0x4000 + 4 * m)) v) s = .next t
          ∧ FMap.find? t.fab.lroute m = some (v.toNat % 64) ∧ t.fab.gexit = s.fab.gexit ∧ t.fab.gnmin = s.fab.gnmin ∧ t.doms = s.doms)

/-- R458, R461, R475, R484, R492, R498, R501, R510, R511, R553, R559, R560, R564: the same of the Beacon's, the trigger slots', the arbiters', the power
core's, the Gutter's, the Soot ring's and the service port's registers. -/
def Obligations.BeaconAndPowerRegistersTakeEffect : Prop :=
  ∀ (s : State) (v : Word), s.pf0Free →
    (s.bcn.first = false → s.bcn.epoch.toNat % 1000000000 = 0 → v.toNat % 4 < 2 →
        exec (.bcnCtrlWrite v) s = .next { s with bcn := { s.bcn with mode := v.toNat % 4 } })
    ∧ (s.bcn.first = false → v.toNat % 4 = 3 → exec (.bcnCtrlWrite v) s = .next { s with bcn := { s.bcn with mrefused := true } })
    ∧ (s.bcn.first = false → v.toNat % 4 = 2 →
        ∃ t, exec (.bcnCtrlWrite v) s = .next t ∧ t.beacon = s.bcn.epoch.toNat ∧ t.bcn.st = .local_ ∧ t.bcn.first = true ∧ t.bcn.mode = 2)
    ∧ (let q := v.toNat % 2 ^ 17
      (250 ≤ q ∧ q ≤ 100000 ∧ q % 250 = 0 → exec (.tsQuantumWrite v) s = .next { s with bcn := { s.bcn with newQuantum := some q } })
      ∧ (q < 250 ∨ 100000 < q ∨ q % 250 ≠ 0 → exec (.tsQuantumWrite v) s = .next { s with bcn := { s.bcn with qrefused := true } }))
    ∧ (∀ d : BitVec 8,
        let a := FMap.set {} s.bcn.arb d.toNat
          { s.arb d.toNat with weight := v.toNat % 256, pceil := v.toNat / 256 % 8, tokFloor := v.toNat / 65536 % 256 }
        (sumBy (fun (p : Nat × ArbDom) => p.2.tokFloor) a ≤ 224 →
          exec (.arbDomWrite d v) s = .next { s with bcn := { s.bcn with arb := a } })
        ∧ (224 < sumBy (fun (p : Nat × ArbDom) => p.2.tokFloor) a →
          exec (.arbDomWrite d v) s = .next { s with bcn := { s.bcn with tfrefused := true } }))
    ∧ (∀ n : BitVec 8, 64 ≤ n.toNat → n.toNat < 128 → (s.trig n.toNat).en = false → v.toNat % 16 = 1 ∨ v.toNat % 16 = 2 →
        v.getLsbD 4 = false → v.getLsbD 7 = false →
        exec (.trigArm n v) s = .next (s.setTrig n.toNat { s.trig n.toNat with
          action := v.toNat % 16, mode := false, count := v.toNat / 2 ^ 18, en := true, fired := false, k := 0, due := none
          late := (s.trig n.toNat).late || decide ((s.trig n.toNat).time.toNat < s.beacon) }))
    ∧ (let w := v.toNat % 4096
      (1000 ≤ w ∧ w ≤ 2800 → exec (.pwrCapWrite v) s = .next (s.modPwr fun p => { p with cap := w }))
      ∧ (w < 1000 ∨ 2800 < w → exec (.pwrCapWrite v) s = .next (s.modPwr fun p => { p with capRefused := true })))
    ∧ (let f := fun i => v.toNat / 2 ^ (8 * i) % 256
      (f 1 < f 0 ∧ f 2 < f 3 → exec (.pwrCalCtrlWrite v) s = .next (s.modPwr fun p => { p with
        linkThr := f 0, linkUrg := f 1, hbmThr := f 2, hbmUrg := f 3 }))
      ∧ (f 0 ≤ f 1 ∨ f 3 ≤ f 2 → exec (.pwrCalCtrlWrite v) s = .next (s.modPwr fun p => { p with calRefused := true })))
    ∧ (∀ ms,
      let t := v.toNat / 2 ^ 8 % 256
      let f := v.toNat / 2 ^ 16 % 256
      (20 ≤ t ∧ t ≤ 100 ∧ 10 ≤ f ∧ f + 5 ≤ t → s.dev.st = .run → s.mgmt.fw.power = true → v.getLsbD 0 = true →
        exec (.replan v ms) s = .next ((s.modPwr fun p => { p with target := t, floor := f, planning := true }).planAll ms))
      ∧ (t < 20 ∨ 100 < t ∨ f < 10 ∨ t < f + 5 → s.mgmt.pwr.planning = false →
        exec (.replan v ms) s = .next (s.modPwr fun p => { p with ageRefused := true })))
    ∧ (v.getLsbD 17 = true → s.pwrRuns = true →
        ∃ t, exec (.gutterForce v) s = .next t ∧ t.mgmt.gut.warn = s.mgmt.gut.warn + 1 ∧ t.mgmt.gut.armed = false
          ∧ t.mgmt.gut.en = v.getLsbD 16 ∧ t.mgmt.gut.thresh = max 1 (v.toNat % 1024))
    ∧ (s.mgmt.soot.en = false → s.mgmt.soot.buf = [] → s.mgmt.soot.base.toNat % 4096 = 0 →
        exec (.sootEnable v) s = .next { s with mgmt := { s.mgmt with soot := { s.mgmt.soot with
          log2 := v.toNat % 32, en := decide (6 ≤ v.toNat % 32 ∧ v.toNat % 32 ≤ 20) } } })
    ∧ (s.mgmt.usb.disable = false → exec .usbDisable s = .next ((s.modUsb fun u => { u with disable := true }).usbDetach))

/-- A full 32-bit access to a management register that the interface lets through (R569, R570). -/
def Claims.full (s : State) (off : Nat) : Prop := s.pf0Up = true ∧ s.sec.snuffed = false ∧ off % 4 = 0 ∧ s.reservedAcc 0 off = false

/-- R569 to R571, R575 to R577, R586, R590, R591, R458: a full read returns the register and does what its reading does; the low word of a pair latches
the high one, which the next read of it returns; a full write is applied, a pair's when its high word is written; a narrow write, a reserved, misaligned
or closed register is only counted. A snapshot copies every counter of its block; the indirect pair reads the spaces behind it. -/
def Claims.accesses : Prop :=
  ∀ (s : State) (off : BitVec 25) (tee : Bool), Claims.full s off.toNat →
    let o := off.toNat
    (s.pairAt 0 o = none → ¬ (o % 8 = 4 ∧ (s.pairAt 0 (o - 4)).isSome = true) → o ≠ 0x48 →
      exec (.registerRead 0 off 4 false tee) s = .next ((s.pfClear o).answer (.data [s.pfWord o])))
    ∧ (∀ x, s.pairAt 0 o = some x → o ≠ 0x48 →
      exec (.registerRead 0 off 4 false tee) s = .next ((s.modRegs fun r => { r with
        rlatch := some (o, BitVec.ofNat 32 (x / 2 ^ 32)) }).answer (.data [BitVec.ofNat 32 x])))
    ∧ (∀ w, s.pairAt 0 o = none → o % 8 = 4 → (s.pairAt 0 (o - 4)).isSome = true → s.mgmt.regs.rlatch = some (o - 4, w) →
      exec (.registerRead 0 off 4 false tee) s = .next ((s.modRegs fun r => { r with rlatch := none }).answer (.data [w])))
    ∧ (∀ g, exec (.registerRead 0 (off + 2) 4 g tee) s = .next ((s.accErr 0 (off + 2).toNat 2 false).answer .ca))
    ∧ (∀ a : AccIn, a.fn = 0 → a.off = off → a.gap = false → s.mgmt.regs.guard = none → s.sec.a1block = false → guardedAt o 4 = none →
      (∀ v : Word, a.data = leBytes 4 v.toNat →
        (pfPairRW o = false → (s.pfPair (o / 8 * 8)).isSome = false → ¬ (o % 8 = 4 ∧ pfPairRW (o - 4) = true) →
          exec (.registerWrite a) s = .next ((s.pfWord32 o v a).answer .done))
        ∧ (o % 8 = 0 → pfPairRW o = true →
          exec (.registerWrite a) s = .next ((s.modRegs fun r => { r with wlatch := some (o, v) }).answer .done))
        ∧ (∀ w, o % 8 = 4 → pfPairRW (o - 4) = true → s.mgmt.regs.wlatch = some (o - 4, w) →
          exec (.registerWrite a) s =
            .next (((s.modRegs fun r => { r with wlatch := none }).pfPairWrite (o - 4) (v ++ w)).answer .done)))
      ∧ (∀ b : Byte, a.data = [b] → inRegions (byteRegion true) o 1 = false → guardedAt o 1 = none →
          exec (.registerWrite a) s = .next ((s.accErr 0 o 1 true).answer .done)))

/-- R569, R570, R401: an access that the interface does not let through changes no register but the access-error record. -/
def Claims.closedAccess : Prop :=
  ∀ (s : State) (off : BitVec 25) (tee : Bool), s.pf0Up = true → off.toNat % 4 = 0 →
    (s.reservedAcc 0 off.toNat = true →
      exec (.registerRead 0 off 4 false tee) s = .next ((s.accErr 0 off.toNat 4 false).answer (.data [0])))
    ∧ (s.reservedAcc 0 off.toNat = false → s.sec.snuffed = true → blockOf off.toNat ≠ 0 → blockOf off.toNat ≠ 2 →
      exec (.registerRead 0 off 4 false tee) s = .next ((s.accErr 0 off.toNat 5 false).answer (.data [0])))

/-- R458, R569, R586, R587, R590: `closedAccess`; SNAP and SNAP_ALL; IND_DATA over the OTP, the SERDES and no space; the Soot interrupt. -/
def Claims.snapshots : Prop :=
  Claims.closedAccess
  ∧ (∀ (s : State) (b : BitVec 4), s.pf0Free → blkList.contains b.toNat = true → FMap.wf 0 s.mgmt.regs.holds = true →
      FMap.wf 0 s.mgmt.regs.snapAt = true →
      ∃ r, exec (.snapBlock b) s = .next (s.modRegs fun _ => r) ∧ FMap.get 0 r.snapAt b.toNat = s.beacon % 2 ^ 64
        ∧ (∀ o ∈ counterOffs b.toNat, ∀ x, s.blkPair b.toNat o = some (x, true) →
            FMap.get 0 r.holds (blkBase b.toNat + o) = x % 2 ^ 64)
        ∧ r = { s.mgmt.regs with holds := r.holds, snapAt := r.snapAt })
  ∧ (∀ s : State, s.pf0Free → FMap.wf 0 s.mgmt.regs.holds = true → FMap.wf 0 s.mgmt.regs.snapAt = true →
      ∃ r, exec .snapAll s = .next (s.modRegs fun _ => r) ∧ (∀ b ∈ blkList, FMap.get 0 r.snapAt b = s.beacon % 2 ^ 64)
        ∧ (∀ b ∈ blkList, ∀ o ∈ counterOffs b, ∀ x, s.blkPair b o = some (x, true) → FMap.get 0 r.holds (blkBase b + o) = x % 2 ^ 64))
  ∧ (∀ (s : State) (o : Nat), s.pf0Free → s.mgmt.regs.indAddr = BitVec.ofNat 32 (4 * 2 ^ 28 + o) → o < 8192 → s.mgmt.regs.tight = false →
      ∃ t, exec .indDataRead s = .next t ∧ t.mgmt.regs.rsp = some (.data [BitVec.ofNat 32 (leNat (Memory.rdN s.sec.otp o 4))])
        ∧ t.mgmt.regs.indAddr = (if s.mgmt.regs.ainc then BitVec.ofNat 32 (4 * 2 ^ 28 + (o + 4)) else s.mgmt.regs.indAddr)
        ∧ t.sec = s.sec)
  ∧ (∀ (s : State) (v : Word) (n l : Nat), s.pf0Free → n < 36 → l < 8 → s.mgmt.regs.indAddr = BitVec.ofNat 32 (2 ^ 28 + n * 2 ^ 16 + l * 2 ^ 12 + 8) →
      (s.sec.lc.factory = true → s.mgmt.regs.ainc = false →
        exec (.indDataWrite v) s = .next (s.modRegs fun r => { r with
          phy := FMap.insert r.phy (2 ^ 28 + n * 2 ^ 16 + l * 2 ^ 12 + 8) (v &&& 0x7FFFFFFF) }))
      ∧ (s.sec.lc.factory = false → s.mgmt.regs.ainc = false → exec (.indDataWrite v) s = .next (s.indRefuse true)))
  ∧ (∀ s : State, s.mgmt.soot.fresh = true → s.mgmt.soot.irqAt + 100000 ≤ s.beacon →
      exec .sootInterrupt s = .next ((s.modSoot fun r => { r with fresh := false, irqAt := s.beacon }).raiseIrq 0 1))

/-- R401, R458, R569 to R571, R575 to R577, R586, R587, R590, R591: accesses to BAR0, snapshots, the indirect pair. -/
def Obligations.RegisterAccessesAndSnapshots : Prop := Claims.accesses ∧ Claims.snapshots

/-! ### Trigger slots and Beacon time -/

/-- The state after slot `n` has fired: as R486 leaves it, and free again when it is a domain's and is done (R487). -/
def Claims.fired (s : State) (n : Nat) : State :=
  let x := (s.trig n).after s.beacon
  s.setTrig n (if 128 ≤ n ∧ x.en = false then {} else x)

/-- R39, R483, R485 to R487: a due slot performs its action once; a one-shot slot is then disarmed, a periodic one is armed for its next multiple of
the period and counts the missed ones; a slot that is not due does nothing, but a quiet window that waits for an idle microsecond opens at the first; a
link's quiet window is timed when it closes and what it held back is sent, a memory channel's counts the reads it delayed. -/
def Obligations.TriggersFireWhenDue : Prop :=
  (∀ (s : State) (n : BitVec 8),
    let t := s.trig n.toNat
    let u := Claims.fired s n.toNat
    (s.trigDue t = true →
      (t.action = 1 → exec (.wsetTrigger n) s = .next { u with fab := { s.fab with wsel := t.arg.toNat % 4 } })
      ∧ (t.action = 2 → exec (.snapTrigger n) s = .next (u.snapMask (t.arg.toNat % 2 ^ 13)))
      ∧ (∀ idle, t.action = 4 → t.mode = false →
        exec (.quietOpen { slot := n, idle := idle }) s = .next (u.openQuiet (t.arg.toNat % 256) (t.arg.toNat / 256 % 256)))
      ∧ (t.action = 5 → exec (.triggerCut n) s = .next (u.cutRequest t.dom 3))
      ∧ (t.action = 6 → exec (.triggerFence n) s =
          .next (u.fenceWord t.dom t.word (sigWord (t.arg + BitVec.ofNat 64 t.k * BitVec.ofNat 64 t.inc)))))
    ∧ (s.trigDue t = false → ∀ c ∈ ([.wsetTrigger n, .snapTrigger n, .quietOpen { slot := n }, .triggerCut n, .triggerFence n] : List Instr),
        exec c s = .next s)
    ∧ (t.en = true → t.action = 4 → t.idle = true → t.mode = false → s.beacon < t.time.toNat →
      exec (.quietOpen { slot := n, idle := true }) s = .next ((Claims.fired (s.setTrig n.toNat { t with time := BitVec.ofNat 64 s.beacon }) n.toNat).openQuiet
        (t.arg.toNat % 256) (t.arg.toNat / 256 % 256))))
  ∧ (∀ (t : Trig) (now : Nat), t.mode = false → t.time.toNat ≤ now → now + t.period.toNat < 2 ^ 64 →
      let x := t.after now
      x.fired = true ∧ (t.count = 1 ∨ t.period = 0 → x.en = false)
      ∧ (t.count ≠ 1 → 0 < t.period.toNat → x.en = t.en ∧ now < x.time.toNat ∧ x.time.toNat ≤ now + t.period.toNat
          ∧ (x.time.toNat - t.time.toNat) % t.period.toNat = 0
          ∧ x.missed = satAdd 32 t.missed ((x.time.toNat - t.time.toNat) / t.period.toNat - 1)))
  ∧ (∀ (s : State) (u : BitVec 8) ch dl t, u.toNat < 36 → (s.fab.link u.toNat).quietAt = some t →
      let l : Link := s.fab.link u.toNat
      exec (.quietWindowClose u ch dl) s =
        .next ({ s with fab := s.fab.setLink u.toNat { l with quietAt := none, quiet := l.quiet + (s.beacon - t) } } : State).pumped)
  ∧ (∀ (s : State) (u ch : BitVec 8) (dl : BitVec 32) t, 0x40 ≤ u.toNat →
      let k := (u.toNat - 0x40) * 256 + ch.toNat
      FMap.get none s.mgmt.pwr.quiet k = some t →
      exec (.quietWindowClose u ch dl) s = .next ((s.modPwr fun x => { x with
        quiet := FMap.set none x.quiet k none, drift := FMap.set 0 x.drift k 0, cals := FMap.modify 0 x.cals k (· + 1) }).modCtl
          (u.toNat - 0x40) fun x => { x with qwd := x.qwd + dl.toNat }))

/-- R473, R476 to R481: an exchange corrects the Beacon by half the difference of the paths, at once in FREE and slowly later; 16 good ones lock it; a
MASTER starts its epoch at the first SYNC_IN edge and absorbs later errors up to 100 ns; losing the references is HOLDOVER. -/
def Obligations.BeaconExchangesKeepTime : Prop :=
  ∀ s : State,
    (∀ n p, s.dev.st = .run → p.badCtrl = false →
      exec (.syncReq n p) s = .next ((s.freeIn p).sendBcn n.toNat 0x0401 (p.pspec.extractLsb' 32 32) s.stamp s.stamp))
    ∧ (∀ (n : BitVec 6) (p : Pkt) q t1, s.dev.st = .run → p.badCtrl = false → s.bcn.asked = some (q, t1) → q = p.pspec.extractLsb' 32 32 →
        s.bcn.uplink = some n.toNat → s.bcn.mode = 0 →
        let off := ((p.pspec.extractLsb' 64 64 - t1).toInt - (s.stamp - p.pspec.extractLsb' 128 64).toInt) / 2
        let dly := ((s.stamp - t1).toInt - (p.pspec.extractLsb' 128 64 - p.pspec.extractLsb' 64 64).toInt) / 2
        ∃ t, exec (.syncRsp n p) s = .next t ∧ t.bcn.asked = none ∧ t.bcn.off = BitVec.ofInt 32 off ∧ t.bcn.dly = BitVec.ofInt 32 dly
          ∧ t.bcn.good = (if s.bcn.st = .free then 0 else if off.natAbs < 32 then s.bcn.good + 1 else 0)
          ∧ (s.bcn.st = .free → t.beacon = ((s.beacon : Int) + off / 16).toNat ∧ t.bcn.st = .acquire)
          ∧ (s.bcn.st = .acquire → t.beacon = s.beacon ∧ t.bcn.absorb = off
              ∧ t.bcn.st = (if off.natAbs < 32 ∧ 15 ≤ s.bcn.good then .locked else .acquire))
          ∧ (s.bcn.st = .locked → t.beacon = s.beacon ∧ t.bcn.absorb = off ∧ t.bcn.st = .locked))
    ∧ (∀ (n : BitVec 6) (p : Pkt), s.dev.st = .run → p.badCtrl = false → s.bcn.mode ≠ 0 →
        let x : Neigh := { chip := p.src.toNat, stratum := p.pspec.toNat / 2 ^ 16 % 16, state := p.pspec.toNat / 2 ^ 24 % 8
                           lower := (FMap.find? s.bcn.neigh n.toNat).bind (·.lower) }
        exec (.announce n p) s = .next { s.freeIn p with bcn := { s.bcn with neigh := FMap.insert s.bcn.neigh n.toNat x } })
    ∧ (∀ u, s.dev.st = .run → s.bcn.mode = 0 → s.bcn.uplink = some u →
        ∃ t, exec .beaconExchange s = .next t ∧ t.bcn = { s.bcn with asked := some (s.bcn.seq, s.stamp), seq := s.bcn.seq + 1 }
          ∧ t.beacon = s.beacon)
    ∧ (∀ (n : Nat) (x : Neigh) t0, s.bcn.mode = 0 → s.bcn.neigh = [(n, x)] → s.qualifies n = true → x.lower = some t0 →
        t0 + 100000000 ≤ s.beacon →
        ∃ t, exec .upstreamSwitch s = .next t ∧ t.bcn.uplink = some n ∧ t.bcn.asked = none ∧ t.beacon = s.beacon)
    ∧ (s.dev.st = .hold ∨ s.dev.st = .run →
        (s.bcn.mode = 1 → s.bcn.first = false →
          ∃ t, exec .syncInEdge s = .next t ∧ t.beacon = s.bcn.epoch.toNat ∧ t.bcn.st = .locked ∧ t.bcn.first = true)
        ∧ (s.bcn.mode = 1 → s.bcn.first = true → s.bcn.st = .locked → ∀ e : Int, e.natAbs ≤ 100 →
            (s.beacon : Int) % 1000000000 = (-e) % 1000000000 →
            exec .syncInEdge s = .next { s with bcn := { s.bcn with syncAt := some s.beacon, absorb := 16 * e } })
        ∧ (s.bcn.first = true → 100 < s.beacon % 1000000000 → s.beacon % 1000000000 < 999999900 →
            exec .syncInEdge s = .next { s with bcn := { s.bcn with syncMiss := satAdd 64 s.bcn.syncMiss 1 } }))
    ∧ (∀ t0, s.bcn.syncAt = some t0 → t0 + 2000000000 ≤ s.beacon → s.bcn.mode = 1 → s.bcn.st = .locked → s.bcn.ref = false →
        ∃ t, exec .syncInLoss s = .next t ∧ t.bcn.st = .holdover ∧ t.bcn.syncAt = none ∧ t.beacon = s.beacon)
    ∧ (∀ b, s.bcn.mode ≠ 1 → exec (.ref100mChange b) s = .next { s with bcn := { s.bcn with ref := b } })
    ∧ (s.bcn.mode = 1 → s.bcn.st = .locked → s.bcn.syncAt = none →
        ∃ t, exec (.ref100mChange false) s = .next t ∧ t.bcn.st = .holdover ∧ t.bcn.ref = false)
    ∧ (s.bcn.mode = 1 → s.bcn.st = .holdover → ∃ t, exec (.ref100mChange true) s = .next t ∧ t.bcn.st = .acquire ∧ t.bcn.ref = true)
    ∧ exec .beaconCopyCorrection s = .next { s with bcn := { s.bcn with copies := [0, 0, 0, 0, 0] } }

/-! ### Power, ageing, calibration, the Gutter score -/

/-- R111, R553 to R557, R567: a window is measured, one above the cap takes a step off the frequency ceiling, one below it changes no limit; without the
power core it is only measured; the brake holds every Lantern at 1,200 MHz at most; a throttled group is listed and alerted; 200 W less for each degree of the regulators;
a thermal trip removes the rails' load in HOLD with cause THERMAL and drives THERMTRIP_N. -/
def Obligations.PowerIsLimited : Prop :=
  ∀ s : State,
    (∀ w n, s.powered = true → s.pwrRuns = false → exec (.powerRegulate w n) s = .next (s.modPwr fun p => { p with
      pin := w.toNat, peak := max p.peak w.toNat, energy := p.energy + w.toNat }))
    ∧ (∀ w n, s.pwrRuns = true → ∃ t, exec (.powerRegulate w n) s = .next t ∧ t.mgmt.pwr.pin = w.toNat ∧ t.mgmt.pwr.peak = max s.mgmt.pwr.peak w.toNat
        ∧ t.mgmt.pwr.energy = s.mgmt.pwr.energy + w.toNat ∧ t.mgmt.pwr.cap = s.mgmt.pwr.cap
        ∧ (w.toNat ≤ s.mgmt.pwr.capNow → s.mgmt.pwr.capped = false →
            t.mgmt.pwr.clkCap = s.mgmt.pwr.clkCap ∧ t.mgmt.pwr.duty = s.mgmt.pwr.duty ∧ t.mgmt.pwr.rate = s.mgmt.pwr.rate))
    ∧ (∀ w : BitVec 16, s.pwrRuns = true → s.mgmt.pwr.capNow < w.toNat → 1200 < min s.mgmt.pwr.clkCap s.topMhz →
        ∃ t, exec (.powerRegulate w 1) s = .next t ∧ t.mgmt.pwr.clkCap = max 1200 (min s.mgmt.pwr.clkCap s.topMhz - 25)
          ∧ t.mgmt.pwr.duty = s.mgmt.pwr.duty ∧ t.mgmt.pwr.rate = s.mgmt.pwr.rate ∧ t.mgmt.pwr.pin = w.toNat
          ∧ (t.mgmt.pwr.clkCap < 2100 → t.mgmt.pwr.capped = true) ∧ t.doms = s.doms)
    ∧ (s.powered = true → FMap.wf {} s.lanterns = true →
        (∃ t, exec .powerBrake s = .next t ∧ t.mgmt.pwr.brake = true ∧ (∀ l < 64, (t.lantern l).mhz ≤ 1200)
          ∧ t.mgmt.pwr.brakes = s.mgmt.pwr.brakes + (if s.mgmt.pwr.brake then 0 else 1))
        ∧ (∃ t, exec .brakeRelease s = .next t ∧ t.mgmt.pwr.brake = s.mgmt.pins.pwrbrk)
        ∧ ∀ low : Bool, ∃ t, exec (.pwrbrkN low) s = .next t ∧ t.mgmt.pins.pwrbrk = low ∧ t.mgmt.pwr.brake = (s.mgmt.pwr.brakeI || low))
    ∧ (∀ low, s.powered = false → exec (.pwrbrkN low) s = .next (s.modPins fun p => { p with pwrbrk := low }))
    ∧ (∀ (g : BitVec 5) (a : BitVec 8), s.powered = true → g.toNat < 20 →
        (∃ t, exec (.throttle g true a) s = .next t ∧ g.toNat ∈ t.mgmt.pwr.throttled ∧ t.mgmt.smb.status.getLsbD 0 = true
          ∧ (g = 19 → t.mgmt.pwr.capNow = min s.mgmt.pwr.cap s.mgmt.pwr.board - 200 * a.toNat))
        ∧ (∃ t, exec (.throttle g false a) s = .next t ∧ g.toNat ∉ t.mgmt.pwr.throttled
          ∧ (g = 19 → t.mgmt.pwr.capNow = min s.mgmt.pwr.cap s.mgmt.pwr.board)))
    ∧ (s.powered = true → ∃ t, exec .thermalTrip s = .next t ∧ t.dev.st = .hold ∧ t.dev.cause = 0xC ∧ t.mgmt.pins.thermtrip = true
          ∧ t.dev.vfEnable = false ∧ t.eng.upds = [] ∧ t.mgmt.fw.power = false)

/-- R490, R509 to R511, R558 to R560, R563 to R565: a plan moves a Lantern one step toward its target margin and is recorded; a sample below FLOOR lowers
its frequency; a channel or link beyond its threshold asks for a quiet window, which a firmware
slot opens at once when it is urgent and within 10 ms when not; a link low four windows running trains anew; training records are renewed
hourly; the score is the sum of the components' points, at most 1,000, and reaching the threshold while armed warns once. -/
def Obligations.PlansCalibrationsAndScores : Prop :=
  ∀ s : State, s.pwrRuns = true →
    (∀ (ms : List (List Byte)) (l : Nat) (m : Byte), s.mgmt.pwr.planned = false → l < 64 → (s.lantern l).inService = true →
        FMap.wf {} s.mgmt.pwr.plans = true → ms.getD l [] = [m] →
        ∃ t, exec (.ageingPlan ms) s = .next t ∧ t.mgmt.pwr.planned = true
          ∧ t.mgmt.pwr.planAt = s.mgmt.pwr.planAt + (s.beacon - s.mgmt.pwr.planAt) / 86400000000000 * 86400000000000 ∧ t.mgmt.pwr.ageTime = s.beacon
          ∧ (t.plan l).margin = m.toNat
          ∧ (m.toNat < s.mgmt.pwr.target → (s.plan l).dv < 10 → (t.plan l).dv = (s.plan l).dv + 1 ∧ (t.plan l).mhz = (s.plan l).mhz)
          ∧ (s.mgmt.pwr.target ≤ m.toNat → m.toNat < s.mgmt.pwr.target + 20 →
              (t.plan l).dv = (s.plan l).dv ∧ (t.plan l).mhz = (s.plan l).mhz))
    ∧ (∀ (ms : List (List Byte)) (l : Nat), l < 64 → (s.lantern l).inService = true → ms.getD l [] ≠ [] →
        (∀ i < 64, i ≠ l → ms.getD i [] = []) →
        let g := (s.lantern l).margin (ms.getD l [])
        let q : Plan := { s.plan l with margin := g, min := if (s.plan l).seen then min (s.plan l).min g else g, seen := true }
        (s.mgmt.pwr.floor ≤ g → exec (.marginSample ms) s = .next (s.setPlan l q).applyClocks)
        ∧ (g < s.mgmt.pwr.floor → 1200 < (s.plan l).mhz →
            exec (.marginSample ms) s = .next (s.setPlan l { q with mhz := q.mhz - 25 }).applyClocks))
    ∧ (∀ (n : BitVec 6) (e : BitVec 8), n.toNat < 36 →
        let p := s.mgmt.pwr
        let i := n.toNat
        (p.linkThr ≤ e.toNat → e.toNat < p.linkUrg ∨ FMap.get 0 p.lowWins i = 0 → FMap.wf 0 p.lowWins = true →
          exec (.linkMarginLow n e) s = .next (s.modPwr fun p => { p with eyes := FMap.set 0 p.eyes i e.toNat }))
        ∧ (e.toNat < p.linkThr → p.linkUrg ≤ e.toNat → FMap.find? p.wanted (i * 256) = none → (s.link i).quietAt = none →
          exec (.linkMarginLow n e) s = .next ((s.modPwr fun p => { p with
            eyes := FMap.set 0 p.eyes i e.toNat, lowWins := FMap.set 0 p.lowWins i 0 }).wantQuiet i 0 false))
        ∧ (e.toNat < p.linkThr → e.toNat < p.linkUrg → FMap.find? p.wanted (i * 256) = none → (s.link i).quietAt = none →
          (4 ≤ FMap.get 0 p.lowWins i → exec (.linkMarginLow n e) s = .next ((s.modPwr fun p => { p with
            eyes := FMap.set 0 p.eyes i e.toNat, lowWins := FMap.set 0 p.lowWins i 0 }).fullRetrain i))
          ∧ (FMap.get 0 p.lowWins i < 4 → exec (.linkMarginLow n e) s = .next ((s.modPwr fun p => { p with
            eyes := FMap.set 0 p.eyes i e.toNat, lowWins := FMap.modify 0 p.lowWins i (· + 1) }).wantQuiet i 0 true))))
    ∧ (∀ unit ch urgent, s.beacon + 10000000 < 2 ^ 64 → unit < 256 → ch < 256 →
        let q := s.quietTrig unit ch urgent
        q.en = true ∧ q.action = 4 ∧ q.mode = false ∧ q.count = 1 ∧ q.arg.toNat = unit + ch * 256 ∧ s.beacon ≤ q.time.toNat
        ∧ q.time.toNat ≤ s.beacon + 10000000 ∧ (urgent = true → q.time.toNat = s.beacon)
        ∧ ((∀ p ∈ s.bcn.trigs, ¬ (p.1 < 64 ∧ p.2.en = true ∧ p.2.action = 4 ∧ p.2.arg = q.arg)) → (s.trig 0).en = false →
            (s.wantQuiet unit ch urgent).trig 0 = q))
    ∧ (∀ (c : BitVec 4) (ch : BitVec 5) (d : BitVec 8), c.toNat < 12 →
        let u := s.modPwr fun p => { p with drift := FMap.set 0 p.drift (c.toNat * 256 + ch.toNat) d.toNat }
        (d.toInt.natAbs ≤ s.mgmt.pwr.hbmThr → exec (.hbmDrift c ch d) s = .next u)
        ∧ (s.mgmt.pwr.hbmThr < d.toInt.natAbs →
            exec (.hbmDrift c ch d) s = .next (u.wantQuiet (0x40 + c.toNat) ch.toNat (decide (s.mgmt.pwr.hbmUrg < d.toInt.natAbs)))))
    ∧ (∀ (c : BitVec 4) (ch : BitVec 2), exec (.lpddrPeriodicCal c ch) s = .next (s.wantQuiet (0x4C + c.toNat) ch.toNat false))
    ∧ (s.mgmt.pwr.trainAt + 3600000000000 ≤ s.beacon →
        ∃ t, exec .trainingRecordRefresh s = .next t ∧ t.mgmt.pwr.trainAt = s.beacon ∧ t.mgmt.pwr.trained.map Prod.fst = List.range 28
          ∧ t.free = s.free + 28)
    ∧ (let u := s.gutSample
      let pts := (List.range 6).map fun c => gutPoints (u.gutInputs.getD c 0) (s.mgmt.gut.w.getD c 0) (s.mgmt.gut.l.getD c 0)
      let score := min 1000 (sumBy id pts)
      ∃ t, exec .gutterScore s = .next t ∧ t.mgmt.gut.score = score
        ∧ (score < s.mgmt.gut.thresh ∨ s.mgmt.gut.en = false → t.mgmt.gut.warn = s.mgmt.gut.warn)
        ∧ (s.mgmt.gut.thresh ≤ score → s.mgmt.gut.en = true → s.mgmt.gut.armed = true →
            t.mgmt.gut.warn = s.mgmt.gut.warn + 1 ∧ t.mgmt.gut.armed = false ∧ t.mgmt.gut.warned = true))

/-! ### Supplies, starts, firmware -/

/-- Nothing stands in the way of a start with the outside's part `i`: the OTP reads alike at both margins with good CRCs, its three copies agree on a
state that may start, the SRAM PUF's record opens with the bits read, the recovery monitor and a Board Configuration Record are good, and no NVS work is
cut off (R386, R387, R394, R378, R453, R547). -/
structure Claims.Boots (s : State) (lc : Lc) (i : StartIn) : Prop where
  margin : s.sec.otpTight = s.sec.otp
  crc : otpCrcOk s.sec.otp 0 0x1C = true ∧ otpCrcOk s.sec.otp 0x40 4 = true
  life : lcBases.map s.sec.decodeCopy = [lc, lc, lc]
  may : lc = .prov ∨ lc = .field ∨ lc = .rma
  puf : ∃ k r p, s.mgmt.nvs.helper 0 = some (k, r) ∧ r.open_ (i.sram.getD 0 0) = some p
  mark : s.sec.mark = none ∧ s.sec.tamper = false
  boot : s.mgmt.nvs.monitor = true ∧ s.mgmt.nvs.queue = []
  board : s.pickBcr.2 = 0
  ctr : (FMap.get [.erased, .erased, .erased] s.mgmt.nvs.ctrs 1).length = 3

/-- R394, R463, R535, R537, R539, R543 to R545, R550, R551, R566, R600, R601, R608: the standby supply leaves OFF; main power starts the device cold, into
HOLD with cause NOBUNDLE, its roots and package and memory keys derived and S erased; a failed step is HOLD with its cause and a retry in 10 ms; a fourth cold attempt is
HOLD with cause STARTS; losing a supply loses what it feeds, every key slot with it; PERST_N resets the functions and its release starts the device warm. -/
def Obligations.SuppliesAndStartEvents : Prop :=
  ∀ s : State,
    (∀ p : BitVec 4, s.dev.st = .off → ∃ t, exec (.standbyGood p) s = .next t ∧ t.dev.st = .standby ∧ t.mgmt.pins.straps = p.toNat
        ∧ t.mgmt.pins.standby = true ∧ t.mgmt.smb = {} ∧ t.sec = s.sec)
    ∧ (∃ t, exec .standbyLoss s = .next t ∧ t.dev.st = .off ∧ t.mgmt.pins.standby = false ∧ t.doms = []
        ∧ t.mem = { up := false } ∧ t.sec.otp = s.sec.otp ∧ Claims.slots t = [] ∧ t.mgmt.usb = {})
    ∧ (∀ io, s.dev.st ≠ .standby → exec (.mainPowerGood io) s = .next (s.modPins fun p => { p with main := true }))
    ∧ (∀ lc i, s.dev.st = .standby → Claims.Boots s lc i → s.mgmt.nvs.val 1 < 3 →
        (i.fail = 0 → ∃ t, exec (.mainPowerGood i) s = .next t ∧ t.dev.st = .hold ∧ t.dev.cause = 1 ∧ t.sec.lc = lc ∧ t.doms = [] ∧ t.mem.data = []
          ∧ t.beacon = 0 ∧ t.pending = s.pending ∧ t.mgmt.start.kind = 1 ∧ t.mgmt.nvs.val 1 = s.mgmt.nvs.val 1 + 1
          ∧ t.sec.seed = none ∧ t.sec.root.isSome = true ∧ t.sec.idSeed.isSome = true ∧ t.sec.nvsKey.isSome = true ∧ t.sec.d2d.length = 18
          ∧ (∀ c < 28, (t.ctl c).devKey.isSome = true) ∧ t.mem.up = true ∧ t.mgmt.pins.holdLow = true)
        ∧ (i.fail = 8 → ∃ t, exec (.mainPowerGood i) s = .next t ∧ t.dev.st = .hold ∧ t.dev.cause = 8 ∧ t.dev.lastFail = 8
          ∧ t.mgmt.start.retry = some (s.clk + 10000000)))
    ∧ (∀ io, s.dev.st = .standby → s.doms = [] → 3 ≤ s.mgmt.nvs.val 1 →
        ∃ t, exec (.mainPowerGood io) s = .next t ∧ t.dev.st = .hold ∧ t.dev.cause = 9 ∧ t.mgmt.nvs = s.mgmt.nvs)
    ∧ (s.powered = true →
        (∃ t, exec .mainPowerLoss s = .next t ∧ t.dev.st = .standby ∧ t.mgmt.pins.main = false ∧ t.mgmt.pins.mainFell = true ∧ t.doms = []
          ∧ t.mem = { up := false } ∧ t.sec.otp = s.sec.otp ∧ Claims.slots t = [] ∧ t.mgmt.usb.session = s.mgmt.usb.session ∧ t.mgmt.usb.running = none)
        ∧ (∃ t e, exec .overvoltage s = .next t ∧ t.dev.st = .standby ∧ t.doms = [] ∧ t.mgmt.soot.buf.getLast? = some e ∧ e.point = 2
          ∧ e.args = [0xB]))
    ∧ (s.dev.st = .hold ∨ s.dev.st = .run →
        ∃ t, exec .perstNAssert s = .next t ∧ t.dev.st = s.dev.st ∧ t.dev.vfEnable = false ∧ t.dev.numVfs = 0 ∧ t.sec.streams = []
          ∧ t.mgmt.pins.perst = true ∧ t.mgmt.pins.perstRun = true ∧ t.mgmt.regs.guard = none)
    ∧ (∀ io,
        let u := s.modPins fun p => { p with perst := false, perstRun := false }
        (s.mgmt.pins.perst = true → s.mgmt.pins.perstRun = true → s.powered = true →
          exec (.perstNDeassert io) s = .next (u.startEvent false false io))
        ∧ (s.mgmt.pins.perstRun = false → exec (.perstNDeassert io) s = .next u))
    ∧ (∀ (v : Word) io, s.pf0Free →
        (v.toNat / 65536 = 0x5354 → (s.dev.st ≠ .hold ∨ s.dev.cause ≠ 0xC) →
          exec (.globalStartReq v io) s = .next (s.startEvent (v.getLsbD 0) (v.getLsbD 1) io))
        ∧ (v.toNat / 65536 ≠ 0x5354 → exec (.globalStartReq v io) s = .next (s.accErr 0 0x114 8 true)))
    ∧ (∀ io n, s.mgmt.start.retry = some n → s.dev.st = .hold →
        (n ≤ s.clk → exec (.startRetry io) s = .next (s.startEvent (s.mgmt.start.kind == 1) false io))
        ∧ (s.clk < n → exec (.startRetry io) s = .next s))

/-- R434, R437, R438, R505, R508, R541, R543, R545: a bundle is accepted only when it passes every check, and then the power core is released; each
group of cores is released when the one before it reports; with the last report the device is in RUN and the attempts' counters are cleared; a report that
does not come, a watchdog and a fatal error stop the cores in HOLD; a Lantern's watchdog stops that Lantern. -/
def Obligations.FirmwareLoadsRunsAndStops : Prop :=
  ∀ s : State,
    (∀ (b : List Byte) n types, (s.bundleStop b n types).1 = 0 → formatOk b n types = true ∧ s.keyOk b = true ∧ sigsOk b = true
        ∧ s.sec.svn ≤ fieldAt b 8 2 ∧ s.sec.snuffed = false ∧ s.mgmt.fw.loaded = false
        ∧ ∀ k < compCount b, s.sec.svn ≤ entryAt b k 2 2 ∧ fieldAt b 8 2 ≤ entryAt b k 2 2 ∧ sha384 (imageOf b k) = digestOf b k)
    ∧ (∀ b : List Byte, s.pf0Free →
        (s.waitsBundle = true → (s.bundleStop b s.mgmt.fw.len bundleTypes).1 = 0 →
          ∃ t, exec (.bundleLoad (some b)) s = .next t ∧ t.mgmt.fw.await = 1 ∧ t.mgmt.fw.power = true ∧ t.mgmt.fw.since = s.clk
            ∧ t.mgmt.fw.newBsvn = fieldAt b 8 2 ∧ t.dev = s.dev ∧ t.mgmt.fw.comps.length = compCount b)
        ∧ (∀ e c, s.waitsBundle = true → s.bundleStop b s.mgmt.fw.len bundleTypes = (e, c) → e ≠ 0 → e ≠ 8 →
          ∃ t, exec (.bundleLoad (some b)) s = .next t ∧ t.mgmt.fw = { s.mgmt.fw with status := e, comp := c, loading := false }
            ∧ t.dev = s.dev))
    ∧ (s.mgmt.fw.await = 1 → exec (.coreReady 2) s = .next (s.modFw fun f => { f with await := 2, since := s.clk, sched := true }))
    ∧ (s.mgmt.fw.await = 2 →
        exec (.coreReady 1) s = .next (s.modFw fun f => { f with await := 3, since := s.clk, ccc := s.lantOk, cccReady := 0 }))
    ∧ (∀ l : BitVec 6, s.mgmt.fw.await = 3 →
        let r := (s.mgmt.fw.cccReady ||| (1#64 <<< l.toNat)) &&& s.mgmt.fw.ccc
        ∃ t, exec (.coreReady (0x100 + l.zeroExtend 16)) s = .next t ∧ t.mgmt.fw.cccReady = r
          ∧ t.mgmt.fw.await = (if r = s.mgmt.fw.ccc then 4 else 3) ∧ t.mgmt.fw.sec = (s.mgmt.fw.sec || decide (r = s.mgmt.fw.ccc)))
    ∧ (s.mgmt.fw.await = 4 →
        ∃ t, exec (.coreReady 0) s = .next t ∧ t.dev.st = .run ∧ t.dev.cause = 0 ∧ t.dev.lastFail = 0 ∧ t.mgmt.fw.loaded = true
          ∧ t.mgmt.fw.await = 0 ∧ t.mgmt.fw.bsvn = s.mgmt.fw.newBsvn ∧ t.mgmt.fw.status = 0 ∧ t.mgmt.pins.holdLow = false
          ∧ (FMap.wf [.erased, .erased, .erased] s.mgmt.nvs.ctrs = true →
              (∀ i < 2, (FMap.get [.erased, .erased, .erased] s.mgmt.nvs.ctrs i).length = 3) → t.mgmt.nvs.val 0 = 0 ∧ t.mgmt.nvs.val 1 = 0))
    ∧ (s.mgmt.fw.await ≠ 0 → s.mgmt.fw.since + 100000000 ≤ s.clk →
        ∃ t, exec .coreReadyTimeout s = .next t ∧ t.dev.st = .hold ∧ t.dev.cause = 8 ∧ t.dev.lastFail = 8 ∧ t.mgmt.fw.await = 0
          ∧ t.mgmt.fw.power = false ∧ t.mgmt.start.retry = some (s.clk + 10000000))
    ∧ (∀ c : BitVec 16, s.dev.st = .run →
        (c.toNat < 3 → ∃ t, exec (.watchdogExpire c) s = .next t ∧ t.dev.st = .hold ∧ t.dev.cause = 0xA ∧ t.mgmt.fw.sched = false)
        ∧ (0x100 ≤ c.toNat → c.toNat < 0x140 →
          ∃ t, exec (.watchdogExpire c) s = .next t ∧ t.dev.st = .run ∧ (t.lantern (c.toNat - 0x100)).dog = true
            ∧ t.mgmt.fw.ccc = s.mgmt.fw.ccc &&& ~~~(1#64 <<< (c.toNat - 0x100))))
    ∧ (s.powered = true →
        ∃ t, exec .fatalError s = .next t ∧ t.dev.st = .hold ∧ t.dev.cause = 0xB ∧ t.mgmt.fw.ccc = 0 ∧ t.eng.upds = [] ∧ t.fab.held = [])

/-! ### The service port, JTAG, telemetry -/

/-- A SETUP has arrived on endpoint 0 and is, so far, answered with STALL (R462, R465). -/
def Claims.stalled (s : State) : State := s.modUsb fun u => { u with staged := none, reply := none, at_ := s.clk }

/-- R461 to R465: a block is staged only in the open session with the next sequence, and runs from its status stage's ACK; results are kept by sequence;
sessions are opened, closed and timed out. The standard requests' details are the model's (log 49). -/
def Obligations.TheServicePortKeepsItsSession : Prop :=
  ∀ s : State,
    (s.usbUp = true →
      (∀ b : List Byte, exec (.usbStage (some b)) s = .next (if s.mgmt.usb.accepts b then (Claims.stalled s).modUsb fun u => { u with
          staged := some (fieldAt b 0 4, fieldAt b 4 4, fieldAt b 8 2, fieldAt b 0xC 4, b.drop 16) } else Claims.stalled s))
      ∧ (∀ ses seq op len p, s.mgmt.usb.staged = some (ses, seq, op, len, p) →
          let u := s.modUsb fun u => { u with
            staged := none, lastSeq := seq, running := some (seq, op, p, s.clk), reply := some [], at_ := s.clk }
          (1 ≤ op → op ≤ 7 → len = p.length → exec (.usbStage none) s = .next u)
          ∧ (op = 0 ∨ 7 < op ∨ len ≠ p.length → exec (.usbStage none) s = .next (u.usbDone 3)))
      ∧ (∀ (seq : BitVec 32) (len : BitVec 16), 16 ≤ len.toNat → len.toNat ≤ 4096 →
          (∀ op p n, s.mgmt.usb.running = some (seq.toNat, op, p, n) →
            exec (.usbResult seq len) s = .next ((Claims.stalled s).usbReply ((resultBlock seq.toNat op 1 []).take len.toNat)))
          ∧ (∀ r, s.mgmt.usb.running = none → s.mgmt.usb.results.find? (fun r => r.seq == seq.toNat) = some r →
            exec (.usbResult seq len) s =
              .next ((Claims.stalled s).usbReply ((resultBlock seq.toNat r.op r.status r.body).take len.toNat)))
          ∧ (s.mgmt.usb.running = none → s.mgmt.usb.results.find? (fun r => r.seq == seq.toNat) = none →
            exec (.usbResult seq len) s = .next ((Claims.stalled s).usbReply ((resultBlock seq.toNat 0 2 []).take len.toNat))))
      ∧ (s.mgmt.usb.running = none → ∃ t n, exec .usbOpen s = .next t ∧ 0 < n ∧ n < 2 ^ 32 ∧ t.mgmt.usb.session = some n
          ∧ t.mgmt.usb.lastSeq = 0 ∧ t.mgmt.usb.results = [] ∧ t.mgmt.usb.reply = some (leBytes 4 n))
      ∧ (s.mgmt.usb.running ≠ none → exec .usbOpen s = .next (Claims.stalled s))
      ∧ (∀ n seq op p c, s.mgmt.usb.session = some n → s.mgmt.usb.running = some (seq, op, p, c) →
          exec .usbQuery s = .next ((Claims.stalled s).usbReply (leBytes 4 n ++ leBytes 4 s.mgmt.usb.lastSeq ++ leBytes 4 seq)))
      ∧ (∀ ses : BitVec 32, s.mgmt.usb.session = some ses.toNat → s.mgmt.usb.running = none →
          exec (.usbClose ses) s = .next (((Claims.stalled s).modUsb fun u => { u with
            session := none, lastSeq := 0, results := [], staged := none }).usbReply []))
      ∧ (∀ a : BitVec 7, exec (.controlRequest (BitVec.ofNat 64 (0x500 + a.toNat * 2 ^ 16))) s =
          .next (((Claims.stalled s).modUsb fun u => { u with addr := a.toNat }).usbReply []))
      ∧ exec (.controlRequest 0x0000000000004242#64) s = .next (Claims.stalled s)
      ∧ (s.inBulk = false → exec .usbBusReset s = .next s.usbDetach)
      ∧ (s.inBulk = true → exec .usbBusReset s = .next (s.usbDetach.usbDone 6)))
    ∧ (s.usbUp = false → ∀ c ∈ ([.usbStage (some []), .usbStage none, .usbOpen, .usbQuery, .usbBusReset, .usbResult 1 64] : List Instr),
        exec c s = .next s)
    ∧ (s.mgmt.usb.running = none → s.mgmt.usb.at_ + 600000000000 ≤ s.clk →
        exec .usbSessionTimeout s = .next (s.modUsb fun u => { u with session := none, lastSeq := 0, results := [], staged := none }))
    ∧ (∀ seq op p n, s.mgmt.usb.running = some (seq, op, p, n) → s.inBulk = true → n + 10000000000 ≤ s.clk →
        exec .usbBulkTimeout s = .next (s.usbDone 7))
    ∧ exec (.usbVbusChange true) s = .next (s.modPins fun p => { p with vbus := true })
    ∧ exec (.usbVbusChange false) s = .next (s.modPins fun p => { p with vbus := false }).usbDetach

/-- R452, R466, R543, R547, R549: each command of the service port acts in the states that serve it, and else ends with NOMAIN or STATE. -/
def Obligations.ServiceCommandsRunInTheirStates : Prop :=
  ∀ s : State,
    (∀ seq p n, s.mgmt.usb.running = some (seq, 1, p, n) →
        (s.powered = false → exec .usbInfo s = .next (s.usbDone 0 (Memory.rdN s.sec.otpCache 0 32 ++ List.replicate 40 0xFF)))
        ∧ (s.powered = true → ∃ r, r.length = 40 ∧ exec .usbInfo s = .next (s.usbDone 0 (Memory.rdN s.sec.otpCache 0 32 ++ r))
            ∧ r.take 1 = leBytes 1 s.sec.lc.num))
    ∧ (∀ d st io, ∀ row ∈ ([(.usbLogRead, 2), (.usbBcrRead, 3), (.usbBcrWrite, 4), (.usbBundleLoad d, 5), (.monitorUpdate d st, 6),
        (.usbStart io, 7)] : List (Instr × Nat)), ∀ seq p n, s.mgmt.usb.running = some (seq, row.2, p, n) → s.mgmt.nvs.queue = [] →
        s.mgmt.fw.await = 0 →
        (s.powered = false → exec row.1 s = .next (s.usbDone 5))
        ∧ (s.powered = true → s.sec.snuffed = true → s.dev.st = .run → exec row.1 s = .next (s.usbDone 4)))
    ∧ (∀ seq op p n, s.mgmt.usb.running = some (seq, op, p, n) → s.powered = true → s.sec.snuffed = false → s.mgmt.fw.romrec = false →
        (op = 2 → exec .usbLogRead s = .next ((s.usbReply (s.mgmt.soot.buf.map SootE.bytes).flatten).usbDone 0))
        ∧ (∀ b, op = 3 → p.length = 1 → s.mgmt.nvs.bcr (leNat p) = some b →
            exec .usbBcrRead s = .next ((s.nvsLook (· == (2 + leNat p, 0))).usbDone 0 (b.take 4032)))
        ∧ (op = 4 → s.mgmt.nvs.queue = [] → goodBcr p = false ∨ bcrSeqOf p ≤ s.mgmt.nvs.bcrTop →
            exec .usbBcrWrite s = .next (s.usbDone 0xA))
        ∧ (op = 4 → s.mgmt.nvs.queue = [] → goodBcr p = true → s.mgmt.nvs.bcrTop < bcrSeqOf p →
            s.mgmt.nvs.checkAll .security (.bcr (s.mgmt.start.copy == 1) p) = 0 →
            ∃ t, exec .usbBcrWrite s = .next t ∧ t.mgmt.nvs.queue = [{ work := .bcr (s.mgmt.start.copy == 1) p, who := .usb }]
              ∧ t.mgmt.usb = s.mgmt.usb)
        ∧ (∀ data, op = 5 → p.length = 4 → s.waitsBundle = true → s.mgmt.fw.await = 0 →
            let r := s.bundleStop (data.take (leNat p)) (leNat p) bundleTypes
            (r.1 = 0 → ∃ t, exec (.usbBundleLoad data) s = .next t ∧ t.mgmt.fw.await = 1 ∧ t.mgmt.fw.source = 2 ∧ t.mgmt.usb = s.mgmt.usb)
            ∧ (r.1 ≠ 0 → ∃ t, exec (.usbBundleLoad data) s = .next t ∧ t.mgmt.usb.running = none ∧ t.mgmt.fw.status = r.1
                ∧ t.mgmt.fw.await = 0))
        ∧ (∀ data, op = 6 → p.length = 4 → s.dev.st = .hold →
            (s.bundleStop (data.take (leNat p)) (leNat p) monitorTypes).1 = 0 →
            ∃ t, exec (.monitorUpdate data 0) s = .next t ∧ t.mgmt.nvs.monitor = true ∧ t.mgmt.usb.running = none)
        ∧ (∀ io, op = 7 → p = [1] ∨ p = [0] → s.dev.st = .hold → s.dev.cause ≠ 0xC →
            exec (.usbStart io) s = .next ((s.usbDone 0).startEvent (p == [1]) (p == [1]) io)))

/-- The JTAG instructions and their codes (R467). -/
def Claims.jtagRows : List (Instr × Nat) :=
  [(.jtagIdcode, 1), (.jtagBypass, 0xFF), (.jtagSamplePreload, 2), (.jtagExtest, 0), (.jtagDtmcs, 0x10), (.jtagDmi, 0x11), (.jtagTestmode, 0x20)]

/-- R388, R467 to R471: an instruction that the life-cycle state opens is selected, any other selects BYPASS and raises JTAGDENY; telemetry is refreshed
as the power core and the hardware can, read by code, masked, cleared, and the alert line answered with the port's address. -/
def Obligations.JtagAndTelemetryAnswer : Prop :=
  ∀ s : State, s.dev.st ≠ .off →
    (∀ row ∈ Claims.jtagRows, s.secRuns = true → s.sec.lcKnown = true →
        (s.tapOpen row.2 = true →
          exec row.1 s = .next (s.modJtag fun j => { j with ir := row.2, dr := if row.2 = 1 then [idcode] else [] }))
        ∧ (s.tapOpen row.2 = false → exec row.1 s = .next ((s.modJtag fun j => { j with ir := 0xFF, dr := [] }).secEvent 0xE none)))
    ∧ (s.sec.lc.factory = false → s.sec.lc ≠ .blank → ∀ ir ∈ [0, 2, 0x10, 0x11, 0x20], s.tapOpen ir = false)
    ∧ idcode % 2 = 1 ∧ idcode / 2 ^ 12 = 0x9636
    ∧ (s.sec.lcKnown = false → exec .jtagDmi s = .next (s.modJtag fun j => { j with ir := 0xFF, dr := [] }))
    ∧ (∀ c : BitVec 8, c ≠ 0x40 → c ≠ 0x41 →
        exec (.blockRead c) s = .next (s.modSmb fun x => { x with reply := (FMap.find? x.regs c.toNat).getD [] }))
    ∧ exec (.blockRead 0x40) s = .next (s.modSmb fun x => { x with reply := [x.mask] })
    ∧ exec (.blockRead 0x41) s = .next (s.modSmb fun x => { x with reply := [x.status] })
    ∧ (∀ v : BitVec 8, ∃ t, exec (.alertMask v) s = .next t ∧ t.mgmt.smb.mask = v &&& 0x1F ∧ t.mgmt.smb.status = s.mgmt.smb.status
        ∧ (v &&& 0x1F &&& s.mgmt.smb.status = 0 → t.mgmt.smb.alert = false))
    ∧ (∀ v : BitVec 8, ∃ t, exec (.alertStatus v) s = .next t ∧ t.mgmt.smb.mask = s.mgmt.smb.mask
        ∧ (s.mgmt.pwr.capped = false → s.mgmt.pwr.brake = false → t.mgmt.smb.status = s.mgmt.smb.status &&& ~~~v)
        ∧ (s.mgmt.pwr.capped = true ∨ s.mgmt.pwr.brake = true →
            t.mgmt.smb.status = (s.mgmt.smb.status &&& ~~~v) ||| (s.mgmt.smb.status &&& 0x10)))
    ∧ (s.mgmt.smb.alert = true → exec .alertResponse s = .next (s.modSmb fun x => { x with
        alert := false, reply := [BitVec.ofNat 8 (2 * (0x50 + s.mgmt.pins.straps % 4))] }))
    ∧ (s.mgmt.smb.alert = false → exec .alertResponse s = .next s)
    ∧ (∀ a : BitVec 7, exec (.i3cAddressAssign a) s = .next (s.modSmb fun x => { x with dyn := some a.toNat }))
    ∧ (∃ t, exec .telemetryRefresh s = .next t ∧ t.free = s.free + 24
        ∧ FMap.find? t.mgmt.smb.regs 0x04 = some (leBytes 2 s.mgmt.pwr.pin)
        ∧ FMap.find? t.mgmt.smb.regs 0x0C = some (if s.mgmt.fw.power then leBytes 2 s.mgmt.gut.score else [0xFF, 0xFF])
        ∧ FMap.find? t.mgmt.smb.regs 0x10 = some (if s.mgmt.fw.power then leBytes 8 s.beacon else List.replicate 8 0xFF))

/-! ### The machine -/

/-- A step on a waiting command is that command on the state with the queue's rest; on an empty queue it is a tick of the clock, by which Beacon time
goes on (the tick is the model's choice, log 2). -/
def Obligations.StepTakesTheFrontCommand : Prop :=
  (∀ (s : State) (c : Instr) rest, step { s with pending := c :: rest } = exec c { s with pending := rest })
  ∧ ∀ s : State, s.pending = [] → s.bcn.absorb = 0 →
      ∃ t, step s = .next t ∧ t.pending = [] ∧ t.clk = s.clk + 1 ∧ t.beacon = s.beacon + 1 ∧ t.mem.data = s.mem.data

/-- The commands that issue a bundle with no more to say than its words. -/
def Claims.issueRows : List Row :=
  [.nop, .mma, .tzero, .tcopy, .tget, .tput, .attnBlkFwd, .attnBlkBwd, .vadd, .vsub, .vmul, .vfma, .vdiv, .vsqrt, .vmax, .vmin, .vneg,
   .vabs, .vsign, .vexp2, .vlog2, .vcmpeq, .vcmpne, .vcmplt, .vcmple, .vclass, .vsel, .vcvt, .vrand, .vredsum, .vredmax, .vredmin, .viadd,
   .visub, .vimul, .vand, .vor, .vxor, .vshl, .vshr, .vsra, .vperm, .pand, .por, .pxor, .pnot, .vld, .vst, .tld, .tst, .dmaIssue, .tokd,
   .movi, .movhi, .movsa, .movas, .movsw, .vgetl, .vsetl, .vbcast, .aadd, .aaddi, .aset, .pfromv, .ptov, .add, .sub, .mul, .andS, .orS,
   .xorS, .shl, .shr, .sra, .slt, .sltu, .br, .beq, .bne, .blt, .bge, .bltu, .bgeu, .loop, .jr, .call, .fsig, .fwait, .fown, .allocMem,
   .freeMem, .stepBarrier, .coll, .upd, .halt]

/-- The frame of a byte belongs to domain `e` (R222). -/
def Claims.ownedBy (s : State) (a e : Nat) : Prop := s.frame (frameOf a) = .domain e ∨ s.frame (frameOf a) = .retire e

/-- R80, R90, R218, R219: whatever bundle a Wick issues, with whatever outcome, no byte in a frame of another domain changes, provided that the pages
of the Wick's own domain lie in that domain's frames. -/
def Obligations.BundlesKeepToTheirDomain : Prop :=
  (∀ row ∈ Claims.issueRows, ∀ (s : State) (w : WickRef) (b : Bundle), (row w b).wf = true → exec (row w b) s = .next (s.issue w b))
  ∧ ∀ (s : State) (w : WickRef) (b : Bundle) (a e : Nat), (∀ off x, (s.dom w.d).dpa off = some x → Claims.ownedBy s x w.d) →
      Claims.ownedBy s a e → e ≠ w.d → Memory.rd (s.issue w b).mem.data a = Memory.rd s.mem.data a

/-- R217, R246, R282, R399, R405, R473, R492, R499, R509, R512, R545, R553, R559, R563, R564: the registers read their stated reset values after reset; no
command waits, no domain is there, no domain's key is held, and the memories are canonical. That reset is HOLD with cause NOBUNDLE, a field part, is the model's
choice (logs 12 and 13). -/
def Obligations.ResetLeavesTheStatedValues : Prop :=
  State.reset.canonical ∧ State.reset.pending = [] ∧ State.reset.doms = [] ∧ State.reset.keysEmpty = true ∧ State.reset.beacon = 0
  ∧ ∀ r ∈ ([(0x400100, 0x7D0), (0x410000, 0x710), (0x600010, 0), (0x910000, 0), (0x910004, 0), (0x500100, 0x192800), (0x500200, 0x0C08060C),
      (0x504000, 0x10000), (0x504004, 0x101F4), (0x504010, 100), (0x504014, 10000), (0x504020, 2000000), (0x504024, 20000000), (0x504030, 40),
      (0x504034, 15), (0x504038, 2), (0x50403C, 64), (0x400018, 0), (0x901F00, 0), (0x401818, 0)] : List (Nat × Nat)),
      State.reset.pfWord r.1 = BitVec.ofNat 32 r.2

/-- R219, R230: every step keeps the memory tiers and what was written to the host in their canonical form (addresses strictly rising, no byte listed that
equals what an unlisted one reads as), whatever command is at the front and whatever the rest of the state. -/
def Obligations.StepKeepsMemoriesCanonical : Prop :=
  ∀ s t : State, s.canonical → step s = .next t → t.canonical
end

