-- ==== Sys2Proof/Laws/Map.lean ====
section
/-! SUPPORT. Laws of finite maps: reading after writing, writing twice, and the canonical form that every operation keeps. -/

namespace Sys2Proof.Machine

variable {V : Type}

@[simp] theorem FMap.find?_nil (k : Nat) : FMap.find? ([] : FMap V) k = none := rfl

@[simp] theorem FMap.find?_insert_self (m : FMap V) (k : Nat) (v : V) : FMap.find? (FMap.insert m k v) k = some v := by
  induction m with
  | nil => simp [FMap.insert, FMap.find?]
  | cons p m ih =>
    unfold FMap.insert
    split
    · simp [FMap.find?]
    · split
      · simp [FMap.find?]
      · simp [FMap.find?, *]

theorem FMap.find?_insert_ne (m : FMap V) {k k' : Nat} (v : V) (h : k ≠ k') :
    FMap.find? (FMap.insert m k v) k' = FMap.find? m k' := by
  induction m with
  | nil => simp [FMap.insert, FMap.find?, h]
  | cons p m ih =>
    unfold FMap.insert
    split
    · simp [FMap.find?, h]
    · split
      · next hp => simp [FMap.find?, hp, h]
      · simp [FMap.find?, ih]

@[simp] theorem FMap.insert_insert (m : FMap V) (k : Nat) (v w : V) :
    FMap.insert (FMap.insert m k v) k w = FMap.insert m k w := by
  induction m with
  | nil => simp [FMap.insert]
  | cons p m ih =>
    by_cases h1 : k < p.1
    · simp [FMap.insert, h1]
    · by_cases h2 : p.1 = k
      · simp [FMap.insert, h2]
      · simp [FMap.insert, h1, h2, ih]

theorem FMap.find?_erase_ne (m : FMap V) {k k' : Nat} (h : k ≠ k') :
    FMap.find? (FMap.erase m k) k' = FMap.find? m k' := by
  induction m with
  | nil => rfl
  | cons p m ih =>
    unfold FMap.erase
    split
    · next hp => simp [FMap.find?, hp, h]
    · simp [FMap.find?, ih]

theorem FMap.find?_none_of_lt (m : FMap V) {k : Nat} (h : ∀ p ∈ m, k < p.1) : FMap.find? m k = none := by
  induction m with
  | nil => rfl
  | cons p m ih =>
    have hp := h p (List.mem_cons_self ..)
    simp only [FMap.find?]
    rw [if_neg (by omega)]
    exact ih fun q hq => h q (List.mem_cons_of_mem _ hq)

/-- Keys strictly rising. -/
def FMap.sorted (m : FMap V) : Prop := m.Pairwise fun a b => a.1 < b.1

theorem FMap.find?_erase_self {m : FMap V} (hs : FMap.sorted m) (k : Nat) : FMap.find? (FMap.erase m k) k = none := by
  induction m with
  | nil => rfl
  | cons p m ih =>
    rw [FMap.sorted, List.pairwise_cons] at hs
    unfold FMap.erase
    split
    · next hp => exact FMap.find?_none_of_lt m fun q hq => hp ▸ hs.1 q hq
    · next hp => simp [FMap.find?, hp, ih hs.2]

theorem FMap.mem_insert {m : FMap V} {k : Nat} {v : V} {p : Nat × V} (h : p ∈ FMap.insert m k v) :
    p = (k, v) ∨ p ∈ m := by
  induction m with
  | nil => simp_all [FMap.insert]
  | cons q m ih =>
    unfold FMap.insert at h
    split at h
    · simpa using h
    · split at h
      · rcases List.mem_cons.1 h with h | h
        · exact .inl h
        · exact .inr (List.mem_cons_of_mem _ h)
      · rcases List.mem_cons.1 h with h | h
        · exact .inr (h ▸ List.mem_cons_self ..)
        · exact (ih h).imp id (List.mem_cons_of_mem _)

theorem FMap.mem_erase {m : FMap V} {k : Nat} {p : Nat × V} (h : p ∈ FMap.erase m k) : p ∈ m := by
  induction m with
  | nil => exact h
  | cons q m ih =>
    unfold FMap.erase at h
    split at h
    · exact List.mem_cons_of_mem _ h
    · rcases List.mem_cons.1 h with h | h
      · exact h ▸ List.mem_cons_self ..
      · exact List.mem_cons_of_mem _ (ih h)

theorem FMap.sorted_insert {m : FMap V} (h : FMap.sorted m) (k : Nat) (v : V) : FMap.sorted (FMap.insert m k v) := by
  induction m with
  | nil => simp [FMap.insert, FMap.sorted]
  | cons p m ih =>
    have hs := List.pairwise_cons.1 h
    unfold FMap.insert
    split
    · next hk =>
      refine List.pairwise_cons.2 ⟨fun q hq => ?_, h⟩
      rcases List.mem_cons.1 hq with rfl | hq
      · exact hk
      · exact Nat.lt_trans hk (hs.1 q hq)
    · next hk =>
      split
      · next hp => exact List.pairwise_cons.2 ⟨fun q hq => hp ▸ hs.1 q hq, hs.2⟩
      · next hp =>
        refine List.pairwise_cons.2 ⟨fun q hq => ?_, ih hs.2⟩
        rcases FMap.mem_insert hq with rfl | hq
        · exact Nat.lt_of_le_of_ne (Nat.le_of_not_lt hk) hp
        · exact hs.1 q hq

theorem FMap.sorted_erase {m : FMap V} (h : FMap.sorted m) (k : Nat) : FMap.sorted (FMap.erase m k) := by
  induction m with
  | nil => exact h
  | cons p m ih =>
    have hs := List.pairwise_cons.1 h
    unfold FMap.erase
    split
    · exact hs.2
    · exact List.pairwise_cons.2 ⟨fun q hq => hs.1 q (FMap.mem_erase hq), ih hs.2⟩

variable [DecidableEq V]

theorem FMap.wf_iff {d : V} {m : FMap V} : FMap.wf d m = true ↔ FMap.sorted m ∧ ∀ p ∈ m, p.2 ≠ d := by
  simp [FMap.wf, FMap.sorted]

@[simp] theorem FMap.wf_nil (d : V) : FMap.wf d ([] : FMap V) = true := by simp [FMap.wf_iff, FMap.sorted]

/-- Writing keeps the canonical form. -/
theorem FMap.wf_set {d : V} {m : FMap V} (h : FMap.wf d m = true) (k : Nat) (v : V) :
    FMap.wf d (FMap.set d m k v) = true := by
  obtain ⟨h1, h2⟩ := FMap.wf_iff.1 h
  unfold FMap.set
  split
  · exact FMap.wf_iff.2 ⟨FMap.sorted_erase h1 k, fun p hp => h2 p (FMap.mem_erase hp)⟩
  · next hv =>
    refine FMap.wf_iff.2 ⟨FMap.sorted_insert h1 k v, fun p hp => ?_⟩
    rcases FMap.mem_insert hp with rfl | hp
    · exact hv
    · exact h2 p hp

/-- Changing one value keeps the canonical form. -/
theorem FMap.wf_modify {d : V} {m : FMap V} (h : FMap.wf d m = true) (k : Nat) (f : V → V) :
    FMap.wf d (FMap.modify d m k f) = true := FMap.wf_set h k _

/-- Dropping entries keeps the canonical form. -/
theorem FMap.wf_filter {d : V} {m : FMap V} (h : FMap.wf d m = true) (f : Nat × V → Bool) :
    FMap.wf d (m.filter f) = true := by
  obtain ⟨h1, h2⟩ := FMap.wf_iff.1 h
  exact FMap.wf_iff.2 ⟨List.Pairwise.filter f h1, fun p hp => h2 p ((List.mem_filter.1 hp).1)⟩

/-- What holds of every listed value and of the default holds of every value read. -/
theorem FMap.get_all {P : V → Prop} {d : V} {m : FMap V} (h : ∀ p ∈ m, P p.2) (hd : P d) (k : Nat) : P (FMap.get d m k) := by
  induction m with
  | nil => exact hd
  | cons p m ih =>
    unfold FMap.get FMap.find?
    split
    · exact h p (List.mem_cons_self ..)
    · exact ih fun q hq => h q (List.mem_cons_of_mem _ hq)

omit [DecidableEq V] in
@[simp] theorem FMap.get_nil (d : V) (k : Nat) : FMap.get d ([] : FMap V) k = d := rfl

/-- A key other than the one written reads as before. -/
theorem FMap.get_set_ne (d : V) (m : FMap V) {k k' : Nat} (v : V) (h : k ≠ k') :
    FMap.get d (FMap.set d m k v) k' = FMap.get d m k' := by
  unfold FMap.set FMap.get
  split
  · rw [FMap.find?_erase_ne m h]
  · rw [FMap.find?_insert_ne m v h]

/-- A read after a write gives the value written, in a canonical map. -/
theorem FMap.get_set_self {d : V} {m : FMap V} (h : FMap.wf d m = true) (k : Nat) (v : V) :
    FMap.get d (FMap.set d m k v) k = v := by
  unfold FMap.set FMap.get
  split
  · next hv => rw [FMap.find?_erase_self (FMap.wf_iff.1 h).1]; simp [hv]
  · simp

/-- A read after a write gives the value written, in any map, if that value is not the default. -/
theorem FMap.get_set_of_ne {d : V} (m : FMap V) (k : Nat) {v : V} (hv : v ≠ d) :
    FMap.get d (FMap.set d m k v) k = v := by
  simp [FMap.set, FMap.get, hv]

/-- Of two writes of one key the second stays, if neither is the default. -/
theorem FMap.set_set {d : V} (m : FMap V) (k : Nat) {v w : V} (hv : v ≠ d) (hw : w ≠ d) :
    FMap.set d (FMap.set d m k v) k w = FMap.set d m k w := by
  simp [FMap.set, hv, hw]

end Sys2Proof.Machine
end

