-- ==== Sys2Proof/Laws/Wick.lean ====
section
/-! SUPPORT. Laws of contexts, Wicks and the issue of a bundle: reading back what was written, and what a bundle that meets no wait and no
fault does. -/

namespace Sys2Proof.Machine

/-! ### Domains and contexts -/

theorem dom_setDom_of_ne (s : State) (d : Nat) {x : Dom} (h : x ≠ {}) : (s.setDom d x).dom d = x :=
  FMap.get_set_of_ne _ _ h

theorem dom_setDom_other (s : State) {d e : Nat} (x : Dom) (h : d ≠ e) : (s.setDom d x).dom e = s.dom e :=
  FMap.get_set_ne _ _ _ h

theorem setDom_setDom (s : State) (d : Nat) {x y : Dom} (hx : x ≠ {}) (hy : y ≠ {}) :
    (s.setDom d x).setDom d y = s.setDom d y := by
  exact congrArg (fun m => ({ s with doms := m } : State)) (FMap.set_set _ _ hx hy)

theorem Dom.ne_default_of_ctx {m : Dom} {c : Nat} {x : Ctx} (h : FMap.find? m.ctxs c = some x) : m ≠ {} := by
  rintro rfl; simp at h

theorem ctx?_setCtx (s : State) (d c : Nat) (x : Ctx) : (s.setCtx d c x).ctx? d c = some x := by
  unfold State.setCtx State.modDom State.ctx?
  rw [dom_setDom_of_ne _ _ (Dom.ne_default_of_ctx (c := c) (x := x) (by simp))]
  simp

theorem setCtx_setCtx (s : State) (d c : Nat) (x y : Ctx) : (s.setCtx d c x).setCtx d c y = s.setCtx d c y := by
  have h (z : Ctx) (m : Dom) : ({ m with ctxs := FMap.insert m.ctxs c z } : Dom) ≠ {} :=
    Dom.ne_default_of_ctx (c := c) (x := z) (by simp)
  unfold State.setCtx State.modDom
  rw [dom_setDom_of_ne _ _ (h _ _), setDom_setDom _ _ (h _ _) (h _ _)]
  simp

/-- A context other than the one written stays. -/
theorem ctx?_setCtx_other (s : State) {d c d' c' : Nat} (x : Ctx) (h : d ≠ d' ∨ c ≠ c') :
    (s.setCtx d c x).ctx? d' c' = s.ctx? d' c' := by
  unfold State.setCtx State.modDom State.ctx?
  by_cases hd : d = d'
  · subst hd
    rw [dom_setDom_of_ne _ _ (Dom.ne_default_of_ctx (c := c) (x := x) (by simp))]
    simp [FMap.find?_insert_ne _ _ (h.resolve_left (· rfl))]
  · rw [dom_setDom_other _ _ hd]

/-! ### Wicks -/

theorem setWickAt_of_live {s : State} {d c : Nat} {x : Ctx} (k : Nat) (w : Wick) (h : s.ctx? d c = some x)
    (hl : x.status = .live) : s.setWickAt d c k w = s.setCtx d c (x.setWick k w) := by
  simp [State.setWickAt, State.modCtx, h, hl]

theorem Wick.ne_default {w : Wick} (h : w.run ≠ .idle) : w ≠ {} := by rintro rfl; exact h rfl

/-- A Wick reads back as written. -/
theorem wickAt_setWickAt {s : State} {d c : Nat} {x : Ctx} (k : Nat) {w : Wick} (h : s.ctx? d c = some x)
    (hl : x.status = .live) (hw : w.run ≠ .idle) : (s.setWickAt d c k w).wickAt d c k = w := by
  rw [setWickAt_of_live k w h hl, State.wickAt, ctx?_setCtx]
  exact FMap.get_set_of_ne _ _ (Wick.ne_default hw)

/-- Another Wick of the context stays. -/
theorem wickAt_setWickAt_ne {s : State} {d c : Nat} {x : Ctx} {k k' : Nat} (w : Wick) (h : s.ctx? d c = some x)
    (hl : x.status = .live) (hk : k ≠ k') : (s.setWickAt d c k w).wickAt d c k' = s.wickAt d c k' := by
  rw [setWickAt_of_live k w h hl, State.wickAt, ctx?_setCtx, State.wickAt, h]
  exact FMap.get_set_ne _ _ _ hk

theorem ctx?_setWickAt {s : State} {d c : Nat} {x : Ctx} (k : Nat) (w : Wick) (h : s.ctx? d c = some x)
    (hl : x.status = .live) : (s.setWickAt d c k w).ctx? d c = some (x.setWick k w) := by
  rw [setWickAt_of_live k w h hl, ctx?_setCtx]

/-- Of two writes of a Wick the second stays. -/
theorem setWickAt_setWickAt {s : State} {d c : Nat} {x : Ctx} (k : Nat) {v w : Wick} (h : s.ctx? d c = some x)
    (hl : x.status = .live) (hv : v.run ≠ .idle) (hw : w.run ≠ .idle) :
    (s.setWickAt d c k v).setWickAt d c k w = s.setWickAt d c k w := by
  rw [setWickAt_of_live (s := s.setWickAt d c k v) k w (ctx?_setWickAt k v h hl) hl, setWickAt_of_live k v h hl,
    setWickAt_of_live k w h hl, setCtx_setCtx]
  exact congrArg (fun m => s.setCtx d c { x with wicks := m }) (FMap.set_set _ _ (Wick.ne_default hv) (Wick.ne_default hw))

@[simp] theorem Wick.setS_run (k : Wick) (i : Nat) (x : DWord) : (k.setS i x).run = k.run := rfl
@[simp] theorem Wick.setA_run (k : Wick) (i : Nat) (x : DWord) : (k.setA i x).run = k.run := rfl
@[simp] theorem Wick.setV_run (k : Wick) (i : Nat) (x : List Word) : (k.setV i x).run = k.run := rfl
@[simp] theorem Wick.setT_run (k : Wick) (i : Nat) (x : List Word) : (k.setT i x).run = k.run := rfl
@[simp] theorem Wick.setP_run (k : Wick) (i : Nat) (x : BitVec 256) : (k.setP i x).run = k.run := by
  unfold Wick.setP; split <;> rfl
@[simp] theorem Wick.setPc_run (k : Wick) (x : DWord) : (k.setPc x).run = k.run := rfl

@[simp] theorem Wick.regAct_run (k : Wick) (a : Act) : (k.regAct a).run = k.run := by
  cases a <;> simp [Wick.regAct]

/-- What `runnable` says of the Wick. -/
theorem runnable_live {s : State} {w : WickRef} (h : s.runnable w = true) :
    ∃ x, s.ctx? w.d w.c = some x ∧ x.status = .live ∧ (s.wickAt w.d w.c w.key).run = .running ∧ s.dev.st = .run := by
  unfold State.runnable at h
  cases hx : s.ctx? w.d w.c with
  | none => simp [hx] at h
  | some x =>
    simp only [hx, Bool.and_eq_true, beq_iff_eq] at h
    exact ⟨x, rfl, h.2.1.1.1, by simp [State.wickAt, hx, h.2.1.2], h.1⟩

theorem on_setWickAt {s : State} {d c k : Nat} (h : s.on d c k) {w : Wick} (hw : w.run ≠ .idle) :
    (s.setWickAt d c k w).on d c k := by
  obtain ⟨x, hx, hl, -⟩ := h
  exact ⟨_, ctx?_setWickAt k w hx hl, hl, by rw [wickAt_setWickAt k hx hl hw]; exact hw⟩

theorem wickAt_setWickAt_on {s : State} {d c k : Nat} (h : s.on d c k) {w : Wick} (hw : w.run ≠ .idle) :
    (s.setWickAt d c k w).wickAt d c k = w := by
  obtain ⟨x, hx, hl, -⟩ := h; exact wickAt_setWickAt k hx hl hw

theorem setWickAt_setWickAt_on {s : State} {d c k : Nat} (h : s.on d c k) {v w : Wick} (hv : v.run ≠ .idle)
    (hw : w.run ≠ .idle) : (s.setWickAt d c k v).setWickAt d c k w = s.setWickAt d c k w := by
  obtain ⟨x, hx, hl, -⟩ := h; exact setWickAt_setWickAt k hx hl hv hw

end Sys2Proof.Machine
end

