-- ==== Sys2Proof/Laws/Issue.lean ====
section
/-! SUPPORT. What the issue of a bundle does when it meets no wait and no fault. -/

namespace Sys2Proof.Machine

/-- A Wick that may run issues its bundle on the state with the bundle's lines read. -/
theorem issue_runnable {s : State} {w : WickRef} (b : Bundle) (h : s.runnable w = true) : s.issue w b = (s.readFor w b).issueRead w b := by
  unfold State.issue; rw [if_pos h]

theorem issue_goes {s : State} {w : WickRef} {b : Bundle} (h : s.goes w b) : s.issue w b = (s.readFor w b).issueRead w b :=
  issue_runnable b h.1

theorem act_reg (s : State) (d c k : Nat) (a : Act) (ha : a.isReg = true) :
    s.act d c k a = s.setWickAt d c k ((s.wickAt d c k).regAct a) ∨ (s.act d c k a = s ∧ ∃ t, a = .tok t) := by
  cases a <;> first | exact .inl rfl | (exact .inr ⟨rfl, _, rfl⟩) | simp [Act.isReg] at ha

/-- A run of register acts, none of them a token, is one write of the Wick. -/
theorem acts_reg {d c k : Nat} (a : Act) (l : List Act) : ∀ (s : State), s.on d c k →
    (∀ b ∈ a :: l, b.isReg = true ∧ b.isTok = false) →
    s.acts d c k (a :: l) = s.setWickAt d c k ((a :: l).foldl Wick.regAct (s.wickAt d c k)) := by
  induction l generalizing a with
  | nil =>
    intro s hs ha
    have h := ha a (List.mem_cons_self ..)
    rcases act_reg s d c k a h.1 with h' | ⟨-, t, rfl⟩
    · simpa [State.acts] using h'
    · simp [Act.isTok] at h
  | cons b l ih =>
    intro s hs ha
    have h := ha a (List.mem_cons_self ..)
    rcases act_reg s d c k a h.1 with h' | ⟨-, t, rfl⟩
    · have hr : ((s.wickAt d c k).regAct a).run ≠ .idle := by
        rw [Wick.regAct_run]; obtain ⟨_, _, _, h⟩ := hs; exact h
      have hl : ∀ (l : List Act) (w : Wick), (l.foldl Wick.regAct w).run = w.run := by
        intro l; induction l with
        | nil => intro w; rfl
        | cons b l ih => intro w; simp [ih]
      have := ih b (s.setWickAt d c k ((s.wickAt d c k).regAct a)) (on_setWickAt hs hr)
        (fun x hx => ha x (List.mem_cons_of_mem _ hx))
      unfold State.acts at this ⊢
      rw [List.foldl_cons, h', this, wickAt_setWickAt_on hs hr,
        setWickAt_setWickAt_on hs hr (by rw [hl]; exact hr)]
      rfl
    · simp [Act.isTok] at h

theorem on_of_runnable {s : State} {w : WickRef} (h : s.runnable w = true) : s.on w.d w.c w.key := by
  obtain ⟨x, hx, hl, hr, -⟩ := runnable_live h
  exact ⟨x, hx, hl, by rw [hr]; exact WickRun.noConfusion⟩

/-- A Wick that runs goes on at a program counter. -/
theorem setRun_running {s : State} (i : Iss) (pc : DWord) (h : (s.wickAt i.d i.c i.k).run = .running) :
    s.setRun i pc .running = s.setWickAt i.d i.c i.k ((s.wickAt i.d i.c i.k).setPc pc) := by
  unfold State.setRun Wick.setPc
  simp only
  congr 1
  cases hk : s.wickAt i.d i.c i.k
  simp_all

theorem foldl_regAct_run (l : List Act) (w : Wick) : (l.foldl Wick.regAct w).run = w.run := by
  induction l generalizing w with
  | nil => rfl
  | cons b l ih => simp [ih]

theorem heldStore_reg (s : State) (d : Nat) (l : List Act) (h : ∀ b ∈ l, b.isReg = true) : s.heldStore d l = none := by
  unfold State.heldStore
  rw [List.findSome?_eq_none_iff]
  intro a ha
  have := h a ha
  cases a <;> simp_all [Act.isReg]

theorem actToks_none (l : List Act) (h : ∀ b ∈ l, b.isTok = false) : actToks l = [] := by
  unfold actToks
  rw [List.filterMap_eq_nil_iff]
  intro a ha
  have := h a ha
  cases a <;> simp_all [Act.isTok]

theorem cActs_reg (k : Wick) (w : DWord) : ∀ b ∈ cActs k w, b.isReg = true ∧ b.isTok = false := by
  intro b hb
  unfold cActs at hb
  split at hb <;> simp_all [cAdd, cSub, cMul, cAnd, cOr, cXor, cShl, cShr, cSra, cSlt, cSltu, cBin, Act.isReg, Act.isTok]

/-- A bundle that only writes registers of its Wick writes them from the registers before it, and goes on (R79). -/
theorem issue_regs {s : State} {w : WickRef} {b : Bundle} (h : Issues s w b) (hc : plainC b.c = true)
    (hr : ∀ a ∈ s.slotActs w b, a.isReg = true ∧ a.isTok = false) :
    s.issueRead w b = s.setWickAt w.d w.c w.key
      (((s.slotActs w b ++ cActs (s.wickAt w.d w.c w.key) b.c).foldl Wick.regAct (s.wickAt w.d w.c w.key)).setPc
        (cNext (s.wickAt w.d w.c w.key) b.c)) := by
  obtain ⟨hrun, hf, hl, ⟨f1, f2, f3, f4⟩, g1, g2, g3, g4⟩ := h
  have hon := on_of_runnable hrun
  obtain ⟨x, hx, hlv, hrn, -⟩ := runnable_live hrun
  have hop : opOf b.c ≠ 0xE1 := by intro h; simp [plainC, h] at hc
  unfold State.issueRead
  simp only [hrun, Bool.not_true, Bool.false_eq_true, if_false, hf, hl, hop]
  unfold State.perform
  simp only [State.iss] at f3 g3 g4
  have hfc : firstFlt (cFlts ⟨s, w.d, w.c, w.key, s.wickAt w.d w.c w.key⟩ b.c ++ fltIf false .ftimeout) = none := by
    simpa [fltIf] using g4
  simp only [f1, f2, f3, f4, Bool.or_self, Bool.false_eq_true, if_false]
  simp only [List.findSome?, g1, g2, g3, hfc]
  have hreg : ∀ a ∈ s.slotActs w b, a.isReg = true := fun a ha => (hr a ha).1
  have hh := heldStore_reg s w.d (s.slotActs w b) hreg
  have ht := actToks_none (s.slotActs w b) fun a ha => (hr a ha).2
  simp only [State.slotActs, State.iss] at hh ht
  simp only [hh, ht, waitActs, List.append_nil, List.foldl_nil]
  have hheld : ∀ t i, State.cHeld t i b.c = false := by
    intro t i; unfold State.cHeld; split <;> simp_all [plainC]
  have hdo : ∀ t i, State.doC t i b.c = t := by
    intro t i; unfold State.doC; split <;> simp_all [plainC]
  simp only [hheld, hdo, Bool.false_eq_true, if_false, ite_self]
  cases hL : s.slotActs w b ++ cActs (s.wickAt w.d w.c w.key) b.c with
  | nil =>
    simp only [State.slotActs, State.iss] at hL
    rw [hL]
    exact setRun_running _ _ hrn
  | cons a l =>
    have hall : ∀ y ∈ a :: l, y.isReg = true ∧ y.isTok = false := by
      rw [← hL]; intro y hy
      rcases List.mem_append.1 hy with hy | hy
      · exact hr y hy
      · exact cActs_reg _ _ y hy
    have := acts_reg a l s hon hall
    simp only [State.slotActs, State.iss] at hL
    rw [hL, this]
    have hid : ((a :: l).foldl Wick.regAct (s.wickAt w.d w.c w.key)).run ≠ .idle := by
      rw [foldl_regAct_run, hrn]; exact WickRun.noConfusion
    have hid' : (((a :: l).foldl Wick.regAct (s.wickAt w.d w.c w.key)).setPc (cNext (s.wickAt w.d w.c w.key) b.c)).run ≠ .idle := hid
    rw [setRun_running]
    · simp only
      rw [wickAt_setWickAt_on hon hid, setWickAt_setWickAt_on hon hid hid']
    · simp only
      rw [wickAt_setWickAt_on hon hid, foldl_regAct_run, hrn]

/-! ### Instruction words -/

open Sys2Proof

theorem withOp_self {w : DWord} {op : Nat} (h : slotIs w op = true) : withOp w op = w := by
  have hw := w.isLt
  simp only [slotIs, beq_iff_eq] at h
  apply BitVec.eq_of_toNat_eq
  simp only [withOp, BitVec.toNat_ofNat]
  omega

theorem opOf_eq {w : DWord} {op : Nat} (h : slotIs w op = true) : opOf w = op := by
  simp only [slotIs, beq_iff_eq] at h
  simp only [opOf, fld]; omega

theorem opM_self {b : Bundle} {op : Nat} (h : slotIs b.m op = true) : b.opM op = b := by
  cases b; simp [Bundle.opM, withOp_self h]

theorem opV_self {b : Bundle} {op : Nat} (h : slotIs b.v op = true) : b.opV op = b := by
  cases b; simp [Bundle.opV, withOp_self h]

theorem opX_self {b : Bundle} {op : Nat} (h : slotIs b.x op = true) : b.opX op = b := by
  cases b; simp [Bundle.opX, withOp_self h]

theorem opC_self {b : Bundle} {op : Nat} (h : slotIs b.c op = true) : b.opC op = b := by
  cases b; simp [Bundle.opC, withOp_self h]

theorem tb_eq (w : DWord) (i : Nat) : tb w i = w.getLsbD i := by
  simp only [tb, fld, BitVec.getLsbD, Nat.testBit_eq_decide_div_mod_eq, Nat.pow_one]
  rfl

theorem fld_eq (w : DWord) (lo n : Nat) : fld w lo n = (w.extractLsb' lo n).toNat := by
  simp [fld, Nat.shiftRight_eq_div_pow]

theorem sx_eq (w : DWord) : sx 32 (fld w 32 32) = (w.extractLsb' 32 32).toInt := by
  rw [fld_eq, sx, BitVec.toInt_eq_toNat_cond]
  have := (w.extractLsb' 32 32).isLt
  split <;> split <;> omega

theorem imm32_eq (w : DWord) : imm32 w = (w.extractLsb' 32 32).signExtend 64 := by
  apply BitVec.eq_of_toInt_eq
  rw [imm32, sx_eq, BitVec.toInt_ofInt, BitVec.toInt_signExtend_of_le (by omega)]
  have := BitVec.toInt_lt (x := w.extractLsb' 32 32)
  have := BitVec.le_toInt (x := w.extractLsb' 32 32)
  rw [Int.bmod_eq_of_le] <;> omega

theorem slotActs_C {s : State} {w : WickRef} {b : Bundle} (hm : b.m = 0) (hv : b.v = 0) (hx : b.x = 0) : s.slotActs w b = [] := by
  simp [State.slotActs, hm, hv, hx, slotM, slotV, slotX, opOf, fld]

theorem issue_C {s : State} {w : WickRef} {b : Bundle} (h : Issues s w b) (hc : plainC b.c = true) (hm : b.m = 0) (hv : b.v = 0) (hx : b.x = 0) :
    s.issueRead w b = s.setWickAt w.d w.c w.key
      (((cActs (s.wickAt w.d w.c w.key) b.c).foldl Wick.regAct (s.wickAt w.d w.c w.key)).setPc (cNext (s.wickAt w.d w.c w.key) b.c)) := by
  rw [issue_regs h hc (by simp [slotActs_C hm hv hx]), slotActs_C hm hv hx]
  rfl


theorem slotActs_X {s : State} {w : WickRef} {b : Bundle} (hm : b.m = 0) (hv : b.v = 0) :
    s.slotActs w b = (slotX (s.iss w) b.x).acts := by
  simp [State.slotActs, hm, hv, slotM, slotV, opOf, fld]

theorem slotActs_V {s : State} {w : WickRef} {b : Bundle} (hm : b.m = 0) (hx : b.x = 0) :
    s.slotActs w b = (slotV (s.wickAt w.d w.c w.key) b.v).acts := by
  simp [State.slotActs, hm, hx, slotM, slotX, opOf, fld]

theorem slotActs_M {s : State} {w : WickRef} {b : Bundle} (hv : b.v = 0) (hx : b.x = 0) :
    s.slotActs w b = (slotM (s.wickAt w.d w.c w.key) b.m).acts := by
  simp [State.slotActs, hv, hx, slotV, slotX, opOf, fld]

theorem cActs_zero (k : Wick) : cActs k 0 = [] := by simp [cActs, opOf, fld]
theorem cNext_zero (k : Wick) : cNext k 0 = k.pc + 32 := by simp [cNext, cTaken, opOf, fld, nextPc]

/-- A bundle without a C-slot instruction. -/
theorem issue_noC {s : State} {w : WickRef} {b : Bundle} (h : Issues s w b) (hc : b.c = 0)
    (hr : ∀ a ∈ s.slotActs w b, a.isReg = true ∧ a.isTok = false) :
    s.issueRead w b = s.setWickAt w.d w.c w.key
      (((s.slotActs w b).foldl Wick.regAct (s.wickAt w.d w.c w.key)).setPc ((s.wickAt w.d w.c w.key).pc + 32)) := by
  rw [issue_regs h (by rw [hc]; decide) hr, hc, List.foldl_append, cActs_zero, cNext_zero]
  rfl

end Sys2Proof.Machine
end

