-- ==== Sys2Proof/Laws/State.lean ====
section
/-! SUPPORT. What each named update of the device's state leaves as it was, and what the part it writes becomes: one simp lemma, whose
parts say it field by field, for each update. -/

namespace Sys2Proof.Machine

@[simp] theorem State.modFw_fields (s : State) (f : FwSt → FwSt) :
    (s.modFw f).pending = s.pending ∧ (s.modFw f).clk = s.clk ∧ (s.modFw f).beacon = s.beacon ∧ (s.modFw f).free = s.free ∧ (s.modFw f).drbg = s.drbg
    ∧ (s.modFw f).dev = s.dev ∧ (s.modFw f).lanterns = s.lanterns ∧ (s.modFw f).doms = s.doms ∧ (s.modFw f).mem = s.mem
    ∧ (s.modFw f).eng = s.eng ∧ (s.modFw f).fab = s.fab ∧ (s.modFw f).sec = s.sec ∧ (s.modFw f).bcn = s.bcn ∧ (s.modFw f).ckpt = s.ckpt
    ∧ (s.modFw f).hostMem = s.hostMem ∧ (s.modFw f).irq = s.irq ∧ (s.modFw f).lantern = s.lantern ∧ (s.modFw f).dom = s.dom
    ∧ (s.modFw f).memDom = s.memDom ∧ (s.modFw f).ctl = s.ctl ∧ (s.modFw f).frame = s.frame ∧ (s.modFw f).link = s.link
    ∧ (s.modFw f).ck = s.ck ∧ (s.modFw f).mgmt.fw = f s.mgmt.fw ∧ (s.modFw f).mgmt.mbx = s.mgmt.mbx ∧ (s.modFw f).mgmt.nvs = s.mgmt.nvs
    ∧ (s.modFw f).mgmt.usb = s.mgmt.usb ∧ (s.modFw f).mgmt.smb = s.mgmt.smb ∧ (s.modFw f).mgmt.jtag = s.mgmt.jtag
    ∧ (s.modFw f).mgmt.pwr = s.mgmt.pwr ∧ (s.modFw f).mgmt.gut = s.mgmt.gut ∧ (s.modFw f).mgmt.regs = s.mgmt.regs
    ∧ (s.modFw f).mgmt.soot = s.mgmt.soot ∧ (s.modFw f).mgmt.pins = s.mgmt.pins ∧ (s.modFw f).mgmt.start = s.mgmt.start :=
  ⟨rfl, rfl, rfl, rfl, rfl, rfl, rfl, rfl, rfl, rfl, rfl, rfl, rfl, rfl, rfl, rfl, rfl, rfl, rfl, rfl, rfl, rfl, rfl, rfl, rfl, rfl, rfl, rfl, rfl, rfl, rfl, rfl, rfl, rfl, rfl⟩

@[simp] theorem State.modNvs_fields (s : State) (f : NvsSt → NvsSt) :
    (s.modNvs f).pending = s.pending ∧ (s.modNvs f).clk = s.clk ∧ (s.modNvs f).beacon = s.beacon ∧ (s.modNvs f).free = s.free ∧ (s.modNvs f).drbg = s.drbg
    ∧ (s.modNvs f).dev = s.dev ∧ (s.modNvs f).lanterns = s.lanterns ∧ (s.modNvs f).doms = s.doms ∧ (s.modNvs f).mem = s.mem
    ∧ (s.modNvs f).eng = s.eng ∧ (s.modNvs f).fab = s.fab ∧ (s.modNvs f).sec = s.sec ∧ (s.modNvs f).bcn = s.bcn
    ∧ (s.modNvs f).ckpt = s.ckpt ∧ (s.modNvs f).hostMem = s.hostMem ∧ (s.modNvs f).irq = s.irq ∧ (s.modNvs f).lantern = s.lantern
    ∧ (s.modNvs f).dom = s.dom ∧ (s.modNvs f).memDom = s.memDom ∧ (s.modNvs f).ctl = s.ctl ∧ (s.modNvs f).frame = s.frame
    ∧ (s.modNvs f).link = s.link ∧ (s.modNvs f).ck = s.ck ∧ (s.modNvs f).mgmt.nvs = f s.mgmt.nvs ∧ (s.modNvs f).mgmt.fw = s.mgmt.fw
    ∧ (s.modNvs f).mgmt.mbx = s.mgmt.mbx ∧ (s.modNvs f).mgmt.usb = s.mgmt.usb ∧ (s.modNvs f).mgmt.smb = s.mgmt.smb
    ∧ (s.modNvs f).mgmt.jtag = s.mgmt.jtag ∧ (s.modNvs f).mgmt.pwr = s.mgmt.pwr ∧ (s.modNvs f).mgmt.gut = s.mgmt.gut
    ∧ (s.modNvs f).mgmt.regs = s.mgmt.regs ∧ (s.modNvs f).mgmt.soot = s.mgmt.soot ∧ (s.modNvs f).mgmt.pins = s.mgmt.pins
    ∧ (s.modNvs f).mgmt.start = s.mgmt.start :=
  ⟨rfl, rfl, rfl, rfl, rfl, rfl, rfl, rfl, rfl, rfl, rfl, rfl, rfl, rfl, rfl, rfl, rfl, rfl, rfl, rfl, rfl, rfl, rfl, rfl, rfl, rfl, rfl, rfl, rfl, rfl, rfl, rfl, rfl, rfl, rfl⟩

@[simp] theorem State.modUsb_fields (s : State) (f : UsbSt → UsbSt) :
    (s.modUsb f).pending = s.pending ∧ (s.modUsb f).clk = s.clk ∧ (s.modUsb f).beacon = s.beacon ∧ (s.modUsb f).free = s.free ∧ (s.modUsb f).drbg = s.drbg
    ∧ (s.modUsb f).dev = s.dev ∧ (s.modUsb f).lanterns = s.lanterns ∧ (s.modUsb f).doms = s.doms ∧ (s.modUsb f).mem = s.mem
    ∧ (s.modUsb f).eng = s.eng ∧ (s.modUsb f).fab = s.fab ∧ (s.modUsb f).sec = s.sec ∧ (s.modUsb f).bcn = s.bcn
    ∧ (s.modUsb f).ckpt = s.ckpt ∧ (s.modUsb f).hostMem = s.hostMem ∧ (s.modUsb f).irq = s.irq ∧ (s.modUsb f).lantern = s.lantern
    ∧ (s.modUsb f).dom = s.dom ∧ (s.modUsb f).memDom = s.memDom ∧ (s.modUsb f).ctl = s.ctl ∧ (s.modUsb f).frame = s.frame
    ∧ (s.modUsb f).link = s.link ∧ (s.modUsb f).ck = s.ck ∧ (s.modUsb f).mgmt.usb = f s.mgmt.usb ∧ (s.modUsb f).mgmt.fw = s.mgmt.fw
    ∧ (s.modUsb f).mgmt.mbx = s.mgmt.mbx ∧ (s.modUsb f).mgmt.nvs = s.mgmt.nvs ∧ (s.modUsb f).mgmt.smb = s.mgmt.smb
    ∧ (s.modUsb f).mgmt.jtag = s.mgmt.jtag ∧ (s.modUsb f).mgmt.pwr = s.mgmt.pwr ∧ (s.modUsb f).mgmt.gut = s.mgmt.gut
    ∧ (s.modUsb f).mgmt.regs = s.mgmt.regs ∧ (s.modUsb f).mgmt.soot = s.mgmt.soot ∧ (s.modUsb f).mgmt.pins = s.mgmt.pins
    ∧ (s.modUsb f).mgmt.start = s.mgmt.start :=
  ⟨rfl, rfl, rfl, rfl, rfl, rfl, rfl, rfl, rfl, rfl, rfl, rfl, rfl, rfl, rfl, rfl, rfl, rfl, rfl, rfl, rfl, rfl, rfl, rfl, rfl, rfl, rfl, rfl, rfl, rfl, rfl, rfl, rfl, rfl, rfl⟩

@[simp] theorem State.modSmb_fields (s : State) (f : SmbSt → SmbSt) :
    (s.modSmb f).pending = s.pending ∧ (s.modSmb f).clk = s.clk ∧ (s.modSmb f).beacon = s.beacon ∧ (s.modSmb f).free = s.free ∧ (s.modSmb f).drbg = s.drbg
    ∧ (s.modSmb f).dev = s.dev ∧ (s.modSmb f).lanterns = s.lanterns ∧ (s.modSmb f).doms = s.doms ∧ (s.modSmb f).mem = s.mem
    ∧ (s.modSmb f).eng = s.eng ∧ (s.modSmb f).fab = s.fab ∧ (s.modSmb f).sec = s.sec ∧ (s.modSmb f).bcn = s.bcn
    ∧ (s.modSmb f).ckpt = s.ckpt ∧ (s.modSmb f).hostMem = s.hostMem ∧ (s.modSmb f).irq = s.irq ∧ (s.modSmb f).lantern = s.lantern
    ∧ (s.modSmb f).dom = s.dom ∧ (s.modSmb f).memDom = s.memDom ∧ (s.modSmb f).ctl = s.ctl ∧ (s.modSmb f).frame = s.frame
    ∧ (s.modSmb f).link = s.link ∧ (s.modSmb f).ck = s.ck ∧ (s.modSmb f).mgmt.smb = f s.mgmt.smb ∧ (s.modSmb f).mgmt.fw = s.mgmt.fw
    ∧ (s.modSmb f).mgmt.mbx = s.mgmt.mbx ∧ (s.modSmb f).mgmt.nvs = s.mgmt.nvs ∧ (s.modSmb f).mgmt.usb = s.mgmt.usb
    ∧ (s.modSmb f).mgmt.jtag = s.mgmt.jtag ∧ (s.modSmb f).mgmt.pwr = s.mgmt.pwr ∧ (s.modSmb f).mgmt.gut = s.mgmt.gut
    ∧ (s.modSmb f).mgmt.regs = s.mgmt.regs ∧ (s.modSmb f).mgmt.soot = s.mgmt.soot ∧ (s.modSmb f).mgmt.pins = s.mgmt.pins
    ∧ (s.modSmb f).mgmt.start = s.mgmt.start :=
  ⟨rfl, rfl, rfl, rfl, rfl, rfl, rfl, rfl, rfl, rfl, rfl, rfl, rfl, rfl, rfl, rfl, rfl, rfl, rfl, rfl, rfl, rfl, rfl, rfl, rfl, rfl, rfl, rfl, rfl, rfl, rfl, rfl, rfl, rfl, rfl⟩

@[simp] theorem State.modJtag_fields (s : State) (f : JtagSt → JtagSt) :
    (s.modJtag f).pending = s.pending ∧ (s.modJtag f).clk = s.clk ∧ (s.modJtag f).beacon = s.beacon ∧ (s.modJtag f).free = s.free ∧ (s.modJtag f).drbg = s.drbg
    ∧ (s.modJtag f).dev = s.dev ∧ (s.modJtag f).lanterns = s.lanterns ∧ (s.modJtag f).doms = s.doms ∧ (s.modJtag f).mem = s.mem
    ∧ (s.modJtag f).eng = s.eng ∧ (s.modJtag f).fab = s.fab ∧ (s.modJtag f).sec = s.sec ∧ (s.modJtag f).bcn = s.bcn
    ∧ (s.modJtag f).ckpt = s.ckpt ∧ (s.modJtag f).hostMem = s.hostMem ∧ (s.modJtag f).irq = s.irq ∧ (s.modJtag f).lantern = s.lantern
    ∧ (s.modJtag f).dom = s.dom ∧ (s.modJtag f).memDom = s.memDom ∧ (s.modJtag f).ctl = s.ctl ∧ (s.modJtag f).frame = s.frame
    ∧ (s.modJtag f).link = s.link ∧ (s.modJtag f).ck = s.ck ∧ (s.modJtag f).mgmt.jtag = f s.mgmt.jtag
    ∧ (s.modJtag f).mgmt.fw = s.mgmt.fw ∧ (s.modJtag f).mgmt.mbx = s.mgmt.mbx ∧ (s.modJtag f).mgmt.nvs = s.mgmt.nvs
    ∧ (s.modJtag f).mgmt.usb = s.mgmt.usb ∧ (s.modJtag f).mgmt.smb = s.mgmt.smb ∧ (s.modJtag f).mgmt.pwr = s.mgmt.pwr
    ∧ (s.modJtag f).mgmt.gut = s.mgmt.gut ∧ (s.modJtag f).mgmt.regs = s.mgmt.regs ∧ (s.modJtag f).mgmt.soot = s.mgmt.soot
    ∧ (s.modJtag f).mgmt.pins = s.mgmt.pins ∧ (s.modJtag f).mgmt.start = s.mgmt.start :=
  ⟨rfl, rfl, rfl, rfl, rfl, rfl, rfl, rfl, rfl, rfl, rfl, rfl, rfl, rfl, rfl, rfl, rfl, rfl, rfl, rfl, rfl, rfl, rfl, rfl, rfl, rfl, rfl, rfl, rfl, rfl, rfl, rfl, rfl, rfl, rfl⟩

@[simp] theorem State.modPwr_fields (s : State) (f : PwrSt → PwrSt) :
    (s.modPwr f).pending = s.pending ∧ (s.modPwr f).clk = s.clk ∧ (s.modPwr f).beacon = s.beacon ∧ (s.modPwr f).free = s.free ∧ (s.modPwr f).drbg = s.drbg
    ∧ (s.modPwr f).dev = s.dev ∧ (s.modPwr f).lanterns = s.lanterns ∧ (s.modPwr f).doms = s.doms ∧ (s.modPwr f).mem = s.mem
    ∧ (s.modPwr f).eng = s.eng ∧ (s.modPwr f).fab = s.fab ∧ (s.modPwr f).sec = s.sec ∧ (s.modPwr f).bcn = s.bcn
    ∧ (s.modPwr f).ckpt = s.ckpt ∧ (s.modPwr f).hostMem = s.hostMem ∧ (s.modPwr f).irq = s.irq ∧ (s.modPwr f).lantern = s.lantern
    ∧ (s.modPwr f).dom = s.dom ∧ (s.modPwr f).memDom = s.memDom ∧ (s.modPwr f).ctl = s.ctl ∧ (s.modPwr f).frame = s.frame
    ∧ (s.modPwr f).link = s.link ∧ (s.modPwr f).ck = s.ck ∧ (s.modPwr f).mgmt.pwr = f s.mgmt.pwr ∧ (s.modPwr f).mgmt.fw = s.mgmt.fw
    ∧ (s.modPwr f).mgmt.mbx = s.mgmt.mbx ∧ (s.modPwr f).mgmt.nvs = s.mgmt.nvs ∧ (s.modPwr f).mgmt.usb = s.mgmt.usb
    ∧ (s.modPwr f).mgmt.smb = s.mgmt.smb ∧ (s.modPwr f).mgmt.jtag = s.mgmt.jtag ∧ (s.modPwr f).mgmt.gut = s.mgmt.gut
    ∧ (s.modPwr f).mgmt.regs = s.mgmt.regs ∧ (s.modPwr f).mgmt.soot = s.mgmt.soot ∧ (s.modPwr f).mgmt.pins = s.mgmt.pins
    ∧ (s.modPwr f).mgmt.start = s.mgmt.start :=
  ⟨rfl, rfl, rfl, rfl, rfl, rfl, rfl, rfl, rfl, rfl, rfl, rfl, rfl, rfl, rfl, rfl, rfl, rfl, rfl, rfl, rfl, rfl, rfl, rfl, rfl, rfl, rfl, rfl, rfl, rfl, rfl, rfl, rfl, rfl, rfl⟩

@[simp] theorem State.modGut_fields (s : State) (f : GutSt → GutSt) :
    (s.modGut f).pending = s.pending ∧ (s.modGut f).clk = s.clk ∧ (s.modGut f).beacon = s.beacon ∧ (s.modGut f).free = s.free ∧ (s.modGut f).drbg = s.drbg
    ∧ (s.modGut f).dev = s.dev ∧ (s.modGut f).lanterns = s.lanterns ∧ (s.modGut f).doms = s.doms ∧ (s.modGut f).mem = s.mem
    ∧ (s.modGut f).eng = s.eng ∧ (s.modGut f).fab = s.fab ∧ (s.modGut f).sec = s.sec ∧ (s.modGut f).bcn = s.bcn
    ∧ (s.modGut f).ckpt = s.ckpt ∧ (s.modGut f).hostMem = s.hostMem ∧ (s.modGut f).irq = s.irq ∧ (s.modGut f).lantern = s.lantern
    ∧ (s.modGut f).dom = s.dom ∧ (s.modGut f).memDom = s.memDom ∧ (s.modGut f).ctl = s.ctl ∧ (s.modGut f).frame = s.frame
    ∧ (s.modGut f).link = s.link ∧ (s.modGut f).ck = s.ck ∧ (s.modGut f).mgmt.gut = f s.mgmt.gut ∧ (s.modGut f).mgmt.fw = s.mgmt.fw
    ∧ (s.modGut f).mgmt.mbx = s.mgmt.mbx ∧ (s.modGut f).mgmt.nvs = s.mgmt.nvs ∧ (s.modGut f).mgmt.usb = s.mgmt.usb
    ∧ (s.modGut f).mgmt.smb = s.mgmt.smb ∧ (s.modGut f).mgmt.jtag = s.mgmt.jtag ∧ (s.modGut f).mgmt.pwr = s.mgmt.pwr
    ∧ (s.modGut f).mgmt.regs = s.mgmt.regs ∧ (s.modGut f).mgmt.soot = s.mgmt.soot ∧ (s.modGut f).mgmt.pins = s.mgmt.pins
    ∧ (s.modGut f).mgmt.start = s.mgmt.start :=
  ⟨rfl, rfl, rfl, rfl, rfl, rfl, rfl, rfl, rfl, rfl, rfl, rfl, rfl, rfl, rfl, rfl, rfl, rfl, rfl, rfl, rfl, rfl, rfl, rfl, rfl, rfl, rfl, rfl, rfl, rfl, rfl, rfl, rfl, rfl, rfl⟩

@[simp] theorem State.modRegs_fields (s : State) (f : RegSt → RegSt) :
    (s.modRegs f).pending = s.pending ∧ (s.modRegs f).clk = s.clk ∧ (s.modRegs f).beacon = s.beacon ∧ (s.modRegs f).free = s.free ∧ (s.modRegs f).drbg = s.drbg
    ∧ (s.modRegs f).dev = s.dev ∧ (s.modRegs f).lanterns = s.lanterns ∧ (s.modRegs f).doms = s.doms ∧ (s.modRegs f).mem = s.mem
    ∧ (s.modRegs f).eng = s.eng ∧ (s.modRegs f).fab = s.fab ∧ (s.modRegs f).sec = s.sec ∧ (s.modRegs f).bcn = s.bcn
    ∧ (s.modRegs f).ckpt = s.ckpt ∧ (s.modRegs f).hostMem = s.hostMem ∧ (s.modRegs f).irq = s.irq ∧ (s.modRegs f).lantern = s.lantern
    ∧ (s.modRegs f).dom = s.dom ∧ (s.modRegs f).memDom = s.memDom ∧ (s.modRegs f).ctl = s.ctl ∧ (s.modRegs f).frame = s.frame
    ∧ (s.modRegs f).link = s.link ∧ (s.modRegs f).ck = s.ck ∧ (s.modRegs f).mgmt.regs = f s.mgmt.regs
    ∧ (s.modRegs f).mgmt.fw = s.mgmt.fw ∧ (s.modRegs f).mgmt.mbx = s.mgmt.mbx ∧ (s.modRegs f).mgmt.nvs = s.mgmt.nvs
    ∧ (s.modRegs f).mgmt.usb = s.mgmt.usb ∧ (s.modRegs f).mgmt.smb = s.mgmt.smb ∧ (s.modRegs f).mgmt.jtag = s.mgmt.jtag
    ∧ (s.modRegs f).mgmt.pwr = s.mgmt.pwr ∧ (s.modRegs f).mgmt.gut = s.mgmt.gut ∧ (s.modRegs f).mgmt.soot = s.mgmt.soot
    ∧ (s.modRegs f).mgmt.pins = s.mgmt.pins ∧ (s.modRegs f).mgmt.start = s.mgmt.start :=
  ⟨rfl, rfl, rfl, rfl, rfl, rfl, rfl, rfl, rfl, rfl, rfl, rfl, rfl, rfl, rfl, rfl, rfl, rfl, rfl, rfl, rfl, rfl, rfl, rfl, rfl, rfl, rfl, rfl, rfl, rfl, rfl, rfl, rfl, rfl, rfl⟩

@[simp] theorem State.modSoot_fields (s : State) (f : SootSt → SootSt) :
    (s.modSoot f).pending = s.pending ∧ (s.modSoot f).clk = s.clk ∧ (s.modSoot f).beacon = s.beacon ∧ (s.modSoot f).free = s.free ∧ (s.modSoot f).drbg = s.drbg
    ∧ (s.modSoot f).dev = s.dev ∧ (s.modSoot f).lanterns = s.lanterns ∧ (s.modSoot f).doms = s.doms ∧ (s.modSoot f).mem = s.mem
    ∧ (s.modSoot f).eng = s.eng ∧ (s.modSoot f).fab = s.fab ∧ (s.modSoot f).sec = s.sec ∧ (s.modSoot f).bcn = s.bcn
    ∧ (s.modSoot f).ckpt = s.ckpt ∧ (s.modSoot f).hostMem = s.hostMem ∧ (s.modSoot f).irq = s.irq ∧ (s.modSoot f).lantern = s.lantern
    ∧ (s.modSoot f).dom = s.dom ∧ (s.modSoot f).memDom = s.memDom ∧ (s.modSoot f).ctl = s.ctl ∧ (s.modSoot f).frame = s.frame
    ∧ (s.modSoot f).link = s.link ∧ (s.modSoot f).ck = s.ck ∧ (s.modSoot f).mgmt.soot = f s.mgmt.soot
    ∧ (s.modSoot f).mgmt.fw = s.mgmt.fw ∧ (s.modSoot f).mgmt.mbx = s.mgmt.mbx ∧ (s.modSoot f).mgmt.nvs = s.mgmt.nvs
    ∧ (s.modSoot f).mgmt.usb = s.mgmt.usb ∧ (s.modSoot f).mgmt.smb = s.mgmt.smb ∧ (s.modSoot f).mgmt.jtag = s.mgmt.jtag
    ∧ (s.modSoot f).mgmt.pwr = s.mgmt.pwr ∧ (s.modSoot f).mgmt.gut = s.mgmt.gut ∧ (s.modSoot f).mgmt.regs = s.mgmt.regs
    ∧ (s.modSoot f).mgmt.pins = s.mgmt.pins ∧ (s.modSoot f).mgmt.start = s.mgmt.start :=
  ⟨rfl, rfl, rfl, rfl, rfl, rfl, rfl, rfl, rfl, rfl, rfl, rfl, rfl, rfl, rfl, rfl, rfl, rfl, rfl, rfl, rfl, rfl, rfl, rfl, rfl, rfl, rfl, rfl, rfl, rfl, rfl, rfl, rfl, rfl, rfl⟩

@[simp] theorem State.modPins_fields (s : State) (f : PinSt → PinSt) :
    (s.modPins f).pending = s.pending ∧ (s.modPins f).clk = s.clk ∧ (s.modPins f).beacon = s.beacon ∧ (s.modPins f).free = s.free ∧ (s.modPins f).drbg = s.drbg
    ∧ (s.modPins f).dev = s.dev ∧ (s.modPins f).lanterns = s.lanterns ∧ (s.modPins f).doms = s.doms ∧ (s.modPins f).mem = s.mem
    ∧ (s.modPins f).eng = s.eng ∧ (s.modPins f).fab = s.fab ∧ (s.modPins f).sec = s.sec ∧ (s.modPins f).bcn = s.bcn
    ∧ (s.modPins f).ckpt = s.ckpt ∧ (s.modPins f).hostMem = s.hostMem ∧ (s.modPins f).irq = s.irq ∧ (s.modPins f).lantern = s.lantern
    ∧ (s.modPins f).dom = s.dom ∧ (s.modPins f).memDom = s.memDom ∧ (s.modPins f).ctl = s.ctl ∧ (s.modPins f).frame = s.frame
    ∧ (s.modPins f).link = s.link ∧ (s.modPins f).ck = s.ck ∧ (s.modPins f).mgmt.pins = f s.mgmt.pins
    ∧ (s.modPins f).mgmt.fw = s.mgmt.fw ∧ (s.modPins f).mgmt.mbx = s.mgmt.mbx ∧ (s.modPins f).mgmt.nvs = s.mgmt.nvs
    ∧ (s.modPins f).mgmt.usb = s.mgmt.usb ∧ (s.modPins f).mgmt.smb = s.mgmt.smb ∧ (s.modPins f).mgmt.jtag = s.mgmt.jtag
    ∧ (s.modPins f).mgmt.pwr = s.mgmt.pwr ∧ (s.modPins f).mgmt.gut = s.mgmt.gut ∧ (s.modPins f).mgmt.regs = s.mgmt.regs
    ∧ (s.modPins f).mgmt.soot = s.mgmt.soot ∧ (s.modPins f).mgmt.start = s.mgmt.start :=
  ⟨rfl, rfl, rfl, rfl, rfl, rfl, rfl, rfl, rfl, rfl, rfl, rfl, rfl, rfl, rfl, rfl, rfl, rfl, rfl, rfl, rfl, rfl, rfl, rfl, rfl, rfl, rfl, rfl, rfl, rfl, rfl, rfl, rfl, rfl, rfl⟩

@[simp] theorem State.modSec_fields (s : State) (f : SecSt → SecSt) :
    (s.modSec f).pending = s.pending ∧ (s.modSec f).clk = s.clk ∧ (s.modSec f).beacon = s.beacon ∧ (s.modSec f).free = s.free ∧ (s.modSec f).drbg = s.drbg
    ∧ (s.modSec f).dev = s.dev ∧ (s.modSec f).lanterns = s.lanterns ∧ (s.modSec f).doms = s.doms ∧ (s.modSec f).mem = s.mem
    ∧ (s.modSec f).eng = s.eng ∧ (s.modSec f).fab = s.fab ∧ (s.modSec f).mgmt = s.mgmt ∧ (s.modSec f).bcn = s.bcn
    ∧ (s.modSec f).ckpt = s.ckpt ∧ (s.modSec f).hostMem = s.hostMem ∧ (s.modSec f).irq = s.irq ∧ (s.modSec f).lantern = s.lantern
    ∧ (s.modSec f).dom = s.dom ∧ (s.modSec f).memDom = s.memDom ∧ (s.modSec f).ctl = s.ctl ∧ (s.modSec f).frame = s.frame
    ∧ (s.modSec f).link = s.link ∧ (s.modSec f).ck = s.ck ∧ (s.modSec f).sec = f s.sec :=
  ⟨rfl, rfl, rfl, rfl, rfl, rfl, rfl, rfl, rfl, rfl, rfl, rfl, rfl, rfl, rfl, rfl, rfl, rfl, rfl, rfl, rfl, rfl, rfl, rfl⟩

@[simp] theorem State.modSpdm_fields (s : State) (f : SpdmSt → SpdmSt) :
    (s.modSpdm f).pending = s.pending ∧ (s.modSpdm f).clk = s.clk ∧ (s.modSpdm f).beacon = s.beacon ∧ (s.modSpdm f).free = s.free ∧ (s.modSpdm f).drbg = s.drbg
    ∧ (s.modSpdm f).dev = s.dev ∧ (s.modSpdm f).lanterns = s.lanterns ∧ (s.modSpdm f).doms = s.doms ∧ (s.modSpdm f).mem = s.mem
    ∧ (s.modSpdm f).eng = s.eng ∧ (s.modSpdm f).fab = s.fab ∧ (s.modSpdm f).mgmt = s.mgmt ∧ (s.modSpdm f).bcn = s.bcn
    ∧ (s.modSpdm f).ckpt = s.ckpt ∧ (s.modSpdm f).hostMem = s.hostMem ∧ (s.modSpdm f).irq = s.irq ∧ (s.modSpdm f).lantern = s.lantern
    ∧ (s.modSpdm f).dom = s.dom ∧ (s.modSpdm f).memDom = s.memDom ∧ (s.modSpdm f).ctl = s.ctl ∧ (s.modSpdm f).frame = s.frame
    ∧ (s.modSpdm f).link = s.link ∧ (s.modSpdm f).ck = s.ck ∧ (s.modSpdm f).sec = { s.sec with spdm := f s.sec.spdm } :=
  ⟨rfl, rfl, rfl, rfl, rfl, rfl, rfl, rfl, rfl, rfl, rfl, rfl, rfl, rfl, rfl, rfl, rfl, rfl, rfl, rfl, rfl, rfl, rfl, rfl⟩

@[simp] theorem State.modFab_fields (s : State) (f : FabSt → FabSt) :
    (s.modFab f).pending = s.pending ∧ (s.modFab f).clk = s.clk ∧ (s.modFab f).beacon = s.beacon ∧ (s.modFab f).free = s.free ∧ (s.modFab f).drbg = s.drbg
    ∧ (s.modFab f).dev = s.dev ∧ (s.modFab f).lanterns = s.lanterns ∧ (s.modFab f).doms = s.doms ∧ (s.modFab f).mem = s.mem
    ∧ (s.modFab f).eng = s.eng ∧ (s.modFab f).sec = s.sec ∧ (s.modFab f).mgmt = s.mgmt ∧ (s.modFab f).bcn = s.bcn
    ∧ (s.modFab f).ckpt = s.ckpt ∧ (s.modFab f).hostMem = s.hostMem ∧ (s.modFab f).irq = s.irq ∧ (s.modFab f).lantern = s.lantern
    ∧ (s.modFab f).dom = s.dom ∧ (s.modFab f).memDom = s.memDom ∧ (s.modFab f).ctl = s.ctl ∧ (s.modFab f).frame = s.frame
    ∧ (s.modFab f).ck = s.ck ∧ (s.modFab f).fab = f s.fab :=
  ⟨rfl, rfl, rfl, rfl, rfl, rfl, rfl, rfl, rfl, rfl, rfl, rfl, rfl, rfl, rfl, rfl, rfl, rfl, rfl, rfl, rfl, rfl, rfl⟩

@[simp] theorem State.setLink_fields (s : State) (n : Nat) (l : Link) :
    (s.setLink n l).pending = s.pending ∧ (s.setLink n l).clk = s.clk ∧ (s.setLink n l).beacon = s.beacon
    ∧ (s.setLink n l).free = s.free ∧ (s.setLink n l).drbg = s.drbg ∧ (s.setLink n l).dev = s.dev ∧ (s.setLink n l).lanterns = s.lanterns
    ∧ (s.setLink n l).doms = s.doms ∧ (s.setLink n l).mem = s.mem ∧ (s.setLink n l).eng = s.eng ∧ (s.setLink n l).sec = s.sec
    ∧ (s.setLink n l).mgmt = s.mgmt ∧ (s.setLink n l).bcn = s.bcn ∧ (s.setLink n l).ckpt = s.ckpt ∧ (s.setLink n l).hostMem = s.hostMem
    ∧ (s.setLink n l).irq = s.irq ∧ (s.setLink n l).lantern = s.lantern ∧ (s.setLink n l).dom = s.dom
    ∧ (s.setLink n l).memDom = s.memDom ∧ (s.setLink n l).ctl = s.ctl ∧ (s.setLink n l).frame = s.frame ∧ (s.setLink n l).ck = s.ck
    ∧ (s.setLink n l).fab = s.fab.setLink n l :=
  ⟨rfl, rfl, rfl, rfl, rfl, rfl, rfl, rfl, rfl, rfl, rfl, rfl, rfl, rfl, rfl, rfl, rfl, rfl, rfl, rfl, rfl, rfl, rfl⟩

@[simp] theorem State.modLink_fields (s : State) (n : Nat) (f : Link → Link) :
    (s.modLink n f).pending = s.pending ∧ (s.modLink n f).clk = s.clk ∧ (s.modLink n f).beacon = s.beacon
    ∧ (s.modLink n f).free = s.free ∧ (s.modLink n f).drbg = s.drbg ∧ (s.modLink n f).dev = s.dev ∧ (s.modLink n f).lanterns = s.lanterns
    ∧ (s.modLink n f).doms = s.doms ∧ (s.modLink n f).mem = s.mem ∧ (s.modLink n f).eng = s.eng ∧ (s.modLink n f).sec = s.sec
    ∧ (s.modLink n f).mgmt = s.mgmt ∧ (s.modLink n f).bcn = s.bcn ∧ (s.modLink n f).ckpt = s.ckpt ∧ (s.modLink n f).hostMem = s.hostMem
    ∧ (s.modLink n f).irq = s.irq ∧ (s.modLink n f).lantern = s.lantern ∧ (s.modLink n f).dom = s.dom
    ∧ (s.modLink n f).memDom = s.memDom ∧ (s.modLink n f).ctl = s.ctl ∧ (s.modLink n f).frame = s.frame ∧ (s.modLink n f).ck = s.ck
    ∧ (s.modLink n f).fab = s.fab.setLink n (f (s.link n)) :=
  ⟨rfl, rfl, rfl, rfl, rfl, rfl, rfl, rfl, rfl, rfl, rfl, rfl, rfl, rfl, rfl, rfl, rfl, rfl, rfl, rfl, rfl, rfl, rfl⟩

@[simp] theorem State.modBcn_fields (s : State) (f : BcnSt → BcnSt) :
    (s.modBcn f).pending = s.pending ∧ (s.modBcn f).clk = s.clk ∧ (s.modBcn f).beacon = s.beacon ∧ (s.modBcn f).free = s.free ∧ (s.modBcn f).drbg = s.drbg
    ∧ (s.modBcn f).dev = s.dev ∧ (s.modBcn f).lanterns = s.lanterns ∧ (s.modBcn f).doms = s.doms ∧ (s.modBcn f).mem = s.mem
    ∧ (s.modBcn f).eng = s.eng ∧ (s.modBcn f).fab = s.fab ∧ (s.modBcn f).sec = s.sec ∧ (s.modBcn f).mgmt = s.mgmt
    ∧ (s.modBcn f).ckpt = s.ckpt ∧ (s.modBcn f).hostMem = s.hostMem ∧ (s.modBcn f).irq = s.irq ∧ (s.modBcn f).lantern = s.lantern
    ∧ (s.modBcn f).dom = s.dom ∧ (s.modBcn f).memDom = s.memDom ∧ (s.modBcn f).ctl = s.ctl ∧ (s.modBcn f).frame = s.frame
    ∧ (s.modBcn f).link = s.link ∧ (s.modBcn f).ck = s.ck ∧ (s.modBcn f).bcn = f s.bcn :=
  ⟨rfl, rfl, rfl, rfl, rfl, rfl, rfl, rfl, rfl, rfl, rfl, rfl, rfl, rfl, rfl, rfl, rfl, rfl, rfl, rfl, rfl, rfl, rfl, rfl⟩

@[simp] theorem State.setTrig_fields (s : State) (n : Nat) (t : Trig) :
    (s.setTrig n t).pending = s.pending ∧ (s.setTrig n t).clk = s.clk ∧ (s.setTrig n t).beacon = s.beacon
    ∧ (s.setTrig n t).free = s.free ∧ (s.setTrig n t).drbg = s.drbg ∧ (s.setTrig n t).dev = s.dev ∧ (s.setTrig n t).lanterns = s.lanterns
    ∧ (s.setTrig n t).doms = s.doms ∧ (s.setTrig n t).mem = s.mem ∧ (s.setTrig n t).eng = s.eng ∧ (s.setTrig n t).fab = s.fab
    ∧ (s.setTrig n t).sec = s.sec ∧ (s.setTrig n t).mgmt = s.mgmt ∧ (s.setTrig n t).ckpt = s.ckpt ∧ (s.setTrig n t).hostMem = s.hostMem
    ∧ (s.setTrig n t).irq = s.irq ∧ (s.setTrig n t).lantern = s.lantern ∧ (s.setTrig n t).dom = s.dom
    ∧ (s.setTrig n t).memDom = s.memDom ∧ (s.setTrig n t).ctl = s.ctl ∧ (s.setTrig n t).frame = s.frame ∧ (s.setTrig n t).link = s.link
    ∧ (s.setTrig n t).ck = s.ck ∧ (s.setTrig n t).bcn = { s.bcn with trigs := FMap.set {} s.bcn.trigs n t } :=
  ⟨rfl, rfl, rfl, rfl, rfl, rfl, rfl, rfl, rfl, rfl, rfl, rfl, rfl, rfl, rfl, rfl, rfl, rfl, rfl, rfl, rfl, rfl, rfl, rfl⟩

@[simp] theorem State.setDom_fields (s : State) (d : Nat) (x : Dom) :
    (s.setDom d x).pending = s.pending ∧ (s.setDom d x).clk = s.clk ∧ (s.setDom d x).beacon = s.beacon ∧ (s.setDom d x).free = s.free ∧ (s.setDom d x).drbg = s.drbg
    ∧ (s.setDom d x).dev = s.dev ∧ (s.setDom d x).lanterns = s.lanterns ∧ (s.setDom d x).mem = s.mem ∧ (s.setDom d x).eng = s.eng
    ∧ (s.setDom d x).fab = s.fab ∧ (s.setDom d x).sec = s.sec ∧ (s.setDom d x).mgmt = s.mgmt ∧ (s.setDom d x).bcn = s.bcn
    ∧ (s.setDom d x).ckpt = s.ckpt ∧ (s.setDom d x).hostMem = s.hostMem ∧ (s.setDom d x).irq = s.irq
    ∧ (s.setDom d x).lantern = s.lantern ∧ (s.setDom d x).memDom = s.memDom ∧ (s.setDom d x).ctl = s.ctl
    ∧ (s.setDom d x).frame = s.frame ∧ (s.setDom d x).link = s.link ∧ (s.setDom d x).ck = s.ck
    ∧ (s.setDom d x).doms = FMap.set {} s.doms d x :=
  ⟨rfl, rfl, rfl, rfl, rfl, rfl, rfl, rfl, rfl, rfl, rfl, rfl, rfl, rfl, rfl, rfl, rfl, rfl, rfl, rfl, rfl, rfl, rfl⟩

@[simp] theorem State.modDom_fields (s : State) (d : Nat) (f : Dom → Dom) :
    (s.modDom d f).pending = s.pending ∧ (s.modDom d f).clk = s.clk ∧ (s.modDom d f).beacon = s.beacon ∧ (s.modDom d f).free = s.free ∧ (s.modDom d f).drbg = s.drbg
    ∧ (s.modDom d f).dev = s.dev ∧ (s.modDom d f).lanterns = s.lanterns ∧ (s.modDom d f).mem = s.mem ∧ (s.modDom d f).eng = s.eng
    ∧ (s.modDom d f).fab = s.fab ∧ (s.modDom d f).sec = s.sec ∧ (s.modDom d f).mgmt = s.mgmt ∧ (s.modDom d f).bcn = s.bcn
    ∧ (s.modDom d f).ckpt = s.ckpt ∧ (s.modDom d f).hostMem = s.hostMem ∧ (s.modDom d f).irq = s.irq
    ∧ (s.modDom d f).lantern = s.lantern ∧ (s.modDom d f).memDom = s.memDom ∧ (s.modDom d f).ctl = s.ctl
    ∧ (s.modDom d f).frame = s.frame ∧ (s.modDom d f).link = s.link ∧ (s.modDom d f).ck = s.ck
    ∧ (s.modDom d f).doms = FMap.set {} s.doms d (f (s.dom d)) :=
  ⟨rfl, rfl, rfl, rfl, rfl, rfl, rfl, rfl, rfl, rfl, rfl, rfl, rfl, rfl, rfl, rfl, rfl, rfl, rfl, rfl, rfl, rfl, rfl⟩

@[simp] theorem State.setCtx_fields (s : State) (d c : Nat) (x : Ctx) :
    (s.setCtx d c x).pending = s.pending ∧ (s.setCtx d c x).clk = s.clk ∧ (s.setCtx d c x).beacon = s.beacon
    ∧ (s.setCtx d c x).free = s.free ∧ (s.setCtx d c x).drbg = s.drbg ∧ (s.setCtx d c x).dev = s.dev ∧ (s.setCtx d c x).lanterns = s.lanterns
    ∧ (s.setCtx d c x).mem = s.mem ∧ (s.setCtx d c x).eng = s.eng ∧ (s.setCtx d c x).fab = s.fab ∧ (s.setCtx d c x).sec = s.sec
    ∧ (s.setCtx d c x).mgmt = s.mgmt ∧ (s.setCtx d c x).bcn = s.bcn ∧ (s.setCtx d c x).ckpt = s.ckpt
    ∧ (s.setCtx d c x).hostMem = s.hostMem ∧ (s.setCtx d c x).irq = s.irq ∧ (s.setCtx d c x).lantern = s.lantern
    ∧ (s.setCtx d c x).memDom = s.memDom ∧ (s.setCtx d c x).ctl = s.ctl ∧ (s.setCtx d c x).frame = s.frame
    ∧ (s.setCtx d c x).link = s.link ∧ (s.setCtx d c x).ck = s.ck :=
  ⟨rfl, rfl, rfl, rfl, rfl, rfl, rfl, rfl, rfl, rfl, rfl, rfl, rfl, rfl, rfl, rfl, rfl, rfl, rfl, rfl, rfl, rfl⟩

@[simp] theorem State.setQueue_fields (s : State) (d q : Nat) (x : SQueue) :
    (s.setQueue d q x).pending = s.pending ∧ (s.setQueue d q x).clk = s.clk ∧ (s.setQueue d q x).beacon = s.beacon
    ∧ (s.setQueue d q x).free = s.free ∧ (s.setQueue d q x).drbg = s.drbg ∧ (s.setQueue d q x).dev = s.dev ∧ (s.setQueue d q x).lanterns = s.lanterns
    ∧ (s.setQueue d q x).mem = s.mem ∧ (s.setQueue d q x).eng = s.eng ∧ (s.setQueue d q x).fab = s.fab ∧ (s.setQueue d q x).sec = s.sec
    ∧ (s.setQueue d q x).mgmt = s.mgmt ∧ (s.setQueue d q x).bcn = s.bcn ∧ (s.setQueue d q x).ckpt = s.ckpt
    ∧ (s.setQueue d q x).hostMem = s.hostMem ∧ (s.setQueue d q x).irq = s.irq ∧ (s.setQueue d q x).lantern = s.lantern
    ∧ (s.setQueue d q x).memDom = s.memDom ∧ (s.setQueue d q x).ctl = s.ctl ∧ (s.setQueue d q x).frame = s.frame
    ∧ (s.setQueue d q x).link = s.link ∧ (s.setQueue d q x).ck = s.ck :=
  ⟨rfl, rfl, rfl, rfl, rfl, rfl, rfl, rfl, rfl, rfl, rfl, rfl, rfl, rfl, rfl, rfl, rfl, rfl, rfl, rfl, rfl, rfl⟩

@[simp] theorem State.setLantern_fields (s : State) (l : Nat) (x : Lantern) :
    (s.setLantern l x).pending = s.pending ∧ (s.setLantern l x).clk = s.clk ∧ (s.setLantern l x).beacon = s.beacon
    ∧ (s.setLantern l x).free = s.free ∧ (s.setLantern l x).drbg = s.drbg ∧ (s.setLantern l x).dev = s.dev ∧ (s.setLantern l x).doms = s.doms
    ∧ (s.setLantern l x).mem = s.mem ∧ (s.setLantern l x).eng = s.eng ∧ (s.setLantern l x).fab = s.fab ∧ (s.setLantern l x).sec = s.sec
    ∧ (s.setLantern l x).mgmt = s.mgmt ∧ (s.setLantern l x).bcn = s.bcn ∧ (s.setLantern l x).ckpt = s.ckpt
    ∧ (s.setLantern l x).hostMem = s.hostMem ∧ (s.setLantern l x).irq = s.irq ∧ (s.setLantern l x).dom = s.dom
    ∧ (s.setLantern l x).memDom = s.memDom ∧ (s.setLantern l x).ctl = s.ctl ∧ (s.setLantern l x).frame = s.frame
    ∧ (s.setLantern l x).link = s.link ∧ (s.setLantern l x).ck = s.ck ∧ (s.setLantern l x).lanterns = FMap.set {} s.lanterns l x :=
  ⟨rfl, rfl, rfl, rfl, rfl, rfl, rfl, rfl, rfl, rfl, rfl, rfl, rfl, rfl, rfl, rfl, rfl, rfl, rfl, rfl, rfl, rfl, rfl⟩

@[simp] theorem State.modLantern_fields (s : State) (l : Nat) (f : Lantern → Lantern) :
    (s.modLantern l f).pending = s.pending ∧ (s.modLantern l f).clk = s.clk ∧ (s.modLantern l f).beacon = s.beacon
    ∧ (s.modLantern l f).free = s.free ∧ (s.modLantern l f).drbg = s.drbg ∧ (s.modLantern l f).dev = s.dev ∧ (s.modLantern l f).doms = s.doms
    ∧ (s.modLantern l f).mem = s.mem ∧ (s.modLantern l f).eng = s.eng ∧ (s.modLantern l f).fab = s.fab ∧ (s.modLantern l f).sec = s.sec
    ∧ (s.modLantern l f).mgmt = s.mgmt ∧ (s.modLantern l f).bcn = s.bcn ∧ (s.modLantern l f).ckpt = s.ckpt
    ∧ (s.modLantern l f).hostMem = s.hostMem ∧ (s.modLantern l f).irq = s.irq ∧ (s.modLantern l f).dom = s.dom
    ∧ (s.modLantern l f).memDom = s.memDom ∧ (s.modLantern l f).ctl = s.ctl ∧ (s.modLantern l f).frame = s.frame
    ∧ (s.modLantern l f).link = s.link ∧ (s.modLantern l f).ck = s.ck
    ∧ (s.modLantern l f).lanterns = FMap.set {} s.lanterns l (f (s.lantern l)) :=
  ⟨rfl, rfl, rfl, rfl, rfl, rfl, rfl, rfl, rfl, rfl, rfl, rfl, rfl, rfl, rfl, rfl, rfl, rfl, rfl, rfl, rfl, rfl, rfl⟩

@[simp] theorem State.setCtl_fields (s : State) (c : Nat) (x : MemCtl) :
    (s.setCtl c x).pending = s.pending ∧ (s.setCtl c x).clk = s.clk ∧ (s.setCtl c x).beacon = s.beacon ∧ (s.setCtl c x).free = s.free ∧ (s.setCtl c x).drbg = s.drbg
    ∧ (s.setCtl c x).dev = s.dev ∧ (s.setCtl c x).lanterns = s.lanterns ∧ (s.setCtl c x).doms = s.doms ∧ (s.setCtl c x).eng = s.eng
    ∧ (s.setCtl c x).fab = s.fab ∧ (s.setCtl c x).sec = s.sec ∧ (s.setCtl c x).mgmt = s.mgmt ∧ (s.setCtl c x).bcn = s.bcn
    ∧ (s.setCtl c x).ckpt = s.ckpt ∧ (s.setCtl c x).hostMem = s.hostMem ∧ (s.setCtl c x).irq = s.irq
    ∧ (s.setCtl c x).lantern = s.lantern ∧ (s.setCtl c x).dom = s.dom ∧ (s.setCtl c x).link = s.link ∧ (s.setCtl c x).ck = s.ck
    ∧ (s.setCtl c x).mem.frames = s.mem.frames ∧ (s.setCtl c x).mem.data = s.mem.data ∧ (s.setCtl c x).mem.bad = s.mem.bad
    ∧ (s.setCtl c x).mem.corrs = s.mem.corrs ∧ (s.setCtl c x).memDom = s.memDom ∧ (s.setCtl c x).frame = s.frame :=
  ⟨rfl, rfl, rfl, rfl, rfl, rfl, rfl, rfl, rfl, rfl, rfl, rfl, rfl, rfl, rfl, rfl, rfl, rfl, rfl, rfl, rfl, rfl, rfl, rfl, rfl, rfl⟩

@[simp] theorem State.modCtl_fields (s : State) (c : Nat) (f : MemCtl → MemCtl) :
    (s.modCtl c f).pending = s.pending ∧ (s.modCtl c f).clk = s.clk ∧ (s.modCtl c f).beacon = s.beacon ∧ (s.modCtl c f).free = s.free ∧ (s.modCtl c f).drbg = s.drbg
    ∧ (s.modCtl c f).dev = s.dev ∧ (s.modCtl c f).lanterns = s.lanterns ∧ (s.modCtl c f).doms = s.doms ∧ (s.modCtl c f).eng = s.eng
    ∧ (s.modCtl c f).fab = s.fab ∧ (s.modCtl c f).sec = s.sec ∧ (s.modCtl c f).mgmt = s.mgmt ∧ (s.modCtl c f).bcn = s.bcn
    ∧ (s.modCtl c f).ckpt = s.ckpt ∧ (s.modCtl c f).hostMem = s.hostMem ∧ (s.modCtl c f).irq = s.irq
    ∧ (s.modCtl c f).lantern = s.lantern ∧ (s.modCtl c f).dom = s.dom ∧ (s.modCtl c f).link = s.link ∧ (s.modCtl c f).ck = s.ck
    ∧ (s.modCtl c f).mem.frames = s.mem.frames ∧ (s.modCtl c f).mem.data = s.mem.data ∧ (s.modCtl c f).mem.bad = s.mem.bad
    ∧ (s.modCtl c f).mem.corrs = s.mem.corrs ∧ (s.modCtl c f).memDom = s.memDom ∧ (s.modCtl c f).frame = s.frame :=
  ⟨rfl, rfl, rfl, rfl, rfl, rfl, rfl, rfl, rfl, rfl, rfl, rfl, rfl, rfl, rfl, rfl, rfl, rfl, rfl, rfl, rfl, rfl, rfl, rfl, rfl, rfl⟩

@[simp] theorem State.setMemDom_fields (s : State) (d : Nat) (x : MemDom) :
    (s.setMemDom d x).pending = s.pending ∧ (s.setMemDom d x).clk = s.clk ∧ (s.setMemDom d x).beacon = s.beacon
    ∧ (s.setMemDom d x).free = s.free ∧ (s.setMemDom d x).drbg = s.drbg ∧ (s.setMemDom d x).dev = s.dev ∧ (s.setMemDom d x).lanterns = s.lanterns
    ∧ (s.setMemDom d x).doms = s.doms ∧ (s.setMemDom d x).eng = s.eng ∧ (s.setMemDom d x).fab = s.fab ∧ (s.setMemDom d x).sec = s.sec
    ∧ (s.setMemDom d x).mgmt = s.mgmt ∧ (s.setMemDom d x).bcn = s.bcn ∧ (s.setMemDom d x).ckpt = s.ckpt
    ∧ (s.setMemDom d x).hostMem = s.hostMem ∧ (s.setMemDom d x).irq = s.irq ∧ (s.setMemDom d x).lantern = s.lantern
    ∧ (s.setMemDom d x).dom = s.dom ∧ (s.setMemDom d x).link = s.link ∧ (s.setMemDom d x).ck = s.ck
    ∧ (s.setMemDom d x).mem.frames = s.mem.frames ∧ (s.setMemDom d x).mem.data = s.mem.data ∧ (s.setMemDom d x).mem.bad = s.mem.bad
    ∧ (s.setMemDom d x).mem.corrs = s.mem.corrs ∧ (s.setMemDom d x).ctl = s.ctl ∧ (s.setMemDom d x).frame = s.frame :=
  ⟨rfl, rfl, rfl, rfl, rfl, rfl, rfl, rfl, rfl, rfl, rfl, rfl, rfl, rfl, rfl, rfl, rfl, rfl, rfl, rfl, rfl, rfl, rfl, rfl, rfl, rfl⟩

@[simp] theorem State.setComm_fields (s : State) (d i : Nat) (x : Comm) :
    (s.setComm d i x).pending = s.pending ∧ (s.setComm d i x).clk = s.clk ∧ (s.setComm d i x).beacon = s.beacon
    ∧ (s.setComm d i x).free = s.free ∧ (s.setComm d i x).drbg = s.drbg ∧ (s.setComm d i x).dev = s.dev ∧ (s.setComm d i x).lanterns = s.lanterns
    ∧ (s.setComm d i x).doms = s.doms ∧ (s.setComm d i x).mem = s.mem ∧ (s.setComm d i x).fab = s.fab ∧ (s.setComm d i x).sec = s.sec
    ∧ (s.setComm d i x).mgmt = s.mgmt ∧ (s.setComm d i x).bcn = s.bcn ∧ (s.setComm d i x).ckpt = s.ckpt
    ∧ (s.setComm d i x).hostMem = s.hostMem ∧ (s.setComm d i x).irq = s.irq ∧ (s.setComm d i x).lantern = s.lantern
    ∧ (s.setComm d i x).dom = s.dom ∧ (s.setComm d i x).memDom = s.memDom ∧ (s.setComm d i x).ctl = s.ctl
    ∧ (s.setComm d i x).frame = s.frame ∧ (s.setComm d i x).link = s.link ∧ (s.setComm d i x).ck = s.ck :=
  ⟨rfl, rfl, rfl, rfl, rfl, rfl, rfl, rfl, rfl, rfl, rfl, rfl, rfl, rfl, rfl, rfl, rfl, rfl, rfl, rfl, rfl, rfl, rfl⟩

@[simp] theorem State.dropComm_fields (s : State) (d i : Nat) :
    (s.dropComm d i).pending = s.pending ∧ (s.dropComm d i).clk = s.clk ∧ (s.dropComm d i).beacon = s.beacon
    ∧ (s.dropComm d i).free = s.free ∧ (s.dropComm d i).drbg = s.drbg ∧ (s.dropComm d i).dev = s.dev ∧ (s.dropComm d i).lanterns = s.lanterns
    ∧ (s.dropComm d i).doms = s.doms ∧ (s.dropComm d i).mem = s.mem ∧ (s.dropComm d i).fab = s.fab ∧ (s.dropComm d i).sec = s.sec
    ∧ (s.dropComm d i).mgmt = s.mgmt ∧ (s.dropComm d i).bcn = s.bcn ∧ (s.dropComm d i).ckpt = s.ckpt
    ∧ (s.dropComm d i).hostMem = s.hostMem ∧ (s.dropComm d i).irq = s.irq ∧ (s.dropComm d i).lantern = s.lantern
    ∧ (s.dropComm d i).dom = s.dom ∧ (s.dropComm d i).memDom = s.memDom ∧ (s.dropComm d i).ctl = s.ctl
    ∧ (s.dropComm d i).frame = s.frame ∧ (s.dropComm d i).link = s.link ∧ (s.dropComm d i).ck = s.ck :=
  ⟨rfl, rfl, rfl, rfl, rfl, rfl, rfl, rfl, rfl, rfl, rfl, rfl, rfl, rfl, rfl, rfl, rfl, rfl, rfl, rfl, rfl, rfl, rfl⟩

@[simp] theorem State.modColl_fields (s : State) (n : Nat) (f : CollEng → CollEng) :
    (s.modColl n f).pending = s.pending ∧ (s.modColl n f).clk = s.clk ∧ (s.modColl n f).beacon = s.beacon
    ∧ (s.modColl n f).free = s.free ∧ (s.modColl n f).drbg = s.drbg ∧ (s.modColl n f).dev = s.dev ∧ (s.modColl n f).lanterns = s.lanterns
    ∧ (s.modColl n f).doms = s.doms ∧ (s.modColl n f).mem = s.mem ∧ (s.modColl n f).fab = s.fab ∧ (s.modColl n f).sec = s.sec
    ∧ (s.modColl n f).mgmt = s.mgmt ∧ (s.modColl n f).bcn = s.bcn ∧ (s.modColl n f).ckpt = s.ckpt ∧ (s.modColl n f).hostMem = s.hostMem
    ∧ (s.modColl n f).irq = s.irq ∧ (s.modColl n f).lantern = s.lantern ∧ (s.modColl n f).dom = s.dom
    ∧ (s.modColl n f).memDom = s.memDom ∧ (s.modColl n f).ctl = s.ctl ∧ (s.modColl n f).frame = s.frame ∧ (s.modColl n f).link = s.link
    ∧ (s.modColl n f).ck = s.ck :=
  ⟨rfl, rfl, rfl, rfl, rfl, rfl, rfl, rfl, rfl, rfl, rfl, rfl, rfl, rfl, rfl, rfl, rfl, rfl, rfl, rfl, rfl, rfl, rfl⟩

@[simp] theorem State.modUpdEng_fields (s : State) (n : Nat) (f : UpdEng → UpdEng) :
    (s.modUpdEng n f).pending = s.pending ∧ (s.modUpdEng n f).clk = s.clk ∧ (s.modUpdEng n f).beacon = s.beacon
    ∧ (s.modUpdEng n f).free = s.free ∧ (s.modUpdEng n f).drbg = s.drbg ∧ (s.modUpdEng n f).dev = s.dev ∧ (s.modUpdEng n f).lanterns = s.lanterns
    ∧ (s.modUpdEng n f).doms = s.doms ∧ (s.modUpdEng n f).mem = s.mem ∧ (s.modUpdEng n f).fab = s.fab ∧ (s.modUpdEng n f).sec = s.sec
    ∧ (s.modUpdEng n f).mgmt = s.mgmt ∧ (s.modUpdEng n f).bcn = s.bcn ∧ (s.modUpdEng n f).ckpt = s.ckpt
    ∧ (s.modUpdEng n f).hostMem = s.hostMem ∧ (s.modUpdEng n f).irq = s.irq ∧ (s.modUpdEng n f).lantern = s.lantern
    ∧ (s.modUpdEng n f).dom = s.dom ∧ (s.modUpdEng n f).memDom = s.memDom ∧ (s.modUpdEng n f).ctl = s.ctl
    ∧ (s.modUpdEng n f).frame = s.frame ∧ (s.modUpdEng n f).link = s.link ∧ (s.modUpdEng n f).ck = s.ck :=
  ⟨rfl, rfl, rfl, rfl, rfl, rfl, rfl, rfl, rfl, rfl, rfl, rfl, rfl, rfl, rfl, rfl, rfl, rfl, rfl, rfl, rfl, rfl, rfl⟩

@[simp] theorem State.setCk_fields (s : State) (d : Nat) (x : Ckpt) :
    (s.setCk d x).pending = s.pending ∧ (s.setCk d x).clk = s.clk ∧ (s.setCk d x).beacon = s.beacon ∧ (s.setCk d x).free = s.free ∧ (s.setCk d x).drbg = s.drbg
    ∧ (s.setCk d x).dev = s.dev ∧ (s.setCk d x).lanterns = s.lanterns ∧ (s.setCk d x).doms = s.doms ∧ (s.setCk d x).mem = s.mem
    ∧ (s.setCk d x).eng = s.eng ∧ (s.setCk d x).fab = s.fab ∧ (s.setCk d x).sec = s.sec ∧ (s.setCk d x).mgmt = s.mgmt
    ∧ (s.setCk d x).bcn = s.bcn ∧ (s.setCk d x).hostMem = s.hostMem ∧ (s.setCk d x).irq = s.irq ∧ (s.setCk d x).lantern = s.lantern
    ∧ (s.setCk d x).dom = s.dom ∧ (s.setCk d x).memDom = s.memDom ∧ (s.setCk d x).ctl = s.ctl ∧ (s.setCk d x).frame = s.frame
    ∧ (s.setCk d x).link = s.link ∧ (s.setCk d x).ckpt = FMap.set {} s.ckpt d x :=
  ⟨rfl, rfl, rfl, rfl, rfl, rfl, rfl, rfl, rfl, rfl, rfl, rfl, rfl, rfl, rfl, rfl, rfl, rfl, rfl, rfl, rfl, rfl, rfl⟩

@[simp] theorem State.modCk_fields (s : State) (d : Nat) (f : Ckpt → Ckpt) :
    (s.modCk d f).pending = s.pending ∧ (s.modCk d f).clk = s.clk ∧ (s.modCk d f).beacon = s.beacon ∧ (s.modCk d f).free = s.free ∧ (s.modCk d f).drbg = s.drbg
    ∧ (s.modCk d f).dev = s.dev ∧ (s.modCk d f).lanterns = s.lanterns ∧ (s.modCk d f).doms = s.doms ∧ (s.modCk d f).mem = s.mem
    ∧ (s.modCk d f).eng = s.eng ∧ (s.modCk d f).fab = s.fab ∧ (s.modCk d f).sec = s.sec ∧ (s.modCk d f).mgmt = s.mgmt
    ∧ (s.modCk d f).bcn = s.bcn ∧ (s.modCk d f).hostMem = s.hostMem ∧ (s.modCk d f).irq = s.irq ∧ (s.modCk d f).lantern = s.lantern
    ∧ (s.modCk d f).dom = s.dom ∧ (s.modCk d f).memDom = s.memDom ∧ (s.modCk d f).ctl = s.ctl ∧ (s.modCk d f).frame = s.frame
    ∧ (s.modCk d f).link = s.link ∧ (s.modCk d f).ckpt = FMap.set {} s.ckpt d (f (s.ck d)) :=
  ⟨rfl, rfl, rfl, rfl, rfl, rfl, rfl, rfl, rfl, rfl, rfl, rfl, rfl, rfl, rfl, rfl, rfl, rfl, rfl, rfl, rfl, rfl, rfl⟩

@[simp] theorem State.drew_fields (s : State) (n : Nat) :
    (s.drew n).pending = s.pending ∧ (s.drew n).clk = s.clk ∧ (s.drew n).beacon = s.beacon ∧ (s.drew n).dev = s.dev
    ∧ (s.drew n).lanterns = s.lanterns ∧ (s.drew n).doms = s.doms ∧ (s.drew n).mem = s.mem ∧ (s.drew n).eng = s.eng
    ∧ (s.drew n).fab = s.fab ∧ (s.drew n).sec = s.sec ∧ (s.drew n).mgmt = s.mgmt ∧ (s.drew n).bcn = s.bcn
    ∧ (s.drew n).ckpt = s.ckpt ∧ (s.drew n).hostMem = s.hostMem ∧ (s.drew n).irq = s.irq ∧ (s.drew n).lantern = s.lantern
    ∧ (s.drew n).dom = s.dom ∧ (s.drew n).memDom = s.memDom ∧ (s.drew n).ctl = s.ctl ∧ (s.drew n).frame = s.frame
    ∧ (s.drew n).link = s.link ∧ (s.drew n).ck = s.ck ∧ (s.drew n).free = s.free + n :=
  ⟨rfl, rfl, rfl, rfl, rfl, rfl, rfl, rfl, rfl, rfl, rfl, rfl, rfl, rfl, rfl, rfl, rfl, rfl, rfl, rfl, rfl, rfl, rfl⟩

@[simp] theorem State.drewBytes_fields (s : State) (n : Nat) :
    (s.drewBytes n).pending = s.pending ∧ (s.drewBytes n).clk = s.clk ∧ (s.drewBytes n).beacon = s.beacon
    ∧ (s.drewBytes n).dev = s.dev ∧ (s.drewBytes n).lanterns = s.lanterns ∧ (s.drewBytes n).doms = s.doms
    ∧ (s.drewBytes n).mem = s.mem ∧ (s.drewBytes n).eng = s.eng ∧ (s.drewBytes n).fab = s.fab ∧ (s.drewBytes n).sec = s.sec
    ∧ (s.drewBytes n).mgmt = s.mgmt ∧ (s.drewBytes n).bcn = s.bcn ∧ (s.drewBytes n).ckpt = s.ckpt
    ∧ (s.drewBytes n).hostMem = s.hostMem ∧ (s.drewBytes n).irq = s.irq ∧ (s.drewBytes n).lantern = s.lantern
    ∧ (s.drewBytes n).dom = s.dom ∧ (s.drewBytes n).memDom = s.memDom ∧ (s.drewBytes n).ctl = s.ctl
    ∧ (s.drewBytes n).frame = s.frame ∧ (s.drewBytes n).link = s.link ∧ (s.drewBytes n).ck = s.ck
    ∧ (s.drewBytes n).free = s.free + (n + 7) / 8 :=
  ⟨rfl, rfl, rfl, rfl, rfl, rfl, rfl, rfl, rfl, rfl, rfl, rfl, rfl, rfl, rfl, rfl, rfl, rfl, rfl, rfl, rfl, rfl, rfl⟩

@[simp] theorem State.drewKey_fields (s : State) (n : Nat) :
    (s.drewKey n).pending = s.pending ∧ (s.drewKey n).clk = s.clk ∧ (s.drewKey n).beacon = s.beacon ∧ (s.drewKey n).dev = s.dev
    ∧ (s.drewKey n).lanterns = s.lanterns ∧ (s.drewKey n).doms = s.doms ∧ (s.drewKey n).mem = s.mem ∧ (s.drewKey n).eng = s.eng
    ∧ (s.drewKey n).fab = s.fab ∧ (s.drewKey n).sec = s.sec ∧ (s.drewKey n).mgmt = s.mgmt ∧ (s.drewKey n).bcn = s.bcn
    ∧ (s.drewKey n).ckpt = s.ckpt ∧ (s.drewKey n).hostMem = s.hostMem ∧ (s.drewKey n).irq = s.irq
    ∧ (s.drewKey n).lantern = s.lantern ∧ (s.drewKey n).dom = s.dom ∧ (s.drewKey n).memDom = s.memDom ∧ (s.drewKey n).ctl = s.ctl
    ∧ (s.drewKey n).frame = s.frame ∧ (s.drewKey n).link = s.link ∧ (s.drewKey n).ck = s.ck :=
  ⟨rfl, rfl, rfl, rfl, rfl, rfl, rfl, rfl, rfl, rfl, rfl, rfl, rfl, rfl, rfl, rfl, rfl, rfl, rfl, rfl, rfl, rfl⟩

@[simp] theorem State.onFab_fields (s : State) (f : FabSt → FabSt) :
    (s.onFab f).pending = s.pending ∧ (s.onFab f).clk = s.clk ∧ (s.onFab f).beacon = s.beacon ∧ (s.onFab f).free = s.free
    ∧ (s.onFab f).drbg = s.drbg ∧ (s.onFab f).dev = s.dev ∧ (s.onFab f).lanterns = s.lanterns ∧ (s.onFab f).doms = s.doms
    ∧ (s.onFab f).mem = s.mem ∧ (s.onFab f).eng = s.eng ∧ (s.onFab f).sec = s.sec ∧ (s.onFab f).mgmt = s.mgmt
    ∧ (s.onFab f).bcn = s.bcn ∧ (s.onFab f).ckpt = s.ckpt ∧ (s.onFab f).hostMem = s.hostMem ∧ (s.onFab f).irq = s.irq
    ∧ (s.onFab f).lantern = s.lantern ∧ (s.onFab f).dom = s.dom ∧ (s.onFab f).memDom = s.memDom ∧ (s.onFab f).ctl = s.ctl
    ∧ (s.onFab f).frame = s.frame ∧ (s.onFab f).ck = s.ck ∧ (s.onFab f).fab = (f s.fab).pump s.clk :=
  ⟨rfl, rfl, rfl, rfl, rfl, rfl, rfl, rfl, rfl, rfl, rfl, rfl, rfl, rfl, rfl, rfl, rfl, rfl, rfl, rfl, rfl, rfl, rfl⟩

@[simp] theorem State.send_fields (s : State) (p : Pkt) :
    (s.send p).pending = s.pending ∧ (s.send p).clk = s.clk ∧ (s.send p).beacon = s.beacon ∧ (s.send p).free = s.free
    ∧ (s.send p).drbg = s.drbg ∧ (s.send p).dev = s.dev ∧ (s.send p).lanterns = s.lanterns ∧ (s.send p).doms = s.doms
    ∧ (s.send p).mem = s.mem ∧ (s.send p).eng = s.eng ∧ (s.send p).sec = s.sec ∧ (s.send p).mgmt = s.mgmt ∧ (s.send p).bcn = s.bcn
    ∧ (s.send p).ckpt = s.ckpt ∧ (s.send p).hostMem = s.hostMem ∧ (s.send p).irq = s.irq ∧ (s.send p).lantern = s.lantern
    ∧ (s.send p).dom = s.dom ∧ (s.send p).memDom = s.memDom ∧ (s.send p).ctl = s.ctl ∧ (s.send p).frame = s.frame
    ∧ (s.send p).ck = s.ck :=
  ⟨rfl, rfl, rfl, rfl, rfl, rfl, rfl, rfl, rfl, rfl, rfl, rfl, rfl, rfl, rfl, rfl, rfl, rfl, rfl, rfl, rfl, rfl⟩

@[simp] theorem State.freeIn_fields (s : State) (p : Pkt) :
    (s.freeIn p).pending = s.pending ∧ (s.freeIn p).clk = s.clk ∧ (s.freeIn p).beacon = s.beacon ∧ (s.freeIn p).free = s.free
    ∧ (s.freeIn p).drbg = s.drbg ∧ (s.freeIn p).dev = s.dev ∧ (s.freeIn p).lanterns = s.lanterns ∧ (s.freeIn p).doms = s.doms
    ∧ (s.freeIn p).mem = s.mem ∧ (s.freeIn p).eng = s.eng ∧ (s.freeIn p).sec = s.sec ∧ (s.freeIn p).mgmt = s.mgmt
    ∧ (s.freeIn p).bcn = s.bcn ∧ (s.freeIn p).ckpt = s.ckpt ∧ (s.freeIn p).hostMem = s.hostMem ∧ (s.freeIn p).irq = s.irq
    ∧ (s.freeIn p).lantern = s.lantern ∧ (s.freeIn p).dom = s.dom ∧ (s.freeIn p).memDom = s.memDom ∧ (s.freeIn p).ctl = s.ctl
    ∧ (s.freeIn p).frame = s.frame ∧ (s.freeIn p).ck = s.ck ∧ (s.freeIn p).fab = s.fab.freeIn p :=
  ⟨rfl, rfl, rfl, rfl, rfl, rfl, rfl, rfl, rfl, rfl, rfl, rfl, rfl, rfl, rfl, rfl, rfl, rfl, rfl, rfl, rfl, rfl, rfl⟩

@[simp] theorem State.setReqs_fields (s : State) (n : Nat) (l : List Pkt) :
    (s.setReqs n l).pending = s.pending ∧ (s.setReqs n l).clk = s.clk ∧ (s.setReqs n l).beacon = s.beacon
    ∧ (s.setReqs n l).free = s.free ∧ (s.setReqs n l).drbg = s.drbg ∧ (s.setReqs n l).dev = s.dev
    ∧ (s.setReqs n l).lanterns = s.lanterns ∧ (s.setReqs n l).doms = s.doms ∧ (s.setReqs n l).mem = s.mem
    ∧ (s.setReqs n l).eng = s.eng ∧ (s.setReqs n l).sec = s.sec ∧ (s.setReqs n l).mgmt = s.mgmt ∧ (s.setReqs n l).bcn = s.bcn
    ∧ (s.setReqs n l).ckpt = s.ckpt ∧ (s.setReqs n l).hostMem = s.hostMem ∧ (s.setReqs n l).irq = s.irq
    ∧ (s.setReqs n l).lantern = s.lantern ∧ (s.setReqs n l).dom = s.dom ∧ (s.setReqs n l).memDom = s.memDom
    ∧ (s.setReqs n l).ctl = s.ctl ∧ (s.setReqs n l).frame = s.frame ∧ (s.setReqs n l).ck = s.ck
    ∧ (s.setReqs n l).fab.reqs = FMap.set [] s.fab.reqs n l :=
  ⟨rfl, rfl, rfl, rfl, rfl, rfl, rfl, rfl, rfl, rfl, rfl, rfl, rfl, rfl, rfl, rfl, rfl, rfl, rfl, rfl, rfl, rfl, rfl⟩

@[simp] theorem State.dropHeld_fields (s : State) (x : BitVec 16) :
    (s.dropHeld x).pending = s.pending ∧ (s.dropHeld x).clk = s.clk ∧ (s.dropHeld x).beacon = s.beacon
    ∧ (s.dropHeld x).free = s.free ∧ (s.dropHeld x).drbg = s.drbg ∧ (s.dropHeld x).dev = s.dev
    ∧ (s.dropHeld x).lanterns = s.lanterns ∧ (s.dropHeld x).doms = s.doms ∧ (s.dropHeld x).mem = s.mem ∧ (s.dropHeld x).eng = s.eng
    ∧ (s.dropHeld x).sec = s.sec ∧ (s.dropHeld x).mgmt = s.mgmt ∧ (s.dropHeld x).bcn = s.bcn ∧ (s.dropHeld x).ckpt = s.ckpt
    ∧ (s.dropHeld x).hostMem = s.hostMem ∧ (s.dropHeld x).irq = s.irq ∧ (s.dropHeld x).lantern = s.lantern
    ∧ (s.dropHeld x).dom = s.dom ∧ (s.dropHeld x).memDom = s.memDom ∧ (s.dropHeld x).ctl = s.ctl ∧ (s.dropHeld x).frame = s.frame
    ∧ (s.dropHeld x).ck = s.ck :=
  ⟨rfl, rfl, rfl, rfl, rfl, rfl, rfl, rfl, rfl, rfl, rfl, rfl, rfl, rfl, rfl, rfl, rfl, rfl, rfl, rfl, rfl, rfl⟩

@[simp] theorem State.modFabDom_fields (s : State) (d : Nat) (f : FabDom → FabDom) :
    (s.modFabDom d f).pending = s.pending ∧ (s.modFabDom d f).clk = s.clk ∧ (s.modFabDom d f).beacon = s.beacon
    ∧ (s.modFabDom d f).free = s.free ∧ (s.modFabDom d f).drbg = s.drbg ∧ (s.modFabDom d f).dev = s.dev
    ∧ (s.modFabDom d f).lanterns = s.lanterns ∧ (s.modFabDom d f).doms = s.doms ∧ (s.modFabDom d f).mem = s.mem
    ∧ (s.modFabDom d f).eng = s.eng ∧ (s.modFabDom d f).sec = s.sec ∧ (s.modFabDom d f).mgmt = s.mgmt
    ∧ (s.modFabDom d f).bcn = s.bcn ∧ (s.modFabDom d f).ckpt = s.ckpt ∧ (s.modFabDom d f).hostMem = s.hostMem
    ∧ (s.modFabDom d f).irq = s.irq ∧ (s.modFabDom d f).lantern = s.lantern ∧ (s.modFabDom d f).dom = s.dom
    ∧ (s.modFabDom d f).memDom = s.memDom ∧ (s.modFabDom d f).ctl = s.ctl ∧ (s.modFabDom d f).frame = s.frame
    ∧ (s.modFabDom d f).ck = s.ck ∧ (s.modFabDom d f).fab.doms = FMap.modify {} s.fab.doms d f :=
  ⟨rfl, rfl, rfl, rfl, rfl, rfl, rfl, rfl, rfl, rfl, rfl, rfl, rfl, rfl, rfl, rfl, rfl, rfl, rfl, rfl, rfl, rfl, rfl⟩

@[simp] theorem State.modUpd_fields (s : State) (n : Nat) (f : Upd → Upd) :
    (s.modUpd n f).pending = s.pending ∧ (s.modUpd n f).clk = s.clk ∧ (s.modUpd n f).beacon = s.beacon
    ∧ (s.modUpd n f).free = s.free ∧ (s.modUpd n f).drbg = s.drbg ∧ (s.modUpd n f).dev = s.dev
    ∧ (s.modUpd n f).lanterns = s.lanterns ∧ (s.modUpd n f).doms = s.doms ∧ (s.modUpd n f).mem = s.mem ∧ (s.modUpd n f).fab = s.fab
    ∧ (s.modUpd n f).sec = s.sec ∧ (s.modUpd n f).mgmt = s.mgmt ∧ (s.modUpd n f).bcn = s.bcn ∧ (s.modUpd n f).ckpt = s.ckpt
    ∧ (s.modUpd n f).hostMem = s.hostMem ∧ (s.modUpd n f).irq = s.irq ∧ (s.modUpd n f).lantern = s.lantern
    ∧ (s.modUpd n f).dom = s.dom ∧ (s.modUpd n f).memDom = s.memDom ∧ (s.modUpd n f).ctl = s.ctl ∧ (s.modUpd n f).frame = s.frame
    ∧ (s.modUpd n f).link = s.link ∧ (s.modUpd n f).ck = s.ck :=
  ⟨rfl, rfl, rfl, rfl, rfl, rfl, rfl, rfl, rfl, rfl, rfl, rfl, rfl, rfl, rfl, rfl, rfl, rfl, rfl, rfl, rfl, rfl, rfl⟩

@[simp] theorem State.modJoint_fields (s : State) (d : Nat) (f : DomSec → DomSec) :
    (s.modJoint d f).pending = s.pending ∧ (s.modJoint d f).clk = s.clk ∧ (s.modJoint d f).beacon = s.beacon
    ∧ (s.modJoint d f).free = s.free ∧ (s.modJoint d f).drbg = s.drbg ∧ (s.modJoint d f).dev = s.dev
    ∧ (s.modJoint d f).lanterns = s.lanterns ∧ (s.modJoint d f).doms = s.doms ∧ (s.modJoint d f).mem = s.mem
    ∧ (s.modJoint d f).eng = s.eng ∧ (s.modJoint d f).fab = s.fab ∧ (s.modJoint d f).mgmt = s.mgmt ∧ (s.modJoint d f).bcn = s.bcn
    ∧ (s.modJoint d f).ckpt = s.ckpt ∧ (s.modJoint d f).hostMem = s.hostMem ∧ (s.modJoint d f).irq = s.irq
    ∧ (s.modJoint d f).lantern = s.lantern ∧ (s.modJoint d f).dom = s.dom ∧ (s.modJoint d f).memDom = s.memDom
    ∧ (s.modJoint d f).ctl = s.ctl ∧ (s.modJoint d f).frame = s.frame ∧ (s.modJoint d f).link = s.link ∧ (s.modJoint d f).ck = s.ck
    ∧ (s.modJoint d f).sec = s.sec.setDom d (f (s.sec.dom d)) :=
  ⟨rfl, rfl, rfl, rfl, rfl, rfl, rfl, rfl, rfl, rfl, rfl, rfl, rfl, rfl, rfl, rfl, rfl, rfl, rfl, rfl, rfl, rfl, rfl, rfl⟩

@[simp] theorem State.dropCtx_fields (s : State) (d c : Nat) :
    (s.dropCtx d c).pending = s.pending ∧ (s.dropCtx d c).clk = s.clk ∧ (s.dropCtx d c).beacon = s.beacon
    ∧ (s.dropCtx d c).free = s.free ∧ (s.dropCtx d c).drbg = s.drbg ∧ (s.dropCtx d c).dev = s.dev
    ∧ (s.dropCtx d c).lanterns = s.lanterns ∧ (s.dropCtx d c).mem = s.mem ∧ (s.dropCtx d c).eng = s.eng
    ∧ (s.dropCtx d c).fab = s.fab ∧ (s.dropCtx d c).sec = s.sec ∧ (s.dropCtx d c).mgmt = s.mgmt ∧ (s.dropCtx d c).bcn = s.bcn
    ∧ (s.dropCtx d c).ckpt = s.ckpt ∧ (s.dropCtx d c).hostMem = s.hostMem ∧ (s.dropCtx d c).irq = s.irq
    ∧ (s.dropCtx d c).lantern = s.lantern ∧ (s.dropCtx d c).memDom = s.memDom ∧ (s.dropCtx d c).ctl = s.ctl
    ∧ (s.dropCtx d c).frame = s.frame ∧ (s.dropCtx d c).link = s.link ∧ (s.dropCtx d c).ck = s.ck :=
  ⟨rfl, rfl, rfl, rfl, rfl, rfl, rfl, rfl, rfl, rfl, rfl, rfl, rfl, rfl, rfl, rfl, rfl, rfl, rfl, rfl, rfl, rfl⟩

@[simp] theorem State.modCtx_fields (s : State) (d c : Nat) (f : Ctx → Ctx) :
    (s.modCtx d c f).pending = s.pending ∧ (s.modCtx d c f).clk = s.clk ∧ (s.modCtx d c f).beacon = s.beacon
    ∧ (s.modCtx d c f).free = s.free ∧ (s.modCtx d c f).drbg = s.drbg ∧ (s.modCtx d c f).dev = s.dev
    ∧ (s.modCtx d c f).lanterns = s.lanterns ∧ (s.modCtx d c f).mem = s.mem ∧ (s.modCtx d c f).eng = s.eng
    ∧ (s.modCtx d c f).fab = s.fab ∧ (s.modCtx d c f).sec = s.sec ∧ (s.modCtx d c f).mgmt = s.mgmt ∧ (s.modCtx d c f).bcn = s.bcn
    ∧ (s.modCtx d c f).ckpt = s.ckpt ∧ (s.modCtx d c f).hostMem = s.hostMem ∧ (s.modCtx d c f).irq = s.irq
    ∧ (s.modCtx d c f).lantern = s.lantern ∧ (s.modCtx d c f).memDom = s.memDom ∧ (s.modCtx d c f).ctl = s.ctl
    ∧ (s.modCtx d c f).frame = s.frame ∧ (s.modCtx d c f).link = s.link ∧ (s.modCtx d c f).ck = s.ck := by
  unfold State.modCtx; split <;> simp

@[simp] theorem State.setWickAt_fields (s : State) (d c k : Nat) (w : Wick) :
    (s.setWickAt d c k w).pending = s.pending ∧ (s.setWickAt d c k w).clk = s.clk ∧ (s.setWickAt d c k w).beacon = s.beacon
    ∧ (s.setWickAt d c k w).free = s.free ∧ (s.setWickAt d c k w).drbg = s.drbg ∧ (s.setWickAt d c k w).dev = s.dev
    ∧ (s.setWickAt d c k w).lanterns = s.lanterns ∧ (s.setWickAt d c k w).mem = s.mem ∧ (s.setWickAt d c k w).eng = s.eng
    ∧ (s.setWickAt d c k w).fab = s.fab ∧ (s.setWickAt d c k w).sec = s.sec ∧ (s.setWickAt d c k w).mgmt = s.mgmt
    ∧ (s.setWickAt d c k w).bcn = s.bcn ∧ (s.setWickAt d c k w).ckpt = s.ckpt ∧ (s.setWickAt d c k w).hostMem = s.hostMem
    ∧ (s.setWickAt d c k w).irq = s.irq ∧ (s.setWickAt d c k w).lantern = s.lantern ∧ (s.setWickAt d c k w).memDom = s.memDom
    ∧ (s.setWickAt d c k w).ctl = s.ctl ∧ (s.setWickAt d c k w).frame = s.frame ∧ (s.setWickAt d c k w).link = s.link
    ∧ (s.setWickAt d c k w).ck = s.ck := by
  simp [State.setWickAt]

@[simp] theorem State.setLmem_fields (s : State) (d c k : Nat) (lant : Bool) (m : Memory) :
    (s.setLmem d c k lant m).pending = s.pending ∧ (s.setLmem d c k lant m).clk = s.clk
    ∧ (s.setLmem d c k lant m).beacon = s.beacon ∧ (s.setLmem d c k lant m).free = s.free ∧ (s.setLmem d c k lant m).drbg = s.drbg
    ∧ (s.setLmem d c k lant m).dev = s.dev ∧ (s.setLmem d c k lant m).lanterns = s.lanterns ∧ (s.setLmem d c k lant m).mem = s.mem
    ∧ (s.setLmem d c k lant m).eng = s.eng ∧ (s.setLmem d c k lant m).fab = s.fab ∧ (s.setLmem d c k lant m).sec = s.sec
    ∧ (s.setLmem d c k lant m).mgmt = s.mgmt ∧ (s.setLmem d c k lant m).bcn = s.bcn ∧ (s.setLmem d c k lant m).ckpt = s.ckpt
    ∧ (s.setLmem d c k lant m).hostMem = s.hostMem ∧ (s.setLmem d c k lant m).irq = s.irq
    ∧ (s.setLmem d c k lant m).lantern = s.lantern ∧ (s.setLmem d c k lant m).memDom = s.memDom
    ∧ (s.setLmem d c k lant m).ctl = s.ctl ∧ (s.setLmem d c k lant m).frame = s.frame ∧ (s.setLmem d c k lant m).link = s.link
    ∧ (s.setLmem d c k lant m).ck = s.ck := by
  simp [State.setLmem]

@[simp] theorem State.modComm_fields (s : State) (d i : Nat) (f : Comm → Comm) :
    (s.modComm d i f).pending = s.pending ∧ (s.modComm d i f).clk = s.clk ∧ (s.modComm d i f).beacon = s.beacon
    ∧ (s.modComm d i f).free = s.free ∧ (s.modComm d i f).drbg = s.drbg ∧ (s.modComm d i f).dev = s.dev
    ∧ (s.modComm d i f).lanterns = s.lanterns ∧ (s.modComm d i f).doms = s.doms ∧ (s.modComm d i f).mem = s.mem
    ∧ (s.modComm d i f).fab = s.fab ∧ (s.modComm d i f).sec = s.sec ∧ (s.modComm d i f).mgmt = s.mgmt
    ∧ (s.modComm d i f).bcn = s.bcn ∧ (s.modComm d i f).ckpt = s.ckpt ∧ (s.modComm d i f).hostMem = s.hostMem
    ∧ (s.modComm d i f).irq = s.irq ∧ (s.modComm d i f).lantern = s.lantern ∧ (s.modComm d i f).dom = s.dom
    ∧ (s.modComm d i f).memDom = s.memDom ∧ (s.modComm d i f).ctl = s.ctl ∧ (s.modComm d i f).frame = s.frame
    ∧ (s.modComm d i f).link = s.link ∧ (s.modComm d i f).ck = s.ck := by
  unfold State.modComm; split <;> simp

@[simp] theorem State.modOp_fields (s : State) (d i seq : Nat) (f : CollOp → CollOp) :
    (s.modOp d i seq f).pending = s.pending ∧ (s.modOp d i seq f).clk = s.clk ∧ (s.modOp d i seq f).beacon = s.beacon
    ∧ (s.modOp d i seq f).free = s.free ∧ (s.modOp d i seq f).drbg = s.drbg ∧ (s.modOp d i seq f).dev = s.dev
    ∧ (s.modOp d i seq f).lanterns = s.lanterns ∧ (s.modOp d i seq f).doms = s.doms ∧ (s.modOp d i seq f).mem = s.mem
    ∧ (s.modOp d i seq f).fab = s.fab ∧ (s.modOp d i seq f).sec = s.sec ∧ (s.modOp d i seq f).mgmt = s.mgmt
    ∧ (s.modOp d i seq f).bcn = s.bcn ∧ (s.modOp d i seq f).ckpt = s.ckpt ∧ (s.modOp d i seq f).hostMem = s.hostMem
    ∧ (s.modOp d i seq f).irq = s.irq ∧ (s.modOp d i seq f).lantern = s.lantern ∧ (s.modOp d i seq f).dom = s.dom
    ∧ (s.modOp d i seq f).memDom = s.memDom ∧ (s.modOp d i seq f).ctl = s.ctl ∧ (s.modOp d i seq f).frame = s.frame
    ∧ (s.modOp d i seq f).link = s.link ∧ (s.modOp d i seq f).ck = s.ck := by
  simp [State.modOp]

@[simp] theorem State.modMbx_fields (s : State) (fn : Nat) (f : Mbx → Mbx) :
    (s.modMbx fn f).pending = s.pending ∧ (s.modMbx fn f).clk = s.clk ∧ (s.modMbx fn f).beacon = s.beacon
    ∧ (s.modMbx fn f).free = s.free ∧ (s.modMbx fn f).drbg = s.drbg ∧ (s.modMbx fn f).dev = s.dev
    ∧ (s.modMbx fn f).lanterns = s.lanterns ∧ (s.modMbx fn f).doms = s.doms ∧ (s.modMbx fn f).mem = s.mem
    ∧ (s.modMbx fn f).eng = s.eng ∧ (s.modMbx fn f).fab = s.fab ∧ (s.modMbx fn f).sec = s.sec ∧ (s.modMbx fn f).bcn = s.bcn
    ∧ (s.modMbx fn f).ckpt = s.ckpt ∧ (s.modMbx fn f).hostMem = s.hostMem ∧ (s.modMbx fn f).irq = s.irq
    ∧ (s.modMbx fn f).lantern = s.lantern ∧ (s.modMbx fn f).dom = s.dom ∧ (s.modMbx fn f).memDom = s.memDom
    ∧ (s.modMbx fn f).ctl = s.ctl ∧ (s.modMbx fn f).frame = s.frame ∧ (s.modMbx fn f).link = s.link ∧ (s.modMbx fn f).ck = s.ck
    ∧ (s.modMbx fn f).mgmt.fw = s.mgmt.fw ∧ (s.modMbx fn f).mgmt.nvs = s.mgmt.nvs ∧ (s.modMbx fn f).mgmt.usb = s.mgmt.usb
    ∧ (s.modMbx fn f).mgmt.smb = s.mgmt.smb ∧ (s.modMbx fn f).mgmt.jtag = s.mgmt.jtag ∧ (s.modMbx fn f).mgmt.pwr = s.mgmt.pwr
    ∧ (s.modMbx fn f).mgmt.gut = s.mgmt.gut ∧ (s.modMbx fn f).mgmt.regs = s.mgmt.regs ∧ (s.modMbx fn f).mgmt.soot = s.mgmt.soot
    ∧ (s.modMbx fn f).mgmt.pins = s.mgmt.pins ∧ (s.modMbx fn f).mgmt.start = s.mgmt.start
    ∧ (s.modMbx fn f).mgmt.mbx = FMap.modify {} s.mgmt.mbx fn f :=
  ⟨rfl, rfl, rfl, rfl, rfl, rfl, rfl, rfl, rfl, rfl, rfl, rfl, rfl, rfl, rfl, rfl, rfl, rfl, rfl, rfl, rfl, rfl, rfl, rfl, rfl, rfl, rfl, rfl, rfl, rfl, rfl, rfl, rfl, rfl, rfl⟩

@[simp] theorem State.raiseIrq_fields (s : State) (fn vec : Nat) :
    (s.raiseIrq fn vec).pending = s.pending ∧ (s.raiseIrq fn vec).clk = s.clk ∧ (s.raiseIrq fn vec).beacon = s.beacon
    ∧ (s.raiseIrq fn vec).free = s.free ∧ (s.raiseIrq fn vec).drbg = s.drbg ∧ (s.raiseIrq fn vec).dev = s.dev
    ∧ (s.raiseIrq fn vec).lanterns = s.lanterns ∧ (s.raiseIrq fn vec).doms = s.doms ∧ (s.raiseIrq fn vec).mem = s.mem
    ∧ (s.raiseIrq fn vec).eng = s.eng ∧ (s.raiseIrq fn vec).fab = s.fab ∧ (s.raiseIrq fn vec).sec = s.sec
    ∧ (s.raiseIrq fn vec).bcn = s.bcn ∧ (s.raiseIrq fn vec).ckpt = s.ckpt ∧ (s.raiseIrq fn vec).hostMem = s.hostMem
    ∧ (s.raiseIrq fn vec).lantern = s.lantern ∧ (s.raiseIrq fn vec).dom = s.dom ∧ (s.raiseIrq fn vec).memDom = s.memDom
    ∧ (s.raiseIrq fn vec).ctl = s.ctl ∧ (s.raiseIrq fn vec).frame = s.frame ∧ (s.raiseIrq fn vec).link = s.link
    ∧ (s.raiseIrq fn vec).ck = s.ck ∧ (s.raiseIrq fn vec).mgmt.fw = s.mgmt.fw ∧ (s.raiseIrq fn vec).mgmt.mbx = s.mgmt.mbx
    ∧ (s.raiseIrq fn vec).mgmt.nvs = s.mgmt.nvs ∧ (s.raiseIrq fn vec).mgmt.usb = s.mgmt.usb
    ∧ (s.raiseIrq fn vec).mgmt.smb = s.mgmt.smb ∧ (s.raiseIrq fn vec).mgmt.jtag = s.mgmt.jtag
    ∧ (s.raiseIrq fn vec).mgmt.pwr = s.mgmt.pwr ∧ (s.raiseIrq fn vec).mgmt.gut = s.mgmt.gut
    ∧ (s.raiseIrq fn vec).mgmt.soot = s.mgmt.soot ∧ (s.raiseIrq fn vec).mgmt.pins = s.mgmt.pins
    ∧ (s.raiseIrq fn vec).mgmt.start = s.mgmt.start := by
  unfold State.raiseIrq; split <;> exact ⟨rfl, rfl, rfl, rfl, rfl, rfl, rfl, rfl, rfl, rfl, rfl, rfl, rfl, rfl, rfl, rfl, rfl, rfl, rfl, rfl, rfl, rfl, rfl, rfl, rfl, rfl, rfl, rfl, rfl, rfl, rfl, rfl, rfl⟩

@[simp] theorem State.sootWrite_fields (s : State) (e : SootE) :
    (s.sootWrite e).pending = s.pending ∧ (s.sootWrite e).clk = s.clk ∧ (s.sootWrite e).beacon = s.beacon
    ∧ (s.sootWrite e).free = s.free ∧ (s.sootWrite e).drbg = s.drbg ∧ (s.sootWrite e).dev = s.dev
    ∧ (s.sootWrite e).lanterns = s.lanterns ∧ (s.sootWrite e).doms = s.doms ∧ (s.sootWrite e).mem = s.mem
    ∧ (s.sootWrite e).eng = s.eng ∧ (s.sootWrite e).fab = s.fab ∧ (s.sootWrite e).sec = s.sec ∧ (s.sootWrite e).bcn = s.bcn
    ∧ (s.sootWrite e).ckpt = s.ckpt ∧ (s.sootWrite e).lantern = s.lantern ∧ (s.sootWrite e).dom = s.dom
    ∧ (s.sootWrite e).memDom = s.memDom ∧ (s.sootWrite e).ctl = s.ctl ∧ (s.sootWrite e).frame = s.frame
    ∧ (s.sootWrite e).link = s.link ∧ (s.sootWrite e).ck = s.ck ∧ (s.sootWrite e).mgmt.fw = s.mgmt.fw
    ∧ (s.sootWrite e).mgmt.mbx = s.mgmt.mbx ∧ (s.sootWrite e).mgmt.nvs = s.mgmt.nvs ∧ (s.sootWrite e).mgmt.usb = s.mgmt.usb
    ∧ (s.sootWrite e).mgmt.smb = s.mgmt.smb ∧ (s.sootWrite e).mgmt.jtag = s.mgmt.jtag ∧ (s.sootWrite e).mgmt.pwr = s.mgmt.pwr
    ∧ (s.sootWrite e).mgmt.gut = s.mgmt.gut ∧ (s.sootWrite e).mgmt.pins = s.mgmt.pins ∧ (s.sootWrite e).mgmt.start = s.mgmt.start := by
  unfold State.sootWrite; dsimp only; split <;> try split
  all_goals (try simp); and_intros <;> rfl

@[simp] theorem State.sootLog_fields (s : State) (core level point : Nat) (args : List Nat) (dom : Nat) :
    (s.sootLog core level point args dom).pending = s.pending ∧ (s.sootLog core level point args dom).clk = s.clk
    ∧ (s.sootLog core level point args dom).beacon = s.beacon ∧ (s.sootLog core level point args dom).free = s.free
    ∧ (s.sootLog core level point args dom).drbg = s.drbg ∧ (s.sootLog core level point args dom).dev = s.dev
    ∧ (s.sootLog core level point args dom).lanterns = s.lanterns ∧ (s.sootLog core level point args dom).doms = s.doms
    ∧ (s.sootLog core level point args dom).mem = s.mem ∧ (s.sootLog core level point args dom).eng = s.eng
    ∧ (s.sootLog core level point args dom).fab = s.fab ∧ (s.sootLog core level point args dom).sec = s.sec
    ∧ (s.sootLog core level point args dom).bcn = s.bcn ∧ (s.sootLog core level point args dom).ckpt = s.ckpt
    ∧ (s.sootLog core level point args dom).lantern = s.lantern ∧ (s.sootLog core level point args dom).dom = s.dom
    ∧ (s.sootLog core level point args dom).memDom = s.memDom ∧ (s.sootLog core level point args dom).ctl = s.ctl
    ∧ (s.sootLog core level point args dom).frame = s.frame ∧ (s.sootLog core level point args dom).link = s.link
    ∧ (s.sootLog core level point args dom).ck = s.ck ∧ (s.sootLog core level point args dom).mgmt.fw = s.mgmt.fw
    ∧ (s.sootLog core level point args dom).mgmt.mbx = s.mgmt.mbx ∧ (s.sootLog core level point args dom).mgmt.nvs = s.mgmt.nvs
    ∧ (s.sootLog core level point args dom).mgmt.usb = s.mgmt.usb ∧ (s.sootLog core level point args dom).mgmt.smb = s.mgmt.smb
    ∧ (s.sootLog core level point args dom).mgmt.jtag = s.mgmt.jtag ∧ (s.sootLog core level point args dom).mgmt.pwr = s.mgmt.pwr
    ∧ (s.sootLog core level point args dom).mgmt.gut = s.mgmt.gut ∧ (s.sootLog core level point args dom).mgmt.pins = s.mgmt.pins
    ∧ (s.sootLog core level point args dom).mgmt.start = s.mgmt.start := by
  unfold State.sootLog; dsimp only; split <;> try split <;> try split
  all_goals simp
  all_goals (and_intros <;> rfl)

@[simp] theorem State.logErr_fields (s : State) (d : Nat) (r : ERec) :
    (s.logErr d r).pending = s.pending ∧ (s.logErr d r).clk = s.clk ∧ (s.logErr d r).beacon = s.beacon
    ∧ (s.logErr d r).free = s.free ∧ (s.logErr d r).drbg = s.drbg ∧ (s.logErr d r).dev = s.dev
    ∧ (s.logErr d r).lanterns = s.lanterns ∧ (s.logErr d r).mem = s.mem ∧ (s.logErr d r).eng = s.eng ∧ (s.logErr d r).fab = s.fab
    ∧ (s.logErr d r).sec = s.sec ∧ (s.logErr d r).bcn = s.bcn ∧ (s.logErr d r).ckpt = s.ckpt ∧ (s.logErr d r).hostMem = s.hostMem
    ∧ (s.logErr d r).lantern = s.lantern ∧ (s.logErr d r).memDom = s.memDom ∧ (s.logErr d r).ctl = s.ctl
    ∧ (s.logErr d r).frame = s.frame ∧ (s.logErr d r).link = s.link ∧ (s.logErr d r).ck = s.ck ∧ (s.logErr d r).mgmt.fw = s.mgmt.fw
    ∧ (s.logErr d r).mgmt.mbx = s.mgmt.mbx ∧ (s.logErr d r).mgmt.nvs = s.mgmt.nvs ∧ (s.logErr d r).mgmt.usb = s.mgmt.usb
    ∧ (s.logErr d r).mgmt.smb = s.mgmt.smb ∧ (s.logErr d r).mgmt.jtag = s.mgmt.jtag ∧ (s.logErr d r).mgmt.pwr = s.mgmt.pwr
    ∧ (s.logErr d r).mgmt.gut = s.mgmt.gut ∧ (s.logErr d r).mgmt.soot = s.mgmt.soot ∧ (s.logErr d r).mgmt.pins = s.mgmt.pins
    ∧ (s.logErr d r).mgmt.start = s.mgmt.start := by
  unfold State.logErr; dsimp only; split <;> simp

@[simp] theorem State.answer_fields (s : State) (r : AccRsp) :
    (s.answer r).pending = s.pending ∧ (s.answer r).clk = s.clk ∧ (s.answer r).beacon = s.beacon ∧ (s.answer r).free = s.free
    ∧ (s.answer r).drbg = s.drbg ∧ (s.answer r).dev = s.dev ∧ (s.answer r).lanterns = s.lanterns ∧ (s.answer r).doms = s.doms
    ∧ (s.answer r).mem = s.mem ∧ (s.answer r).eng = s.eng ∧ (s.answer r).fab = s.fab ∧ (s.answer r).sec = s.sec
    ∧ (s.answer r).bcn = s.bcn ∧ (s.answer r).ckpt = s.ckpt ∧ (s.answer r).hostMem = s.hostMem ∧ (s.answer r).irq = s.irq
    ∧ (s.answer r).lantern = s.lantern ∧ (s.answer r).dom = s.dom ∧ (s.answer r).memDom = s.memDom ∧ (s.answer r).ctl = s.ctl
    ∧ (s.answer r).frame = s.frame ∧ (s.answer r).link = s.link ∧ (s.answer r).ck = s.ck ∧ (s.answer r).mgmt.fw = s.mgmt.fw
    ∧ (s.answer r).mgmt.mbx = s.mgmt.mbx ∧ (s.answer r).mgmt.nvs = s.mgmt.nvs ∧ (s.answer r).mgmt.usb = s.mgmt.usb
    ∧ (s.answer r).mgmt.smb = s.mgmt.smb ∧ (s.answer r).mgmt.jtag = s.mgmt.jtag ∧ (s.answer r).mgmt.pwr = s.mgmt.pwr
    ∧ (s.answer r).mgmt.gut = s.mgmt.gut ∧ (s.answer r).mgmt.soot = s.mgmt.soot ∧ (s.answer r).mgmt.pins = s.mgmt.pins
    ∧ (s.answer r).mgmt.start = s.mgmt.start :=
  ⟨rfl, rfl, rfl, rfl, rfl, rfl, rfl, rfl, rfl, rfl, rfl, rfl, rfl, rfl, rfl, rfl, rfl, rfl, rfl, rfl, rfl, rfl, rfl, rfl, rfl, rfl, rfl, rfl, rfl, rfl, rfl, rfl, rfl, rfl⟩

@[simp] theorem State.usbReply_fields (s : State) (b : List Byte) :
    (s.usbReply b).pending = s.pending ∧ (s.usbReply b).clk = s.clk ∧ (s.usbReply b).beacon = s.beacon
    ∧ (s.usbReply b).free = s.free ∧ (s.usbReply b).drbg = s.drbg ∧ (s.usbReply b).dev = s.dev
    ∧ (s.usbReply b).lanterns = s.lanterns ∧ (s.usbReply b).doms = s.doms ∧ (s.usbReply b).mem = s.mem ∧ (s.usbReply b).eng = s.eng
    ∧ (s.usbReply b).fab = s.fab ∧ (s.usbReply b).sec = s.sec ∧ (s.usbReply b).bcn = s.bcn ∧ (s.usbReply b).ckpt = s.ckpt
    ∧ (s.usbReply b).hostMem = s.hostMem ∧ (s.usbReply b).irq = s.irq ∧ (s.usbReply b).lantern = s.lantern
    ∧ (s.usbReply b).dom = s.dom ∧ (s.usbReply b).memDom = s.memDom ∧ (s.usbReply b).ctl = s.ctl ∧ (s.usbReply b).frame = s.frame
    ∧ (s.usbReply b).link = s.link ∧ (s.usbReply b).ck = s.ck ∧ (s.usbReply b).mgmt.fw = s.mgmt.fw
    ∧ (s.usbReply b).mgmt.mbx = s.mgmt.mbx ∧ (s.usbReply b).mgmt.nvs = s.mgmt.nvs ∧ (s.usbReply b).mgmt.smb = s.mgmt.smb
    ∧ (s.usbReply b).mgmt.jtag = s.mgmt.jtag ∧ (s.usbReply b).mgmt.pwr = s.mgmt.pwr ∧ (s.usbReply b).mgmt.gut = s.mgmt.gut
    ∧ (s.usbReply b).mgmt.regs = s.mgmt.regs ∧ (s.usbReply b).mgmt.soot = s.mgmt.soot ∧ (s.usbReply b).mgmt.pins = s.mgmt.pins
    ∧ (s.usbReply b).mgmt.start = s.mgmt.start :=
  ⟨rfl, rfl, rfl, rfl, rfl, rfl, rfl, rfl, rfl, rfl, rfl, rfl, rfl, rfl, rfl, rfl, rfl, rfl, rfl, rfl, rfl, rfl, rfl, rfl, rfl, rfl, rfl, rfl, rfl, rfl, rfl, rfl, rfl, rfl⟩

@[simp] theorem State.setPlan_fields (s : State) (l : Nat) (x : Plan) :
    (s.setPlan l x).pending = s.pending ∧ (s.setPlan l x).clk = s.clk ∧ (s.setPlan l x).beacon = s.beacon
    ∧ (s.setPlan l x).free = s.free ∧ (s.setPlan l x).drbg = s.drbg ∧ (s.setPlan l x).dev = s.dev
    ∧ (s.setPlan l x).lanterns = s.lanterns ∧ (s.setPlan l x).doms = s.doms ∧ (s.setPlan l x).mem = s.mem
    ∧ (s.setPlan l x).eng = s.eng ∧ (s.setPlan l x).fab = s.fab ∧ (s.setPlan l x).sec = s.sec ∧ (s.setPlan l x).bcn = s.bcn
    ∧ (s.setPlan l x).ckpt = s.ckpt ∧ (s.setPlan l x).hostMem = s.hostMem ∧ (s.setPlan l x).irq = s.irq
    ∧ (s.setPlan l x).lantern = s.lantern ∧ (s.setPlan l x).dom = s.dom ∧ (s.setPlan l x).memDom = s.memDom
    ∧ (s.setPlan l x).ctl = s.ctl ∧ (s.setPlan l x).frame = s.frame ∧ (s.setPlan l x).link = s.link ∧ (s.setPlan l x).ck = s.ck
    ∧ (s.setPlan l x).mgmt.fw = s.mgmt.fw ∧ (s.setPlan l x).mgmt.mbx = s.mgmt.mbx ∧ (s.setPlan l x).mgmt.nvs = s.mgmt.nvs
    ∧ (s.setPlan l x).mgmt.usb = s.mgmt.usb ∧ (s.setPlan l x).mgmt.smb = s.mgmt.smb ∧ (s.setPlan l x).mgmt.jtag = s.mgmt.jtag
    ∧ (s.setPlan l x).mgmt.gut = s.mgmt.gut ∧ (s.setPlan l x).mgmt.regs = s.mgmt.regs ∧ (s.setPlan l x).mgmt.soot = s.mgmt.soot
    ∧ (s.setPlan l x).mgmt.pins = s.mgmt.pins ∧ (s.setPlan l x).mgmt.start = s.mgmt.start :=
  ⟨rfl, rfl, rfl, rfl, rfl, rfl, rfl, rfl, rfl, rfl, rfl, rfl, rfl, rfl, rfl, rfl, rfl, rfl, rfl, rfl, rfl, rfl, rfl, rfl, rfl, rfl, rfl, rfl, rfl, rfl, rfl, rfl, rfl, rfl⟩

@[simp] theorem State.reply_fields (s : State) (r : SRsp) :
    (s.reply r).pending = s.pending ∧ (s.reply r).clk = s.clk ∧ (s.reply r).beacon = s.beacon ∧ (s.reply r).free = s.free
    ∧ (s.reply r).drbg = s.drbg ∧ (s.reply r).dev = s.dev ∧ (s.reply r).lanterns = s.lanterns ∧ (s.reply r).doms = s.doms
    ∧ (s.reply r).mem = s.mem ∧ (s.reply r).eng = s.eng ∧ (s.reply r).fab = s.fab ∧ (s.reply r).mgmt = s.mgmt
    ∧ (s.reply r).bcn = s.bcn ∧ (s.reply r).ckpt = s.ckpt ∧ (s.reply r).hostMem = s.hostMem ∧ (s.reply r).irq = s.irq
    ∧ (s.reply r).lantern = s.lantern ∧ (s.reply r).dom = s.dom ∧ (s.reply r).memDom = s.memDom ∧ (s.reply r).ctl = s.ctl
    ∧ (s.reply r).frame = s.frame ∧ (s.reply r).link = s.link ∧ (s.reply r).ck = s.ck :=
  ⟨rfl, rfl, rfl, rfl, rfl, rfl, rfl, rfl, rfl, rfl, rfl, rfl, rfl, rfl, rfl, rfl, rfl, rfl, rfl, rfl, rfl, rfl, rfl⟩

@[simp] theorem State.setSession_fields (s : State) (i : Nat) (x : Session) :
    (s.setSession i x).pending = s.pending ∧ (s.setSession i x).clk = s.clk ∧ (s.setSession i x).beacon = s.beacon
    ∧ (s.setSession i x).free = s.free ∧ (s.setSession i x).drbg = s.drbg ∧ (s.setSession i x).dev = s.dev
    ∧ (s.setSession i x).lanterns = s.lanterns ∧ (s.setSession i x).doms = s.doms ∧ (s.setSession i x).mem = s.mem
    ∧ (s.setSession i x).eng = s.eng ∧ (s.setSession i x).fab = s.fab ∧ (s.setSession i x).mgmt = s.mgmt
    ∧ (s.setSession i x).bcn = s.bcn ∧ (s.setSession i x).ckpt = s.ckpt ∧ (s.setSession i x).hostMem = s.hostMem
    ∧ (s.setSession i x).irq = s.irq ∧ (s.setSession i x).lantern = s.lantern ∧ (s.setSession i x).dom = s.dom
    ∧ (s.setSession i x).memDom = s.memDom ∧ (s.setSession i x).ctl = s.ctl ∧ (s.setSession i x).frame = s.frame
    ∧ (s.setSession i x).link = s.link ∧ (s.setSession i x).ck = s.ck :=
  ⟨rfl, rfl, rfl, rfl, rfl, rfl, rfl, rfl, rfl, rfl, rfl, rfl, rfl, rfl, rfl, rfl, rfl, rfl, rfl, rfl, rfl, rfl, rfl⟩

@[simp] theorem State.dropSession_fields (s : State) (i : Nat) :
    (s.dropSession i).pending = s.pending ∧ (s.dropSession i).clk = s.clk ∧ (s.dropSession i).beacon = s.beacon
    ∧ (s.dropSession i).free = s.free ∧ (s.dropSession i).drbg = s.drbg ∧ (s.dropSession i).dev = s.dev
    ∧ (s.dropSession i).lanterns = s.lanterns ∧ (s.dropSession i).doms = s.doms ∧ (s.dropSession i).mem = s.mem
    ∧ (s.dropSession i).eng = s.eng ∧ (s.dropSession i).fab = s.fab ∧ (s.dropSession i).mgmt = s.mgmt
    ∧ (s.dropSession i).bcn = s.bcn ∧ (s.dropSession i).ckpt = s.ckpt ∧ (s.dropSession i).hostMem = s.hostMem
    ∧ (s.dropSession i).irq = s.irq ∧ (s.dropSession i).lantern = s.lantern ∧ (s.dropSession i).dom = s.dom
    ∧ (s.dropSession i).memDom = s.memDom ∧ (s.dropSession i).ctl = s.ctl ∧ (s.dropSession i).frame = s.frame
    ∧ (s.dropSession i).link = s.link ∧ (s.dropSession i).ck = s.ck :=
  ⟨rfl, rfl, rfl, rfl, rfl, rfl, rfl, rfl, rfl, rfl, rfl, rfl, rfl, rfl, rfl, rfl, rfl, rfl, rfl, rfl, rfl, rfl, rfl⟩

end Sys2Proof.Machine
end

