-- ==== Sys2Proof/Laws/Memory.lean ====
section
/-! SUPPORT. Laws of byte memories: reading after writing, the canonical form that every memory operation keeps, and what the shared
operations over the tiers and the host's memory do to them. -/

namespace Sys2Proof.Machine

/-! ### One memory -/

theorem Memory.wf_wr {m : Memory} (h : Memory.wf m = true) (a : Nat) (b : Byte) : Memory.wf (Memory.wr m a b) = true := FMap.wf_set h a b

theorem Memory.rd_wr_self {m : Memory} (h : Memory.wf m = true) (a : Nat) (b : Byte) : Memory.rd (Memory.wr m a b) a = b :=
  FMap.get_set_self h a b

theorem Memory.rd_wr_ne (m : Memory) {a x : Nat} (b : Byte) (h : a ≠ x) : Memory.rd (Memory.wr m a b) x = Memory.rd m x :=
  FMap.get_set_ne 0 m b h

theorem Memory.wf_wrN (l : List Byte) : ∀ {m : Memory} (_ : Memory.wf m = true) (a : Nat), Memory.wf (Memory.wrN m a l) = true := by
  induction l with
  | nil => intro m h a; exact h
  | cons b l ih => intro m h a; exact ih (Memory.wf_wr h a b) (a + 1)

/-- A write leaves every byte outside it alone, whatever the memory. -/
theorem Memory.rd_wrN_out (l : List Byte) : ∀ (m : Memory) {a x : Nat}, x < a ∨ a + l.length ≤ x →
    Memory.rd (Memory.wrN m a l) x = Memory.rd m x := by
  induction l with
  | nil => intro m a x _; rfl
  | cons b l ih =>
    intro m a x h
    simp only [List.length_cons] at h
    show Memory.rd (Memory.wrN (Memory.wr m a b) (a + 1) l) x = _
    rw [ih (Memory.wr m a b) (by omega), Memory.rd_wr_ne m b (by omega)]

/-- A write's own bytes are read back. -/
theorem Memory.rd_wrN (l : List Byte) : ∀ {m : Memory} (_ : Memory.wf m = true) (a i : Nat) (hi : i < l.length),
    Memory.rd (Memory.wrN m a l) (a + i) = l[i] := by
  induction l with
  | nil => intro m _ a i hi; exact absurd hi (Nat.not_lt_zero i)
  | cons b l ih =>
    intro m h a i hi
    show Memory.rd (Memory.wrN (Memory.wr m a b) (a + 1) l) (a + i) = _
    cases i with
    | zero => rw [Memory.rd_wrN_out l _ (by omega)]; exact Memory.rd_wr_self h a b
    | succ i =>
      have := ih (Memory.wf_wr h a b) (a + 1) i (by simpa using hi)
      rw [show a + (i + 1) = a + 1 + i by omega, this]; simp

theorem Memory.rdN_wrN {m : Memory} (h : Memory.wf m = true) (a : Nat) (l : List Byte) : Memory.rdN (Memory.wrN m a l) a l.length = l := by
  apply List.ext_getElem
  · simp [Memory.rdN]
  · intro i h1 h2
    simp only [Memory.rdN, List.getElem_map, List.getElem_range]
    exact Memory.rd_wrN l h a i h2

theorem Memory.wf_filter {m : Memory} (h : Memory.wf m = true) (f : Host.Cell → Bool) : Memory.wf (m.filter f) = true := FMap.wf_filter h f

@[simp] theorem Memory.wf_nil : Memory.wf [] = true := FMap.wf_nil 0

/-! ### The device's memories -/

theorem State.reset_canonical : State.reset.canonical := ⟨rfl, rfl⟩

theorem State.canonical_of_eq {s t : State} (h : s.canonical) (hd : t.mem.data = s.mem.data) (hh : t.hostMem = s.hostMem) : t.canonical := by
  unfold State.canonical; rw [hd, hh]; exact h

/-- What keeps both memories in one step keeps them over a list. -/
theorem State.foldl_memories {α : Type} (f : State → α → State) (hf : ∀ t x, (f t x).mem.data = t.mem.data ∧ (f t x).hostMem = t.hostMem)
    (l : List α) : ∀ s : State, (l.foldl f s).mem.data = s.mem.data ∧ (l.foldl f s).hostMem = s.hostMem := by
  induction l with
  | nil => intro s; exact ⟨rfl, rfl⟩
  | cons x l ih => intro s; exact ⟨(ih _).1.trans (hf s x).1, (ih _).2.trans (hf s x).2⟩

/-- What keeps the canonical form in one step keeps it over a list. -/
theorem State.foldl_canonical {α : Type} (f : State → α → State) (hf : ∀ t x, t.canonical → (f t x).canonical) (l : List α) :
    ∀ s : State, s.canonical → (l.foldl f s).canonical := by
  induction l with
  | nil => intro s h; exact h
  | cons x l ih => intro s h; exact ih _ (hf s x h)

/-- A corrected event changes no byte (R244). -/
@[simp] theorem State.corrected_memories (s : State) (dpa : Nat) :
    (s.corrected dpa).mem.data = s.mem.data ∧ (s.corrected dpa).hostMem = s.hostMem := by
  unfold State.corrected; exact ⟨rfl, rfl⟩

/-- What the code corrects changes no byte (R241). -/
@[simp] theorem State.mendLine_memories (s : State) (line : Nat) :
    (s.mendLine line).mem.data = s.mem.data ∧ (s.mendLine line).hostMem = s.hostMem := by
  unfold State.mendLine; simp

/-- Opening pages and stamping lines changes no byte (R232). -/
@[simp] theorem State.touchDpa_memories (s : State) (d dpa n : Nat) :
    (s.touchDpa d dpa n).mem.data = s.mem.data ∧ (s.touchDpa d dpa n).hostMem = s.hostMem := by
  unfold State.touchDpa
  split
  · exact ⟨rfl, rfl⟩
  · exact State.foldl_memories _ (fun t x => by simp) _ _

/-- A write made at a DPA puts its bytes there and touches the host's memory not at all (R243). -/
theorem State.wrNow_memories (s : State) (d dpa : Nat) (bs : List Byte) :
    (s.wrNow d dpa bs).mem.data = Memory.wrN s.mem.data dpa bs ∧ (s.wrNow d dpa bs).hostMem = s.hostMem := by
  unfold State.wrNow
  refine ⟨(State.touchDpa_memories _ _ _ _).1, (State.touchDpa_memories _ _ _ _).2.trans ?_⟩
  exact (State.foldl_memories _ (fun t x => t.mendLine_memories x) _ s).2

/-- A write at a DPA is made at once, or held at the controller with no byte changed (R238, R240). -/
theorem State.wrDpa_memories (s : State) (d dpa : Nat) (bs : List Byte) :
    ((s.wrDpa d dpa bs).mem.data = if s.holds dpa bs.length then s.mem.data else Memory.wrN s.mem.data dpa bs)
      ∧ (s.wrDpa d dpa bs).hostMem = s.hostMem := by
  unfold State.wrDpa
  split
  · exact ⟨rfl, rfl⟩
  · exact s.wrNow_memories d dpa bs

theorem State.wrDpa_canonical {s : State} (h : s.canonical) (d dpa : Nat) (bs : List Byte) : (s.wrDpa d dpa bs).canonical := by
  have e := s.wrDpa_memories d dpa bs
  unfold State.canonical
  rw [e.1, e.2]
  refine ⟨?_, h.2⟩
  split
  · exact h.1
  · exact Memory.wf_wrN bs h.1 dpa

theorem State.wrDom_canonical {s : State} (h : s.canonical) (d off : Nat) (bs : List Byte) : (s.wrDom d off bs).canonical := by
  refine State.foldl_canonical _ (fun t p ht => ?_) _ s h
  split
  · exact State.wrDpa_canonical ht _ _ _
  · exact ht

/-- An interrupt message changes no memory (R328). -/
theorem State.raiseIrq_memories (s : State) (fn vec : Nat) : (s.raiseIrq fn vec).mem = s.mem ∧ (s.raiseIrq fn vec).hostMem = s.hostMem := by
  unfold State.raiseIrq; split <;> exact ⟨rfl, rfl⟩

/-- The Soot ring's entries are the host's bytes alone (R458). -/
theorem State.sootWrite_memories (s : State) (e : SootE) : (s.sootWrite e).mem = s.mem
    ∧ ((s.sootWrite e).hostMem = s.hostMem ∨ ∃ a bs, (s.sootWrite e).hostMem = Memory.wrN s.hostMem a bs) := by
  unfold State.sootWrite
  simp only
  split
  · split
    · refine ⟨(State.raiseIrq_memories _ _ _).1, Or.inr ⟨_, _, (State.raiseIrq_memories _ _ _).2⟩⟩
    · exact ⟨rfl, Or.inr ⟨_, _, rfl⟩⟩
  · exact ⟨rfl, Or.inl rfl⟩

theorem State.sootLog_mem (s : State) (core level point : Nat) (args : List Nat) (dom : Nat) :
    (s.sootLog core level point args dom).mem = s.mem := by
  unfold State.sootLog
  simp only
  split
  · rfl
  · split
    · exact (State.sootWrite_memories _ _).1
    · split <;> rfl

theorem State.sootLog_canonical {s : State} (h : s.canonical) (core level point : Nat) (args : List Nat) (dom : Nat) :
    (s.sootLog core level point args dom).canonical := by
  unfold State.sootLog
  simp only
  split
  · exact h
  · split
    · rename_i e
      rcases State.sootWrite_memories { s with mgmt := { s.mgmt with soot := { s.mgmt.soot with seq := (s.mgmt.soot.seq + 1) % 2 ^ 32 } } }
        { time := s.beacon, seq := s.mgmt.soot.seq, point := point, core := core, level := level, dom := dom, args := args } with ⟨hm, hh | ⟨a, bs, hh⟩⟩
      · exact State.canonical_of_eq h (by rw [hm]) hh
      · unfold State.canonical; rw [hm, hh]; exact ⟨h.1, Memory.wf_wrN bs h.2 a⟩
    · split <;> exact State.canonical_of_eq h rfl rfl

/-- A frame taken holds no byte of its own before: its lines are zero-marked (R224). -/
theorem State.takeFrame_memories (s : State) (d f : Nat) :
    (s.takeFrame d f).mem.data = s.mem.data.filter (fun p => !(decide (f ≤ p.1) && decide (p.1 < f + frameSize (decide (f / 2 ^ 41 % 2 = 1)))))
    ∧ (s.takeFrame d f).hostMem = s.hostMem := by
  unfold State.takeFrame; exact ⟨rfl, rfl⟩

theorem State.takeFrame_canonical {s : State} (h : s.canonical) (d f : Nat) : (s.takeFrame d f).canonical := by
  have e := s.takeFrame_memories d f
  unfold State.canonical
  rw [e.1, e.2]
  exact ⟨Memory.wf_filter h.1 _, h.2⟩

/-! ### Reading lines -/

/-- Two states that differ in the memory tiers' counters alone: the same bytes, the same poison, and everything outside the tiers. -/
def State.quiet (s t : State) : Prop := t = { s with mem := t.mem } ∧ t.mem.data = s.mem.data ∧ t.mem.bad = s.mem.bad

theorem State.quiet_refl (s : State) : s.quiet s := ⟨rfl, rfl, rfl⟩

theorem State.quiet_trans {s t u : State} (h : s.quiet t) (g : t.quiet u) : s.quiet u := by
  refine ⟨?_, g.2.1.trans h.2.1, g.2.2.trans h.2.2⟩
  rw [g.1, h.1]

/-- Reading a sound line changes counters alone, and leaves every line sound (R230, R241). -/
theorem State.readLine_sound {s : State} (h : s.sound) (d dpa : Nat) : s.quiet (s.readLine d dpa) ∧ (s.readLine d dpa).sound := by
  have hn : ∀ c f, (s.modCtl c f).mem.noise = s.mem.noise := fun _ _ => rfl
  unfold State.readLine
  simp only
  split
  · exact ⟨⟨rfl, rfl, rfl⟩, h⟩
  · refine ⟨⟨rfl, rfl, rfl⟩, fun p hp => ?_⟩
    exact h p (FMap.mem_erase (k := dpa / 256) (by simpa [State.mendLine, State.corrected, State.modCtl, State.setCtl, FMap.set] using hp))
  · rename_i h0 h1
    have := FMap.get_all (P := fun (n : Nat) => n < 2) (d := 0) h (by decide) (dpa / 256)
    rw [hn] at h0 h1
    rcases (by omega : FMap.get 0 s.mem.noise (dpa / 256) = 0 ∨ FMap.get 0 s.mem.noise (dpa / 256) = 1) with e | e
    · exact absurd e h0
    · exact absurd e h1

/-- Reading a range of sound lines changes counters alone. -/
theorem State.reads_sound {s : State} (h : s.sound) (d off n : Nat) (q : Need) : s.quiet (s.reads d off n q) ∧ (s.reads d off n q).sound := by
  have fold : ∀ (l : List Nat) (t : State), t.sound →
      t.quiet (l.foldl (fun t a => t.readLine d a) t) ∧ (l.foldl (fun t a => t.readLine d a) t).sound := by
    intro l
    induction l with
    | nil => intro t ht; exact ⟨t.quiet_refl, ht⟩
    | cons a l ih =>
      intro t ht
      have g := t.readLine_sound ht d a
      exact ⟨State.quiet_trans g.1 (ih _ g.2).1, (ih _ g.2).2⟩
  unfold State.reads
  split
  · exact fold _ _ h
  · exact ⟨s.quiet_refl, h⟩

theorem State.readAll_sound (l : List (DWord × Nat)) (d : Nat) (q : Need) :
    ∀ {s : State}, s.sound → s.quiet (s.readAll d l q) ∧ (s.readAll d l q).sound := by
  induction l with
  | nil => intro s h; exact ⟨s.quiet_refl, h⟩
  | cons p l ih =>
    intro s h
    show s.quiet (State.readAll (if spaceOf p.1 = some .dom then s.reads d (offOf p.1) p.2 q else s) d l q)
      ∧ (State.readAll (if spaceOf p.1 = some .dom then s.reads d (offOf p.1) p.2 q else s) d l q).sound
    split
    · have g := s.reads_sound h d (offOf p.1) p.2 q
      exact ⟨State.quiet_trans g.1 (ih g.2).1, (ih g.2).2⟩
    · exact ih h

/-- The lines of a bundle, where none of them fails its check, change counters alone. -/
theorem State.readFor_sound {s : State} (h : s.sound) (w : WickRef) (b : Bundle) : s.quiet (s.readFor w b) ∧ (s.readFor w b).sound := by
  have g := s.reads_sound h w.d (s.wickAt w.d w.c w.key).pc.toNat 32 { x := true }
  unfold State.readFor
  simp only
  split
  · have k := State.readAll_sound (loadsOf ⟨s.reads w.d (s.wickAt w.d w.c w.key).pc.toNat 32 { x := true }, w.d, w.c, w.key,
      s.wickAt w.d w.c w.key⟩ b) w.d { r := true } g.2
    exact ⟨State.quiet_trans g.1 k.1, k.2⟩
  · exact g

end Sys2Proof.Machine
end

