-- ==== Sys2Proof/Laws/Puf.lean ====
section
/-! SUPPORT. Laws of the PUF records: a record made holds its CRC, and the SRAM record of reset opens with the bits it was made over. -/

namespace Sys2Proof.Machine

/-- A record as it is made passes its CRC (R376). -/
theorem PufRec.make_ok (sel : PufSel) (seed : List Byte) (bits seq : Nat) : (PufRec.make sel seed bits seq).ok = true := by
  simp [PufRec.ok, PufRec.make, PufRec.body]

/-- The first cells of an array, all stable, are those used. -/
theorem marked_ones (n : Nat) : ∀ fuel i, n ≤ fuel → marked fuel i n (2 ^ n - 1) = List.range' i n := by
  induction n with
  | zero => intro fuel i _; cases fuel <;> simp [marked]
  | succ n ih =>
    intro fuel i h
    cases fuel with
    | zero => omega
    | succ f =>
      have h1 : (2 ^ (n + 1) - 1) % 2 = 1 := by have := Nat.one_le_two_pow (n := n); omega
      have h2 : (2 ^ (n + 1) - 1) / 2 = 2 ^ n - 1 := by have := Nat.one_le_two_pow (n := n); omega
      simp only [marked, Nat.add_one_ne_zero, if_false, h1, if_true, h2, Nat.add_sub_cancel, ih f (i + 1) (by omega), List.range'_succ]

/-- The majority of groups of seven zeros. -/
theorem majority7_zeros (n : Nat) : majority7 n (List.replicate (7 * n) false) = List.replicate n false := by
  induction n with
  | zero => rfl
  | succ n ih =>
    rw [majority7, List.take_replicate, List.drop_replicate, show 7 * (n + 1) - 7 = 7 * n by omega, ih, show min 7 (7 * (n + 1)) = 7 by omega]
    rfl

/-- An array that reads zero under a mask of its first cells. -/
theorem response_zeros : (PufSel.mask (2 ^ pufBits - 1)).response 0 = List.replicate pufBits false := by
  simp only [PufSel.response, PufSel.used, marked_ones pufBits pufCells 0 (by decide)]
  rw [List.eq_replicate_iff]
  simp

/-- The code of a seed of zeros. -/
theorem pufCode_zeros : pufCode (List.replicate 32 0) = List.replicate pufBits false := by
  have h : codeBits (List.replicate 32 0) = List.replicate 508 false := by decide +kernel
  rw [pufCode, h, List.map_replicate, List.flatten_replicate_replicate]
  rfl

/-- The SRAM record of reset yields its seed, with no error (R376, R378). -/
theorem pufReset_opens :
    (PufRec.make (.mask (2 ^ pufBits - 1)) (List.replicate 32 0) 0 1).open_ 0 = some (List.replicate 32 0, 0) := by
  have hx : xorBits (List.replicate pufBits false) (List.replicate pufBits false) = List.replicate pufBits false := by
    simp [xorBits]
  have hd : pufDecode (List.replicate pufBits false) (List.replicate pufBits false) = some (List.replicate 32 0, 0) := by
    rw [pufDecode, hx, show pufBits = 7 * 508 from rfl, majority7_zeros]
    decide +kernel
  simp only [PufRec.open_, PufRec.make, response_zeros, pufCode_zeros, hx, hd, if_true]

end Sys2Proof.Machine
end

