-- ==== Sys2Proof/Laws/Registers.lean ====
section
/-! SUPPORT. Laws of the register interface and of completion: a write of PF0 that nothing closes does the register's action alone. -/

namespace Sys2Proof.Machine

/-- With no guarded write under way, a write of a register that neither an A1 nor the Snuffer closes is the register's action (R400, R401, R583). -/
theorem State.pfWrite_free {s : State} (h : s.pf0Free) (off : Nat) (act : State → State) : s.pfWrite off act = act s := by
  obtain ⟨h1, h2, h3, h4⟩ := h
  have hu : s.guardExpire = s := by unfold State.guardExpire; rw [h2]
  have ha : s.guardAny = s := by unfold State.guardAny; rw [h2]
  unfold State.pfWrite
  simp only [h1, hu, ha, State.a1Blocks, State.snufCloses, h3, h4, Bool.not_true, Bool.false_and, Bool.false_eq_true, if_false]

/-- In a window that is open, the value's complement closes it and does the register's action (R583). -/
theorem State.gdwCompl_open {s : State} {off t : Nat} {v : Word} (hu : s.pf0Up = true) (ha : s.sec.a1block = false) (hs : s.sec.snuffed = false)
    (hg : s.mgmt.regs.guard = some (off, v, t)) (ht : s.clk ≤ t + 4096) (mine : Word → Bool) (hm : mine v = true) (act : State → Word → State) :
    s.gdwCompl off (~~~v) mine act = act (s.modRegs fun r => { r with guard := none }) v := by
  have he : s.guardExpire = s := by
    unfold State.guardExpire; rw [hg]; simp only; rw [if_neg (Nat.not_lt.2 ht)]
  unfold State.gdwCompl
  simp only [hu, he, State.a1Blocks, State.snufCloses, ha, hs, Bool.not_true, Bool.false_and, Bool.or_self, Bool.false_eq_true, if_false, hg,
    and_self, if_true, hm]

/-- A completion entry reaches the host's memory alone (R342). -/
theorem State.writeCpl_memories (s : State) (d q : Nat) (e : CplEntry) : (s.writeCpl d q e).mem = s.mem
    ∧ ∃ a bs, (s.writeCpl d q e).hostMem = Memory.wrN s.hostMem a bs := by
  unfold State.writeCpl
  exact ⟨(State.raiseIrq_memories _ _ _).1, _, _, (State.raiseIrq_memories _ _ _).2⟩

theorem State.writeCpl_canonical {s : State} (h : s.canonical) (d q : Nat) (e : CplEntry) : (s.writeCpl d q e).canonical := by
  obtain ⟨hm, a, bs, hh⟩ := s.writeCpl_memories d q e
  unfold State.canonical
  rw [hm, hh]
  exact ⟨h.1, Memory.wf_wrN bs h.2 a⟩

end Sys2Proof.Machine
end

