-- ==== Sys2Proof/Machine/Frame.lean ====
section
/-! DEFINITION. What a link's lanes carry (R252 to R255, R258, R265): the Reed-Solomon codeword of a flit, its striping over the lanes, the
stall codeword, and the detect pattern. They are functions of the state that Link holds. -/

namespace Sys2Proof.Machine

/-- A symbol of the codeword: an element of GF(2^10). -/
abbrev Sym := BitVec 10

/-- Times the generator element, modulo x^10 + x^3 + 1 (R255). -/
def Sym.twice (a : Sym) : Sym := if a.getLsbD 9 then (a <<< 1) ^^^ 0x009#10 else a <<< 1

/-- The product of two symbols: shift and add over the bits of the second, high to low. -/
def Sym.mul (a b : Sym) : Sym :=
  (List.range 10).foldl (fun t i => (if b.getLsbD (9 - i) then a else 0) ^^^ t.twice) 0

/-- The powers of the generator element. -/
def Sym.alpha : Nat → Sym
  | 0 => 1
  | n + 1 => (Sym.alpha n).twice

/-- Multiply a polynomial, highest coefficient first, by x − r. -/
def polyTimes (p : List Sym) (r : Sym) : List Sym := List.zipWith (· ^^^ ·) (p ++ [0]) (0 :: p.map (Sym.mul · r))

/-- The generator polynomial: the product of x − α^i for i = 0 to 15, highest coefficient first (R255). -/
def rsGen : List Sym := (List.range 16).foldl (fun p i => polyTimes p (Sym.alpha i)) [1]

/-- The parity symbols of a message: the remainder of message · x^16 by the generator. -/
def rsParity (msg : List Sym) : List Sym :=
  msg.foldl (fun r m =>
    let f := m ^^^ r.head?.getD 0
    List.zipWith (· ^^^ ·) (r.drop 1 ++ [0]) ((rsGen.drop 1).map (Sym.mul f))) (List.replicate 16 0)

/-- Bits of bytes, most significant first. -/
def msbBits (bs : List Byte) : List Bool := (bs.map fun b => (List.range 8).map fun i => b.getLsbD (7 - i)).flatten

/-- Bits, first most significant, as a number. -/
def ofBits (l : List Bool) : Nat := l.foldl (fun n b => 2 * n + (if b then 1 else 0)) 0

/-- The 10-bit symbols of a message (R255). -/
def symbols (n : Nat) (bs : List Byte) : List Sym :=
  (List.range n).map fun i => BitVec.ofNat 10 (ofBits (((msbBits bs).drop (10 * i)).take 10))

/-- A frame: the 660 bytes of a flit, and its 16 parity symbols in 20 bytes (R254, R255). -/
def rsFrame (msg : List Byte) : List Byte :=
  let par := ((rsParity (symbols 528 msg)).map fun p => (List.range 10).map fun i => p.getLsbD (9 - i)).flatten
  msg ++ (List.range 20).map fun i => BitVec.ofNat 8 (ofBits ((par.drop (8 * i)).take 8))

/-- The frame of a kept flit: first sent and resent alike (R258). -/
def FlitOut.onWire (x : FlitOut) : List Byte := rsFrame x.frame

/-- The stall codeword (R258): an all-zero message. -/
def stallFrame : List Byte := rsFrame (List.replicate 660 0)

/-- The lanes that a link runs on: all eight, or the half without a failed lane (R267). -/
def Link.lanes (l : Link) : List Nat :=
  if !l.width4 then List.range 8 else if l.badLanes.extractLsb' 0 4 = 0 then [0, 1, 2, 3] else [4, 5, 6, 7]

/-- The bytes of a frame that lane `i` carries: striped byte by byte over the lanes in use (R253, R267). -/
def Link.laneBytes (l : Link) (frame : List Byte) (i : Nat) : List Byte :=
  let w := l.lanes.length
  match l.lanes.findIdx? (· == i) with
  | some j => (List.range (frame.length / w)).filterMap fun k => frame[w * k + j]?
  | none => []

/-- What the transmitter of a link sends (R253, R265). -/
inductive TxMode where
  | idle | detect | train | flits
  deriving DecidableEq, Repr

/-- The transmitter is in electrical idle in OFF and DOWN, sends the detect pattern in DETECT, and flits once it is UP. -/
def Link.txMode (l : Link) : TxMode :=
  match l.st with
  | .off | .down => .idle
  | .detect => .detect
  | .train => .train
  | .keyx | .up => .flits

/-- PRBS13: the polynomial x^13 + x^12 + x^2 + x + 1, from all ones (R265). -/
def prbs13 : Nat → BitVec 13 → List Bool
  | 0, _ => []
  | n + 1, r =>
    let b := r.getLsbD 12 ^^ r.getLsbD 11 ^^ r.getLsbD 1 ^^ r.getLsbD 0
    r.getLsbD 12 :: prbs13 n ((r <<< 1) ||| (if b then 1 else 0))

/-- A block of the detect pattern in PAM4 symbols, Gray coded (R265): the marker 3, 0 for 64 pairs, then `n` symbols of PRBS13, two bits
each, inverted once this end has locked; a whole block has 16,256 of them. -/
def detectBlock (n : Nat) (locked : Bool) : List Nat :=
  let bs := (prbs13 (2 * n) (BitVec.allOnes 13)).map (· ^^ locked)
  let gray (a b : Bool) : Nat := if a then (if b then 2 else 3) else (if b then 1 else 0)
  ((List.range 64).map fun _ => [3, 0]).flatten
    ++ (List.range n).map fun i => gray (bs.getD (2 * i) false) (bs.getD (2 * i + 1) false)

end Sys2Proof.Machine
end

