-- ==== Sys2Proof/Machine/Package.lean ====
section
/-! DEFINITION. The dies of the package (R23, R24): what stands on which, the nine die-to-die ports with their keys, and what crosses
them. -/

namespace Sys2Proof.Machine

/-- The dies: compute tiles 0 to 3, I/O tiles 0 and 1. -/
inductive Die where
  | ct (n : Nat)
  | io (n : Nat)
  deriving DecidableEq, Repr

/-- The die of a Lantern: 16 on each compute tile. -/
def dieOfLantern (l : Nat) : Die := .ct (l / 16)
/-- The die of a memory controller: three HBM stacks on each compute tile, eight Reservoir packages on each I/O tile. -/
def dieOfCtl (c : Nat) : Die := if c < 12 then .ct (c / 3) else .io ((c - 12) / 8)
/-- The die of a link: L00 to L17 on IO0, the others on IO1. -/
def dieOfLink (n : Nat) : Die := .io (n / 18)

/-- The direction of a port, by port · 2 + direction, that leads from one die to a neighbour (R24); compute tiles have no direct port to
one another. -/
def d2dPort : Die → Die → Option Nat
  | .ct t, .io n => if t < 4 ∧ n < 2 then some (2 * (4 * n + t)) else none
  | .io n, .ct t => if t < 4 ∧ n < 2 then some (2 * (4 * n + t) + 1) else none
  | .io 0, .io 1 => some 16
  | .io 1, .io 0 => some 17
  | _, _ => none

/-- The port directions that an access crosses (R24): none on one die, one between neighbours, and one I/O tile between two compute
tiles, here IO0 (which one the spec leaves open, log 69). -/
def d2dPath (a b : Die) : List Nat :=
  if a = b then []
  else match d2dPort a b with
    | some p => [p]
    | none => ((d2dPort a (.io 0)).toList ++ (d2dPort (.io 0) b).toList)

/-- What a port puts on the substrate for `data` (R24, R27): AES-256-GCM under the direction's package key; nothing while it has none.
The nonce is not in the spec. -/
def SecSt.d2dSeal (x : SecSt) (p : Nat) (iv data : List Byte) : Option (List Byte) :=
  (FMap.find? x.d2d p).map fun k =>
    let ct := Config.gcmEnc k.key iv data
    ct ++ (Config.gcmTag k.key iv ct).take 16

/-- Every port is trained and encrypted (R539 step C7). -/
def SecSt.d2dUp (x : SecSt) : Bool := (List.range 18).all fun p => (FMap.find? x.d2d p).isSome

end Sys2Proof.Machine
end

