-- ==== Sys2Proof/Machine/Pcie.lean ====
section
/-! DEFINITION. The device as PCI Express functions (R326 to R329): what their configuration space says. -/

namespace Sys2Proof.Machine

/-- Vendor and Device ID (R326): Zyndowin's assigned vendor number, 0x9636 for PF0 and 0x9637 for a VF. -/
def pciId (fn : Nat) : Nat × Nat := ((Config.assigned 2).toNat % 2 ^ 16, if fn = 0 then 0x9636 else 0x9637)

/-- PF0's SR-IOV capability (R326, R327, R333). -/
structure Sriov where
  totalVfs : Nat
  initialVfs : Nat
  numVfs : Nat
  vfEnable : Bool
  firstOffset : Nat
  stride : Nat
  vfDevice : Nat
  deriving DecidableEq, Repr

/-- The SR-IOV capability as it reads: VF Enable reads 0 in HOLD (R327). -/
def State.sriov (s : State) : Sriov :=
  { totalVfs := 256, initialVfs := 256, numVfs := s.dev.numVfs, vfEnable := s.dev.vfEnable && s.dev.st == .run
    firstOffset := 1, stride := 1, vfDevice := (pciId 1).2 }

/-- The function that a routing ID names, PF0 having `pf`: First VF Offset 1, VF Stride 1 (R326). -/
def fnOfRid (pf rid : Nat) : Option Nat := if rid < pf ∨ pf + 256 < rid then none else some (rid - pf)

/-- The size of a function's BAR0, its MSI-X vectors, and where the MSI-X table and the PBA lie in BAR0 (R328). -/
def barSize (fn : Nat) : Nat := if fn = 0 then 2 ^ 25 else 2 ^ 16
def msixVectors (fn : Nat) : Nat := if fn = 0 then 32 else 65
def msixTable (fn : Nat) : Nat := if fn = 0 then 0x10E000 else 0x6000
def msixPba (fn : Nat) : Nat := if fn = 0 then 0x10F000 else 0x7000

/-- PF0 sizes that the host may set (R326): Max Payload Size 128 to 512, Max Read Request Size 128 to 4,096, powers of two. -/
def mpsOk (n : Nat) : Bool := [128, 256, 512].contains n
def mrrsOk (n : Nat) : Bool := [128, 256, 512, 1024, 2048, 4096].contains n

/-- The writes by which the device moves `n` bytes to host address `a`: at most MPS bytes each (R326). -/
def tlpWrites (mps : Nat) : Nat → Nat → Nat → List (Nat × Nat)
  | 0, _, _ => []
  | k + 1, a, n => if n = 0 then [] else (a, min mps n) :: tlpWrites mps k (a + mps) (n - mps)

/-- The writes of a host transfer under the MPS in force. -/
def State.hostWrites (s : State) (a n : Nat) : List (Nat × Nat) := tlpWrites s.mgmt.regs.mps (n + 1) a n

/-- The stream of a VF's own request that leaves at `a` (R329, R330): the address blocks and the function associate it. -/
def IdeStream.covers (x : IdeStream) (fn : Nat) (a : DWord) : Bool :=
  x.fn == fn || x.blocks.any fun b => decide (b.1.toNat ≤ a.toNat ∧ a.toNat ≤ b.2.toNat)

/-- What an IDE stream puts on the link for a payload: AES-256-GCM under the stream's key (R27, R329). -/
def IdeStream.sealTlp (x : IdeStream) (iv hdr data : List Byte) : Option (List Byte) :=
  x.key.map fun k =>
    let ct := Config.gcmEnc k.key iv data
    ct ++ (Config.gcmTag k.key iv (hdr ++ ct)).take 12

end Sys2Proof.Machine
end

