-- ==== Sys2Proof/Tests/Slice0.lean ====
section
/-! SUPPORT. Tests: ill-formed terms that the checks refuse, small states on which commands run, and a witness for every statement that has
hypotheses. Expected values are computed by hand from the rules that each test names. -/

namespace Sys2Proof.Tests

set_option Elab.async false

open Sys2Proof Sys2Proof.Machine Sys2Proof.Claims

/-! ### States -/

/-- A Wick that runs at DOMAIN offset 0x100000080 (in the first page of the programs' area). -/
def runWick : Wick := { pc := 0x100000080#64, run := .running }

/-- A program placed on physical Lantern 0 and resident there. -/
def prog0 : Prog := { handle := 0x4000000100000000#64, prio := 4, lants := [0], resident := true, since := 0, saved := false, slots := [List.range 6] }

/-- A live context with that program and one running Wick, logical Wick 0 of logical Lantern 0. -/
def ctx0 (k : Wick) : Ctx := { prog := some prog0, wicks := [(0, k)] }

/-- A domain with one live context, tag 1, and two pages mapped: one readable and executable, one with every permission but execute. -/
def dom0 (k : Wick) : Dom :=
  { there := true, ctxs := [(1, ctx0 k)]
    ptH := [(0x800, { frame := 0xA00000, r := true, w := false, x := true, k := true }),
            (0x801, { frame := 0xC00000, r := true, w := true, x := false, k := true })] }

/-- A running device with domain 0 and that Wick. -/
def runState (k : Wick) : State :=
  { dev := { st := .run, vfEnable := true, numVfs := 1 }, doms := [(0, dom0 k)]
    lanterns := [(0, { owner := some (0, 1) })] }

/-- The Wick of those states. -/
def wick0 : WickRef := { dom := 0, ctx := 1, llant := 0, lwick := 0 }

theorem test_runnable : (runState runWick).runnable wick0 = true := by decide +kernel

/-- A bundle with one C-slot, X-slot, V-slot or M-slot word. -/
def cB (w : DWord) : Bundle := { c := w }
def xB (w : DWord) : Bundle := { x := w }
def vB (w : DWord) : Bundle := { v := w }
def mB (w : DWord) : Bundle := { m := w }

/-- An answer that a Bool test finds. -/
theorem okOf {ε α : Type} [DecidableEq α] {x : Except ε α} {b : α} (h : (match x with | .ok v => decide (v = b) | .error _ => false) = true) :
    x = .ok b := by
  cases x with
  | ok v => simpa using h
  | error e => simp at h

/-- What State.goes asks, as one decidable conjunction. -/
theorem mkGoes {s : State} {w : WickRef} {b : Bundle}
    (h : s.runnable w = true ∧ (let u := s.readFor w b
      u.runnable w = true ∧ firstFlt (u.fetchFlts w.d (u.wickAt w.d w.c w.key).pc) = none ∧ legalBundle b = true
      ∧ ((slotM (u.wickAt w.d w.c w.key) b.m).stall = false ∧ (slotV (u.wickAt w.d w.c w.key) b.v).stall = false
        ∧ (slotX (u.iss w) b.x).stall = false ∧ vStall (u.wickAt w.d w.c w.key) b.v = false)
      ∧ firstFlt (slotM (u.wickAt w.d w.c w.key) b.m).flts = none ∧ firstFlt (slotV (u.wickAt w.d w.c w.key) b.v).flts = none
      ∧ firstFlt (slotX (u.iss w) b.x).flts = none ∧ firstFlt (cFlts (u.iss w) b.c) = none)) : s.goes w b :=
  ⟨h.1, h.2.1, h.2.2.1, h.2.2.2.1, h.2.2.2.2.1, h.2.2.2.2.2⟩

/-- The running state whose Wick has these address and scalar registers. -/
def regState (a s : FMap DWord) : State := runState { runWick with a := a, s := s }
/-- DOMAIN offset 0x100200000 (the writable page), LOCAL offset 0, FENCE offset 8. -/
def domA : DWord := 0x4000000100200000#64
def fenA : DWord := 0x8000000000000008#64

/-! ### Witnesses: bundles -/

/-- ADD s3, s1, #5: opcode 0xC0, SD 3, SA 1, CI, IMM32 5 (R137). -/
theorem witness_scalar : (Instr.add wick0 (cB 0x00000005040043C0#64)).wf = true ∧ onlyC (cB 0x00000005040043C0#64)
    ∧ (runState runWick).goes wick0 (cB 0x00000005040043C0#64) :=
  ⟨by decide, ⟨rfl, rfl, rfl⟩, mkGoes (by decide +kernel)⟩

theorem witness_branch : (Instr.beq wick0 (cB 0xD1#64)).wf = true ∧ onlyC (cB 0xD1#64) ∧ (runState runWick).goes wick0 (cB 0xD1#64) :=
  ⟨by decide, ⟨rfl, rfl, rfl⟩, mkGoes (by decide +kernel)⟩

/-- BR, JR, CALL and LOOP. -/
theorem witness_jumps : ∀ w ∈ [0xD0#64, 0xD8#64, 0xD9#64, 0xD7#64], onlyC (cB w) ∧ (runState runWick).goes wick0 (cB w) := by
  intro w hw
  refine ⟨⟨rfl, rfl, rfl⟩, ?_⟩
  simp only [List.mem_cons, List.not_mem_nil, or_false] at hw
  rcases hw with rfl | rfl | rfl | rfl <;> exact mkGoes (by decide +kernel)

/-- MOVI, TZERO, NOP. -/
theorem witness_moves : (onlyX (xB 0x90#64) ∧ (runState runWick).goes wick0 (xB 0x90#64) ∧ (Instr.movi wick0 (xB 0x90#64)).wf = true)
    ∧ (onlyM (mB 0x02#64) ∧ (runState runWick).goes wick0 (mB 0x02#64) ∧ (Instr.tzero wick0 (mB 0x02#64)).wf = true)
    ∧ (onlyM {} ∧ (runState runWick).goes wick0 {} ∧ (Instr.nop wick0 {}).wf = true) :=
  ⟨⟨⟨rfl, rfl, rfl⟩, mkGoes (by decide +kernel), by decide⟩, ⟨⟨rfl, rfl, rfl⟩, mkGoes (by decide +kernel), by decide⟩,
   ⟨⟨rfl, rfl, rfl⟩, mkGoes (by decide +kernel), by decide⟩⟩

theorem witness_lanes : (Instr.vadd wick0 (vB 0x40#64)).wf = true ∧ onlyV (vB 0x40#64) ∧ (runState runWick).goes wick0 (vB 0x40#64) :=
  ⟨by decide, ⟨rfl, rfl, rfl⟩, mkGoes (by decide +kernel)⟩

/-- VCMPEQ, VREDSUM, PAND, VSEL, VPERM, VCVT (BF16 to FP32), VRAND. -/
theorem witness_compares : ∀ w ∈ [0x50#64, 0x60#64, 0x74#64, 0x55#64, 0x71#64, 0x58#64, 0x59#64],
    onlyV (vB w) ∧ (runState runWick).goes wick0 (vB w) := by
  intro w hw
  refine ⟨⟨rfl, rfl, rfl⟩, ?_⟩
  simp only [List.mem_cons, List.not_mem_nil, or_false] at hw
  rcases hw with rfl | rfl | rfl | rfl | rfl | rfl | rfl <;> exact mkGoes (by decide +kernel)

/-- LD, VLD and TLD from DOMAIN. -/
theorem witness_loads : ∀ w ∈ [0x80#64, 0x82#64, 0x84#64], onlyX (xB w) ∧ (regState [(0, domA)] []).goes wick0 (xB w) := by
  intro w hw
  refine ⟨⟨rfl, rfl, rfl⟩, ?_⟩
  simp only [List.mem_cons, List.not_mem_nil, or_false] at hw
  rcases hw with rfl | rfl | rfl <;> exact mkGoes (by decide +kernel)

/-- ST, VST and TST to DOMAIN. -/
theorem witness_stores : ∀ w ∈ [0x81#64, 0x83#64, 0x85#64], onlyX (xB w) ∧ (regState [(0, domA)] []).goes wick0 (xB w) := by
  intro w hw
  refine ⟨⟨rfl, rfl, rfl⟩, ?_⟩
  simp only [List.mem_cons, List.not_mem_nil, or_false] at hw
  rcases hw with rfl | rfl | rfl <;> exact mkGoes (by decide +kernel)
theorem witness_stores_open : ∀ r ∈ [(0x81#64, Claims.stBytes), (0x85#64, Claims.tstBytes),
    (0x83#64, fun s w x => match vecFmt x with | some f => Claims.vstBytes s w x f | none => [])],
    noHold ((regState [(0, domA)] []).readFor wick0 (xB r.1)) wick0 (r.2 ((regState [(0, domA)] []).readFor wick0 (xB r.1)) wick0 r.1) := by
  intro r hr
  simp only [List.mem_cons, List.not_mem_nil, or_false] at hr
  rcases hr with rfl | rfl | rfl <;> (show State.heldStore _ _ _ = none; decide +kernel)
theorem witness_sound : (regState [(0, domA)] []).sound := by intro p hp; cases hp

/-- MMA of BF16 tiles, ATTNBLK of BF16, DMA. -/
def attnS : State := regState [] [(1, 1#64)]
theorem witness_queued : attnS.goes wick0 (mB 0x0000020001100001#64) ∧ attnS.goes wick0 (mB 0x44000008#64)
    ∧ attnS.goes wick0 (xB 0x88#64) :=
  ⟨mkGoes (by decide +kernel), mkGoes (by decide +kernel), mkGoes (by decide +kernel)⟩

/-- A direct token of 64 bytes from LOCAL to this chip, which the binding names. -/
def tokW : Wick := { runWick with s := [(1, 64#64)] }
def tokS : State := { runState tokW with doms := [(0, { dom0 tokW with binding := some { tag := 7#64, chips := [(0, 0)], rings := 0, blog := 0 } })] }
def tok1 : TokRec :=
  { pc := 0x100000080#64, src := 0, se := 0, key := 0, len := 64#64, fence := none, direct := true, ring := 0 }
theorem witness_token : tokS.goes wick0 (xB 0x000003000100008C#64)
    ∧ (let u := tokS.readFor wick0 (xB 0x000003000100008C#64)
       let v := (advance u wick0 (wickOf u wick0)).tokReads wick0 tok1
       v.liveCtx 0 1 = true ∧ firstFlt (v.tokFlts 0 tok1) = none ∧ v.tokDest 0 tok1 = .ok (0, 0)
         ∧ (wickOf u wick0).rs (fld 0x000003000100008C#64 24 6) = 64#64) :=
  ⟨mkGoes (by decide +kernel), by decide +kernel, by decide +kernel, by rfl, by decide +kernel⟩

/-- A queued matrix operation, and a DMA of 64 bytes within LOCAL. -/
def mat1 : MatOp := { word := 0x02#64, pc := 0, adr := [], sc := [] }
theorem witness_matrix : (runState { runWick with mq := [mat1] }).canExec wick0 = true
    ∧ (wickOf (runState { runWick with mq := [mat1] }) wick0).mq = [mat1] ∧ (sigsAfter []).1 = ([] : List PendSig) := by decide +kernel
def dma1 : DmaDesc := { pc := 0, src := 0, dst := 0x100#64, len := 64#64, fence := none, tc := 0, chip := 0 }
def dmaS : State := runState { runWick with dma := [(3, [dma1])] }
theorem witness_transfer : dmaS.canExec wick0 = true ∧ FMap.get [] (wickOf dmaS wick0).dma (3#4).toNat = [dma1] ∧ dma1.sent = false
    ∧ dma1.fence = none ∧ dma1.pos = 0 ∧ spaceOf dma1.src ≠ some .dom
    ∧ (let r := dmaS.dmaReads 0 1 0 dma1 {}
       r.liveCtx 0 1 = true ∧ firstFlt (r.dmaFlts 0 dma1) = none ∧ 0 < fld dma1.len 0 32 ∧ isFab dma1.src = false ∧ isFab dma1.dst = false
         ∧ r.heldStore 0 [.store dma1.dst (r.rdSpace 0 1 0 dma1.src (fld dma1.len 0 32))] = none) := by decide +kernel

/-- FSIG, FOWN and FWAIT on FENCE word 1. -/
theorem witness_fences : ∀ w ∈ [0xE0#64, 0xE2#64, 0xE1#64], onlyC (cB w) ∧ (regState [(0, fenA)] []).goes wick0 (cB w) := by
  intro w hw
  refine ⟨⟨rfl, rfl, rfl⟩, ?_⟩
  simp only [List.mem_cons, List.not_mem_nil, or_false] at hw
  rcases hw with rfl | rfl | rfl <;> exact mkGoes (by decide +kernel)
/-- FSIG with an empty matrix queue and with a queued operation; FWAIT for a word that has the value, and that has not. -/
theorem witness_fence_cases : (let u := (regState [(0, fenA)] []).readFor wick0 (cB 0xE0#64)
      (wickOf u wick0).mq = [] ∧ spaceOf ((wickOf u wick0).ra (fld 0xE0#64 14 4)) = some .fence)
    ∧ (let s := runState { runWick with a := [(0, fenA)], mq := [mat1] }; (wickOf (s.readFor wick0 (cB 0xE0#64)) wick0).mq ≠ [])
    ∧ (let u := (regState [(0, fenA)] []).readFor wick0 (cB 0xE1#64); u.fenceGet 0 1 0 fenA = 0 ∧ (wickOf u wick0).rs (fld 0xE1#64 18 6) = 0)
    ∧ (let u := (regState [(0, fenA)] [(0, 5#64)]).readFor wick0 (cB 0xE1#64)
       u.fenceGet 0 1 0 fenA = 0 ∧ (wickOf u wick0).rs (fld 0xE1#64 18 6) = 5#64) := by decide +kernel
theorem witness_wait_not_reached : (regState [(0, fenA)] [(0, 5#64)]).goes wick0 (cB 0xE1#64)
    ∧ (runState { runWick with a := [(0, fenA)], mq := [mat1] }).goes wick0 (cB 0xE0#64) := ⟨mkGoes (by decide +kernel), mkGoes (by decide +kernel)⟩
def wait1 : WaitRec := { b := cB 0xE1#64, adr := fenA, val := 5#64, since := 0, timeoutUs := 0, flt := false, sd := 0 }
def waitS : State := regState [(0, fenA)] []
theorem witness_waiter :
    Claims.WaitsAlone (runState { runWick with a := [(0, fenA)], run := .waiting { wait1 with val := 0 } }) wick0 { wait1 with val := 0 }
    ∧ Claims.WaitsAlone (runState { runWick with a := [(0, fenA)], run := .waiting wait1 }) wick0 wait1
    ∧ (runState { runWick with a := [(0, fenA)], run := .waiting wait1 }).allWicks = [wick0] :=
  ⟨⟨by decide +kernel, by decide +kernel, ⟨rfl, rfl, rfl⟩, by decide, by decide +kernel⟩,
   ⟨by decide +kernel, by decide +kernel, ⟨rfl, rfl, rfl⟩, by decide, by decide +kernel⟩, by decide +kernel⟩

/-- ALLOC of 1 byte where the quota allows one frame, and where it allows none; FREE, STEP and HALT. -/
def quotaS : State := { runState { runWick with s := [(1, 1#64)] } with mem := { doms := [(0, { qh := 16 })] } }
theorem witness_alloc : quotaS.goes wick0 (cB 0x00000000004000E8#64)
    ∧ (let r := quotaS.readFor wick0 (cB 0x00000000004000E8#64)
       ∃ t off, (advance r wick0 (wickOf r wick0)).allocate 0 0 1 0 false false false = .ok (t, off))
    ∧ (let r := (regState [] []).readFor wick0 (cB 0x00000000004000E8#64)
       ∃ e, (advance r wick0 (wickOf r wick0)).allocate 0 0 1 0 false false false = .error e) :=
  ⟨mkGoes (by decide +kernel), ⟨_, _, rfl⟩, ⟨_, rfl⟩⟩
theorem witness_step_halt : ∀ w ∈ [0xE9#64, 0xEA#64, 0xFE#64], onlyC (cB w) ∧ (runState runWick).goes wick0 (cB w) := by
  intro w hw
  refine ⟨⟨rfl, rfl, rfl⟩, ?_⟩
  simp only [List.mem_cons, List.not_mem_nil, or_false] at hw
  rcases hw with rfl | rfl | rfl <;> exact mkGoes (by decide +kernel)

/-- A barrier of communicator 1, which is being created; its command at DOMAIN offset 0x100200000. -/
def comm1 : Comm := { algo := false, nranks := 2, myrank := 0, depth := 1, ranks := [0, 1], rbuf := domA, status := domA, wdog := 10 }
def collS : State := { regState [(0, domA)] [] with
  mem := { data := [(0xC00000, 5), (0xC00002, 1)] }, eng := { comms := [(0, [(1, comm1)])] } }
def collB (st : CommSt) : State := { collS with eng := { comms := [(0, [(1, { comm1 with st := st })])] } }
/-- A communicator that is being created, one that is ready and one that is broken. -/
theorem witness_coll : (Instr.coll wick0 (cB 0x00000000100000EC#64)).wf = true
    ∧ ∀ st ∈ [CommSt.creating, .ready, .broken], (collB st).goes wick0 (cB 0x00000000100000EC#64)
      ∧ (let r := (collB st).readFor wick0 (cB 0x00000000100000EC#64)
         let u := advance r wick0 (wickOf r wick0)
         let cmd : BitVec 512 := launchWord 512 (u.rdSpace 0 1 0 domA 64)
         cmd.toNat / 2 ^ 16 % 2 ^ 16 = 1 ∧ u.comm? 0 1 = some { comm1 with st := st } ∧ cmd.toNat % 2 ^ 8 ≠ 3
           ∧ (st ≠ .broken → u.collFlts 0 cmd (some { comm1 with st := st }) = [])) := by
  refine ⟨by decide, fun st h => ?_⟩
  simp only [List.mem_cons, List.not_mem_nil, or_false] at h
  rcases h with rfl | rfl | rfl <;> exact ⟨mkGoes (by decide +kernel), by decide +kernel⟩

/-- A split momentum-free update (rule 1) of 16 elements: FLAME, gradient, tokens and record in the writable page, EMBER in a Reservoir page
that no Wick may touch. -/
def updDesc : Nat := 0x400000010020300000000000000000004000000100202000400000010020100000000000000000000000000000000000410000010000000040000001002000000000000000000000000000000000000000000000000000100000000100000000
def updS : State :=
  { runState { runWick with a := [(0, 0x4000000100204000#64)] } with
    mem := { data := Memory.wrN [] 0xC04000 (leBytes 128 updDesc) }
    doms := [(0, { dom0 { runWick with a := [(0, 0x4000000100204000#64)] } with
      ptR := [(0x4000, { frame := 2 ^ 41, r := true, w := true, x := false, k := false })] })] }
def upd1 : Upd := { num := 0, dom := 0, ctx := 1, wk := 0, pc := 0x100000080#64, desc := BitVec.ofNat 1024 updDesc, fence := none, step := 0, engine := 0 }
/-- The same update fused to communicator 1, which is ready. -/
def fusedDesc : Nat := updDesc + 2 ^ 42 + 2 ^ 48
def commF : Comm := { comm1 with st := .ready }
def fusedS : State :=
  { updS with mem := { data := Memory.wrN [] 0xC04000 (leBytes 128 fusedDesc) }, eng := { comms := [(0, [(1, commF)])] } }
def advUpd (s : State) : State := let r := s.readFor wick0 (cB 0x00000000100000ED#64); advance r wick0 (wickOf r wick0)
def nextU (s : State) : State := { advUpd s with eng := { (advUpd s).eng with nextUpd := (advUpd s).eng.nextUpd + 1 } }
theorem witness_upd : updS.goes wick0 (cB 0x00000000100000ED#64)
    ∧ (let u := advUpd updS
       launchWord 1024 (u.rdSpace 0 1 0 0x4000000100204000#64 128) = BitVec.ofNat 1024 updDesc ∧ upd1.gsrc = false
         ∧ (nextU updS).updFlts { upd1 with engine := u.updEngine upd1 } = []) :=
  ⟨mkGoes (by decide +kernel), by decide +kernel, by decide +kernel, by decide +kernel⟩
def updF : Upd := { upd1 with desc := BitVec.ofNat 1024 fusedDesc }
theorem witness_fused_upd : fusedS.goes wick0 (cB 0x00000000100000ED#64)
    ∧ (let u := advUpd fusedS
       launchWord 1024 (u.rdSpace 0 1 0 0x4000000100204000#64 128) = BitVec.ofNat 1024 fusedDesc ∧ updF.gsrc = true
         ∧ u.comm? 0 updF.comm = some commF ∧ commF.st ≠ .broken ∧ commF.ops.length < 64
         ∧ (nextU fusedS).updFlts { updF with engine := u.updEngine updF, seq := commF.issued } = []) :=
  ⟨mkGoes (by decide +kernel), by decide +kernel, by decide +kernel, by decide +kernel, by decide, by decide, by decide +kernel⟩

/-- ADD with a reserved bit of the M slot set. -/
theorem witness_illegal : (Instr.add wick0 { c := 0xC0#64, m := 0x06#64 }).wf = true ∧ (runState runWick).runnable wick0 = true
    ∧ (let b : Bundle := { c := 0xC0#64, m := 0x06#64 }; let u := (runState runWick).readFor wick0 b
       u.runnable wick0 = true ∧ firstFlt (u.fetchFlts 0 (wickOf u wick0).pc) = none ∧ legalBundle b = false) := by decide +kernel

/-- A context all of whose Wicks are at STEP, its program resident or swapped out; one of them past its timeout. -/
def stepWick : Wick := { runWick with run := .atStep 0 0 60000000 }
def stepS : State := { runState stepWick with beacon := 60000000001 }
def stepCtx (res : Bool) : Ctx := { ctx0 stepWick with prog := some { prog0 with resident := res }, wicks := (List.range 8).map fun i => (i, stepWick) }
def stepS8 (res : Bool) : State := { stepS with doms := [(0, { dom0 stepWick with ctxs := [(1, stepCtx res)] })] }
theorem witness_boundary : ∀ res, (stepS8 res).ctx? (0#8).toNat (1#16).toNat = some (stepCtx res) ∧ (stepS8 res).dev.st = .run
    ∧ (stepCtx res).status = .live ∧ (stepCtx res).retire = false ∧ (stepCtx res).held = false ∧ (stepCtx res).allAtStep = true
    ∧ (stepS8 res).busyCtx 0 1 = false ∧ ((stepS8 res).ck 0).conf = false
    ∧ ((stepCtx res).wick wick0.key).run = .atStep 0 0 60000000 ∧ 0 + 60000000 * 1000 < (stepS8 res).beacon := by decide +kernel

/-- Two Wicks of one context, each waiting for a word that the other owns. -/
def cycWait (v : DWord) : Wick := { runWick with run := .waiting { wait1 with adr := v } }
def cycS : State := { runState runWick with
  beacon := 200000
  doms := [(0, { dom0 runWick with
    owners := [(1, 0x40400001#32), (2, 0x40000001#32)]
    ctxs := [(1, { ctx0 runWick with wicks := [(0, cycWait 0x8000000000000008#64), (1, cycWait 0x8000000000000010#64)] })] })] }
theorem witness_cycle : cycS.dev.st = .run ∧ wick0 ∈ cycS.allWicks
    ∧ cycS.onCycle 0 (1, 0) (cycS.allWicks.length + 1) (1, 0) = true := by decide +kernel

/-- A program that is not resident, its context without Wicks; a Lantern two of whose logical Wicks share physical Wick 0. -/
def swapCtx : Ctx := { prog := some { prog0 with resident := false } }
def swapS : State := { runState runWick with lanterns := [], doms := [(0, { dom0 runWick with ctxs := [(1, swapCtx)] })] }
theorem swapS_idle (d c k : Nat) (r : WaitRec) : (swapS.wickAt d c k).run ≠ .waiting r := by
  unfold State.wickAt
  split
  · rename_i x hx
    unfold State.ctx? State.dom FMap.get at hx
    simp only [swapS, runState, dom0, FMap.find?] at hx
    split at hx
    · simp only [Option.getD_some, FMap.find?] at hx
      split at hx
      · cases hx; simp [swapCtx, Ctx.wick, FMap.get, FMap.find?]
      · cases hx
    · simp [FMap.find?] at hx
  · simp
theorem witness_slices : (State.reset.placed.length = 0)
    ∧ (swapS.dev.st = .run ∧ swapS.placed.map (fun x => (x.d, x.c, x.p)) = [(0, 1, { prog0 with resident := false })]
      ∧ swapS.ctx? 0 1 = some swapCtx ∧ swapCtx.prog = some { prog0 with resident := false }
      ∧ (∀ q ∈ swapS.slotsLack { prog0 with resident := false }, q.2 = 0) ∧ swapCtx.retire = false
      ∧ ∀ l ∈ prog0.lants, (swapS.lantern l).owner = none) := by decide +kernel
def foldLant : Lantern := { owner := some (0, 1), map := [0, 0, 2, 3, 4, 5, 6, 7] }
def foldS (t : Nat) : State := { swapS with lanterns := [(5, foldLant)], beacon := t }
theorem witness_fold : (List.range 8).filter (fun q => ((foldS 200000).lantern 5).map.getD q q == 0) = [0, 1]
    ∧ (foldS 200000).dev.st = .run ∧ ((foldS 200000).lantern 5).owner = some (0, 1)
    ∧ ((foldS 200000).ctx? 0 1).bind (·.prog) = some { prog0 with resident := false }
    ∧ FMap.get 0 ((foldS 200000).lantern 5).turnAt 0 + 200000 ≤ (foldS 200000).beacon := by decide +kernel
theorem witness_fold_idle (d c k : Nat) (r : WaitRec) : ((foldS 200000).wickAt d c k).run ≠ .waiting r := swapS_idle d c k r

/-- Uncorrectable events: a Wick's and a Lantern's second, and the first of a Lantern that a context owns. -/
theorem witness_events :
    (let s : State := { dev := { st := .run }, lanterns := [(5, { errs := [(3, [7])] })] }
     (s.lantern 5).owner = none ∧ s.placed.length = 0 ∧ FMap.get [] (s.lantern 5).errs 3 = [7] ∧ s.beacon < 7 + 24 * 3600 * 1000000000)
    ∧ (let s : State := { dev := { st := .run }, lanterns := [(5, { errs := [(8, [7])] })] }
       FMap.get [] (s.lantern 5).errs 8 = [7])
    ∧ (let s := runState runWick
       (s.lantern 0).owner = some (0, 1) ∧ s.ctx? 0 1 = some (ctx0 runWick) ∧ (ctx0 runWick).status = .live ∧ (ctx0 runWick).prog = some prog0
         ∧ FMap.get [] (s.lantern 0).errs 0 = [] ∧ FMap.get [] (s.lantern 0).errs 8 = []) := by decide +kernel

/-- An update at the head of its engine that runs; one whose Lantern is swapped out; one that is written; one with staged bytes. -/
def updQ : State := { updS with eng := { upds := [upd1] } }
theorem witness_update_runs : updQ.headUpd 0 0 = some upd1 ∧ upd1.after = 0 ∧ updQ.updSwapped upd1 = false ∧ upd1.gsrc = false
    ∧ (let r := updQ.readAll 0 upd1.readArrays
       ∃ o, (Claims.ownGradient updQ upd1 0 (r.rdW 0 upd1.gradA upd1.nelem)) ∧ Claims.ruleRuns updQ upd1 0 (r.rdW 0 upd1.gradA upd1.nelem) o) :=
  ⟨by decide +kernel, rfl, by decide +kernel, by decide +kernel, _, ⟨okOf (by decide +kernel), by decide +kernel, rfl⟩,
    by decide +kernel, rfl, by decide +kernel⟩
/-- The fused one: its reduced gradient and total have come, or nothing yet; the same, parked. -/
def fusedU (g : List Word) : Upd := { updF with tok := some 0, grad := g }
def fusedQ (g : List Word) : State := { fusedS with eng := { fusedS.eng with upds := [fusedU g] } }
theorem witness_fused_runs : (fusedQ (List.replicate 16 0)).headUpd 0 0 = some (fusedU (List.replicate 16 0))
    ∧ (fusedQ []).headUpd 0 0 = some (fusedU []) ∧ (fusedQ []).updSwapped (fusedU []) = false
    ∧ (fusedU []).gsrc = true ∧ (fusedU []).after = 0 ∧ (fusedU []).tok = some 0 ∧ (fusedU []).grad.length < (fusedU []).nelem
    ∧ (fusedU (List.replicate 16 0)).nelem ≤ (fusedU (List.replicate 16 0)).grad.length
    ∧ (let u := fusedU (List.replicate 16 0)
       let s := (fusedQ (List.replicate 16 0)).modUpd u.num fun v => { v with fifo := 0, fifoSp := 0, stage := 0 }
       ∃ o, Claims.ruleRuns s u 0 u.grad o) :=
  ⟨by decide +kernel, by decide +kernel, by decide +kernel, by decide +kernel, rfl, rfl, by decide +kernel, by decide +kernel,
    _, by decide +kernel, rfl, by decide +kernel⟩
def updStored : Upd := { upd1 with desc := BitVec.ofNat 1024 (updDesc + 2 ^ 40) }
def parkS (u : Upd) : State := { swapS with eng := { upds := [u] } }
theorem witness_update_parks : (parkS updStored).headUpd 0 0 = some updStored ∧ (parkS updStored).updSwapped updStored = true
    ∧ (let u : Upd := { updStored with phase := .parked }
       (((parkS u).updsOn 0).find? fun v => v.dom == 0 && v.phase == .parked) = some u ∧ (parkS u).updSwapped u = true) := by decide +kernel
theorem witness_update_resumes : (let u : Upd := { upd1 with phase := .parked }
    let s : State := { updS with eng := { upds := [u] } }
    let s1 := s.modUpd u.num fun v => { v with phase := .queued }
    let r := s1.readAll 0 u.readArrays
    ((s.updsOn 0).find? fun v => v.dom == 0 && v.phase == .parked) = some u ∧ s.updSwapped u = false ∧ u.gsrc = false
      ∧ ∃ o, Claims.ownGradient s1 u 0 (r.rdW 0 u.gradA u.nelem) ∧ Claims.ruleRuns s1 u 0 (r.rdW 0 u.gradA u.nelem) o) :=
  ⟨by decide +kernel, by decide +kernel, by decide +kernel, _, ⟨okOf (by decide +kernel), by decide +kernel, rfl⟩,
    by decide +kernel, rfl, by decide +kernel⟩
def updW : Upd := { upd1 with phase := .written }
def writtenS : State := { updS with eng := { upds := [updW] } }
theorem exOf {ε α : Type} {x : Except ε α} (h : (match x with | .ok _ => true | .error _ => false) = true) : ∃ t, x = .ok t := by
  cases x with
  | ok v => exact ⟨v, rfl⟩
  | error e => simp at h
theorem witness_update_ends :
    ((writtenS.eng.upds.find? fun v => v.dom == 0 && v.ctx == 1) = some updW ∧ writtenS.fusedDone updW = true ∧ updW.gsrc = false
      ∧ updW.zerog = false ∧ FMap.wf {} writtenS.eng.upd = true)
    ∧ (∃ t, writtenS.engWrite 0 updW.recA (writtenS.updRecord updW) = .ok t)
    ∧ (let v : Upd := { upd1 with stage := 64 }
       let s : State := { updS with eng := { upds := [v] } }
       0 < v.stage ∧ v.stage ≤ 4096 ∧ v.phase ≠ .parked ∧ s.fifoFits 0 v 64 = true ∧ s.comm? 0 v.comm = none) :=
  ⟨by decide +kernel, exOf (by decide +kernel), by decide +kernel⟩

/-- A seal entry, idle or not; a page at the head of the re-key queue, of an old generation, or of the present one with every other there or one
page still old; a re-key at its last line. -/
def rkS (ctl : MemCtl) : State := { dev := { st := .run }, clk := 10000000, mem := { frames := [(0, .domain 0)], ctls := [(0, ctl)] } }
def rkq (g : Nat) (par : FMap Bool) : MemCtl :=
  { rkq := [3], c := [(3, 5)], parity := par, gens := [(0, { g := g })] }
theorem witness_pages :
    (let s := rkS { seals := [{ page := 3, dom := 0, opened := 0, last := 0, lines := 0 }] }
     ((s.ctl 0).seals.find? fun x => x.page == 3).isSome = true ∧ 0 + sealIdle 0 ≤ s.clk)
    ∧ (let s := rkS { seals := [{ page := 3, dom := 0, opened := 0, last := 10000000, lines := 0 }] }
       ((s.ctl 0).seals.find? fun x => x.page == 3).isSome = true ∧ s.clk < 10000000 + sealIdle 0)
    ∧ (let s := rkS (rkq 1 [])
       (s.ctl 0).rk = none ∧ (s.ctl 0).rkq = [3] ∧ s.pageOwner 0 3 = some 0 ∧ (s.ctl 0).inCur 0 3 = false ∧ FMap.wf {} s.mem.ctls = true)
    ∧ (let s := rkS (rkq 0 [])
       (s.ctl 0).inCur 0 3 = true ∧ ((s.ctl 0).oldPage? 0 fun q => s.pageOwner 0 q == some 0) = none)
    ∧ (let s := rkS { rkq 0 [(7, true)] with c := [(3, 5), (7, 5)] }
       (s.ctl 0).inCur 0 3 = true ∧ ((s.ctl 0).oldPage? 0 fun q => s.pageOwner 0 q == some 0) = some 7) := by decide +kernel
theorem witness_rekey_end :
    (let r : Rekeying := { page := 3, dom := 0, next := pageLines 0 - 1, cNew := 6, sweep := false }
     let s := rkS { rk := some r }
     (s.ctl 0).rk = some r ∧ r.next ≤ pageLines 0 ∧ pageLines 0 ≤ r.next + (1#11).toNat ∧ s.mem.heldW = [] ∧ FMap.wf {} s.mem.ctls = true
      ∧ ∀ l, r.next ≤ l → l < pageLines 0 → FMap.get 0 s.mem.noise ((dpaOfPage 0 r.page + 256 * l) / 256) = 0) :=
  ⟨rfl, by decide +kernel, by decide +kernel, rfl, by decide +kernel, fun _ _ _ => rfl⟩
/-- A line that is poison, one that is zeros, one of a past epoch, one beyond its counter; a leaf of a walk. -/
def lineS (e : Nat) (bad : FMap Bool) : State := { mem := { bad := bad, ctls := [(0, { c := [(3, 5)], e := [(3 * 1024, e)] })] } }
theorem witness_lines :
    FMap.get false (lineS 1 [(lineDpa 0 3 0 / 256, true)]).mem.bad (lineDpa 0 3 0 / 256) = true
    ∧ (∀ e, FMap.get false (lineS e []).mem.bad (lineDpa 0 3 0 / 256) = false)
    ∧ FMap.get 0 ((lineS 0 []).ctl 0).e (3 * 1024) = 0
    ∧ (FMap.get 0 ((lineS 5 []).ctl 0).e (3 * 1024) = 5 ∧ 5 ≤ (lineS 5 []).lineC 0 3 0)
    ∧ (FMap.get 0 ((lineS 9 []).ctl 0).e (3 * 1024) = 9 ∧ (lineS 9 []).lineC 0 3 0 < 9)
    ∧ (∀ p, FMap.find? (dom0 {}).ptH 0x800 = some p → p.frame % 2 ^ 12 = 0 ∧ p.frame < 2 ^ 42) := by
  refine ⟨by decide +kernel, fun _ => rfl, by decide +kernel, by decide +kernel, by decide +kernel, fun p h => ?_⟩
  cases h; decide

/-! ### Witnesses: links and packets -/

/-- A link that is UP with one flit unacknowledged; one in each state of training; this is chip 0, whose link 0 leads to chip 1's link 30. -/
def linkS (l : Link) (t : Nat) : State := { dev := { st := .run }, clk := t, fab := { links := [(0, l)] } }
def upLink : Link := { st := .up, txSeq := 5, kept := [{ seq := 4 }] }
theorem witness_flits : let s := linkS upLink 2000
    (s.link (0#6).toNat).st = .up
    ∧ (let f : FlitIn := {}
       f.unc = false ∧ f.syms.toNat ≤ (s.link 0).fecLimit ∧ f.hdr ≠ 0 ∧ f.intact = true ∧ f.hdr.extractLsb' 26 6 = 0
         ∧ (f.hdr.extractLsb' 13 5).toNat = 31 ∧ f.hdr.getLsbD 12 = false ∧ f.hdr.getLsbD 24 = (s.link 0).rxEpoch ∧ f.seq.toNat = (s.link 0).rxSeq)
    ∧ (let f : FlitIn := { intact := false }
       f.unc = false ∧ f.syms.toNat ≤ (s.link 0).fecLimit ∧ f.hdr ≠ 0 ∧ f.intact = false ∧ (s.link 0).seqRun < 15
         ∧ (secCount s.beacon 1 (s.link 0).tagSec).2 < 17)
    ∧ ((s.link 0).uncRun < 7 ∧ (s.link 0).light = false ∧ (s.link 0).fecLimit < (15#4).toNat)
    ∧ ((s.link 0).kept ≠ [] ∧ (s.link 0).ackAt + 2000 ≤ s.clk ∧ (secCount s.beacon (s.link 0).kept.length (s.link 0).resSec).2 ≤ 64) := by
  decide +kernel
theorem witness_idle_flits : let l := (linkS { upLink with nak := true } 0).fab.link 0
    l.st = .up ∧ l.quietAt = none ∧ l.queue = [] ∧ l.stream = [] ∧ l.back = [] ∧ l.kept.length < 256 := by decide +kernel
def key0 : LinkKey := { key := { a := [1], m := [2] }, salt := [] }
theorem witness_training :
    (let s := linkS { st := .detect } 100000000
     (s.link 0).st = .detect ∧ ({} : TrainIn).signal = true ∧ (s.link 0).since + 10000000 ≤ s.clk ∧ (s.link 0).since + 100000000 ≤ s.clk)
    ∧ (let s := linkS { st := .train } 0
       let o : TrainIn := { peer := 1, peerLink := 30, bad := 0x12 }
       (s.link 0).st = .train ∧ (s.link 0).keyed = false ∧ o.signal = true ∧ o.eq = true ∧ o.lock = true
         ∧ s.expectPeer 0 = some (o.peer.toNat, o.peerLink.toNat))
    ∧ (let s := linkS { st := .train } 0
       let o : TrainIn := { bad := 0x10 }
       ((s.link 0).badLanes ||| o.bad).extractLsb' 0 4 = 0)
    ∧ (let s := linkS { st := .keyx } 0
       let k : KeyxIn := { peer := 1, peerLink := 30 }
       (s.link 0).st = .keyx ∧ k.chain = true ∧ k.lc.toNat = s.sec.lc.num ∧ s.fab.minSvn ≤ k.svn.toNat
         ∧ s.expectPeer 0 = some (k.peer.toNat, k.peerLink.toNat) ∧ s.sec.rngDead = false)
    ∧ (let l := (linkS { upLink with st := .train, txKey := some key0, rxKey := some key0 } 0).link 0
       l.st = .train ∧ l.keyed = true ∧ (l.badLanes ||| (0xF0#8)).extractLsb' 0 4 = 0 ∧ (secCount 0 l.kept.length l.resSec).2 ≤ 64)
    ∧ (let s := linkS upLink 0
       (s.link 0).st = .up ∧ s.keyxOk 0 { peer := 1, peerLink := 30 } = true ∧ s.sec.rngDead = false ∧ (s.link 0).st ≠ .off)
    ∧ (2 ^ 36 ≤ ((linkS { upLink with keyFlits := 0x1000000000 } 0).link 0).keyFlits) := by decide +kernel
theorem witness_training_free : (linkS upLink 0).pf0Free := by refine ⟨?_, ?_, ?_⟩ <;> decide

/-- A domain of a binding of chips 0 and 1, with ring 0 of Lantern 0 at DOMAIN offset 0x100201000 (64 entries). -/
def bind0 : Binding := { tag := 7#64, chips := [(0, 0), (1, 0)], rings := domA, blog := 0 }
def pktS : State := { runState runWick with doms := [(0, { dom0 runWick with binding := some bind0 })] }
def wrPkt : Pkt := { src := 1, ptype := 1, tag := 7, adr := domA, data := List.replicate 64 1, bytes := 64 }
theorem arrives_mk {s : State} {p : Pkt} {pt : BitVec 8}
    (h : s.dev.st = .run ∧ p.ptype = pt ∧ p.dst.toNat = s.fab.chip ∧ p.malformed = false ∧ s.admits p = true) : s.arrives p pt := h
def rdReq : Pkt := { src := 1, ptype := 2, tag := 7, adr := domA, aux := domA, bytes := 64 }
/-- A READ_REQ of this chip that READ_DATA answers. -/
def readS : State := { pktS with fab := { held := [{ pkt := { dst := 1, ptype := 2, adr := domA, aux := domA, bytes := 64 }, owner := .readReq 0 1 0 3 }] } }
def rdData : Pkt := { wrPkt with ptype := 3 }
def fwdS : State := { dev := { st := .run }, fab := { links := [(1, upLink)] } }
/-- The queue of port 36 holds 256 requests. -/
def fullS : State := { pktS with fab := { reqs := [(36, List.replicate 256 rdReq)] } }
theorem witness_reads :
    (fullS.arrives rdReq 2 ∧ 256 ≤ ((fullS.freeIn rdReq).reqsAt rdReq.port).length)
    ∧ (let u := pktS.freeIn rdReq
       pktS.arrives rdReq 2 ∧ (u.reqsAt rdReq.port).length < 256 ∧ rdReq.img = false ∧ pktS.fab.reqs = [] ∧ u.answerFree rdReq = true
         ∧ (u.readAll 0 [(rdReq.adr, rdReq.bytes.toNat)] { r := true }).remoteFlt 0 rdReq.adr rdReq.bytes.toNat { r := true } = none) :=
  ⟨⟨arrives_mk (by decide +kernel), by decide +kernel⟩, arrives_mk (by decide +kernel), by decide +kernel⟩
theorem witness_packets :
    (pktS.arrives wrPkt 1 ∧ wrPkt.img = false ∧ (pktS.freeIn wrPkt).remoteFlt 0 wrPkt.adr wrPkt.data.length { w := true } = none)
    ∧ (let p := { wrPkt with tag := 8 }
       pktS.dev.st = .run ∧ p.ptype = 1 ∧ p.dst.toNat = pktS.fab.chip ∧ p.malformed = false ∧ (pktS.freeIn p).admits p = false)
    ∧ (∃ h, readS.arrives rdData 3
        ∧ (readS.fab.held.find? fun h => h.pkt.ptype == 2 && h.pkt.dst == rdData.src && h.pkt.aux == rdData.adr && h.pkt.img == rdData.img) = some h
        ∧ h.owner = .readReq 0 1 0 3
        ∧ firstFlt (((((readS.freeIn rdData).dropHeld h.pkt.xtag).ack rdData)).accFlts 0 rdData.adr 1 rdData.data.length { w := true }) = none)
    ∧ (let p := { wrPkt with dst := 2 }
       fwdS.dev.st = .run ∧ p.malformed = false ∧ p.ptype ≠ 0 ∧ p.dst.toNat ≠ fwdS.fab.chip ∧ p.hop ≠ 4
         ∧ (∃ x, fwdS.fab.egress p (p.hop.toNat + 1) = .ok x))
    ∧ (let p := { wrPkt with dst := 2, hop := 4 }
       p.malformed = false ∧ p.ptype ≠ 0 ∧ p.ptype ≠ 4 ∧ p.ptype ≠ 5 ∧ p.dst.toNat ≠ fwdS.fab.chip ∧ p.hop = 4) :=
  ⟨⟨arrives_mk (by decide +kernel), rfl, by decide +kernel⟩, by decide +kernel,
   ⟨_, arrives_mk (by decide +kernel), rfl, rfl, by decide +kernel⟩,
   ⟨by decide, by decide +kernel, by decide, by decide, by decide, (1, { wrPkt with dst := 2 }), rfl⟩, by decide +kernel⟩

/-- The ring entry at DOMAIN offset 0x100200000 of a ring with PROD `pr` and CONS 0. -/
def ringBytes (pr : Nat) : List Byte :=
  leBytes 8 0x4000000100201000 ++ leBytes 1 6 ++ leBytes 1 1 ++ leBytes 6 0 ++ leBytes 8 pr ++ leBytes 32 0
def ringS (pr : Nat) : State := { pktS with mem := { data := Memory.wrN [] 0xC00000 (ringBytes pr) } }
def tokPkt : Pkt := { wrPkt with ptype := 6, adr := 0, aux := 5 }
def ringOf (pr : Nat) : Ring := { base := 0x100201000, size := 64, prod := BitVec.ofNat 64 pr, cons := 0, wake := 0 }
def ringE : Nat := offOf bind0.rings + 64 * (16 * fld tokPkt.adr 0 6 + fld tokPkt.aux 32 4)
/-- A ring with room, one whose end the token would cross (CONS 60), and one that is full. -/
def ringBytesC (pr cn : Nat) : List Byte := (ringBytes pr).take 24 ++ leBytes 8 cn ++ leBytes 24 0
def ringSC (pr cn : Nat) : State := { pktS with mem := { data := Memory.wrN [] 0xC00000 (ringBytesC pr cn) } }
theorem witness_ring :
    ((ringS 0).arrives tokPkt 6 ∧ tokPkt.whole = 0 ∧ ((ringS 0).dom 0).binding = some bind0 ∧ spaceOf bind0.rings = some .dom)
    ∧ (let v := ((ringS 0).freeIn tokPkt).reads 0 ringE 64 { r := true, w := true, k := false }
       v.ringAt 0 ringE = some (ringOf 0) ∧ 0 + (1 + tokPkt.data.length / 64) ≤ 64)
    ∧ ((ringS 63).arrives tokPkt 6
      ∧ (let v := ((ringS 63).freeIn tokPkt).reads 0 ringE 64 { r := true, w := true, k := false }
         v.ringAt 0 ringE = some (ringOf 63) ∧ 64 < 63 + (1 + tokPkt.data.length / 64)))
    ∧ ((ringSC 63 60).arrives tokPkt 6
      ∧ (let v := ((ringSC 63 60).freeIn tokPkt).reads 0 ringE 64 { r := true, w := true, k := false }
         v.ringAt 0 ringE = some { ringOf 63 with cons := 60 }
           ∧ 64 < 63 + (1 + tokPkt.data.length / 64) ∧ 3 + (1 + tokPkt.data.length / 64) + (64 - 63) ≤ 64)) :=
  ⟨⟨arrives_mk (by decide +kernel), by decide +kernel⟩, by decide +kernel, ⟨arrives_mk (by decide +kernel), by decide +kernel⟩,
   arrives_mk (by decide +kernel), by decide +kernel⟩

/-- An outstanding WRITE of a transfer, a token, a stranded and a busy packet, and their answers. -/
def heldP (pt : BitVec 8) (x : BitVec 16) : Pkt := { dst := 1, ptype := pt, xtag := x }
def ansS : State :=
  { pktS with
    beacon := 1000000, clk := 1000
    fab := { held := [{ pkt := heldP 1 0, owner := .dma 0 1 0 3 }, { pkt := heldP 6 1, owner := .tok 0 1 0 },
                      { pkt := heldP 1 2, owner := .dma 0 1 0 3, st := .stranded 0 }, { pkt := heldP 2 3, owner := .readReq 0 1 0 3, st := .busy 0 }] }
    doms := [(0, dom0 { runWick with tokd := [{ tok1 with xtag := 1 }] })] }
def ansP (pt : BitVec 8) (x : BitVec 16) (code : DWord) : Pkt := { src := 1, ptype := pt, xtag := x, aux := code }
theorem witness_answers :
    (∃ h, Claims.answers ansS (ansP 4 0 0) 4 ∧ ansS.heldBy (ansP 4 0 0) = some h ∧ h.owner = .dma 0 1 0 3)
    ∧ (∃ h r, Claims.answers ansS (ansP 4 1 0) 4 ∧ ansS.heldBy (ansP 4 1 0) = some h ∧ h.owner = .tok 0 1 0
        ∧ ((ansS.wickAt 0 1 0).tokd.find? fun t => t.xtag == h.pkt.xtag.toNat) = some r)
    ∧ (∃ h, Claims.answers ansS (ansP 5 3 4) 5 ∧ (ansS.fab.held.find? fun h => h.pkt.xtag == 3#16) = some h ∧ (ansP 5 3 4).aux = 4)
    ∧ (∃ h, Claims.answers ansS (ansP 5 0 5) 5 ∧ (ansS.fab.held.find? fun h => h.pkt.xtag == 0#16) = some h ∧ h.owner = .dma 0 1 0 3
        ∧ (ansP 5 0 5).aux = 5)
    ∧ (∃ h, Claims.answers ansS (ansP 5 0 6) 5 ∧ (ansS.fab.held.find? fun h => h.pkt.xtag == 0#16) = some h ∧ h.owner = .dma 0 1 0 3
        ∧ (ansP 5 0 6).aux = 6)
    ∧ (∃ h, Claims.answers ansS (ansP 5 1 1) 5 ∧ (ansS.fab.held.find? fun h => h.pkt.xtag == 1#16) = some h ∧ h.owner = .tok 0 1 0)
    ∧ (∃ h, (ansS.fab.held.find? fun h => h.pkt.xtag == 2#16) = some h ∧ h.st = .stranded 0 ∧ 0 + 1000000 ≤ ansS.beacon ∧ ansS.dev.st = .run)
    ∧ (∃ h, (ansS.fab.held.find? fun h => h.pkt.xtag == 3#16) = some h ∧ h.st = .busy 0 ∧ 0 + 1000 ≤ ansS.clk) :=
  ⟨⟨_, ⟨rfl, rfl, rfl, by decide +kernel⟩, rfl, rfl⟩, ⟨_, { tok1 with xtag := 1 }, ⟨rfl, rfl, rfl, by decide +kernel⟩, rfl, rfl, by decide +kernel⟩,
   ⟨_, ⟨rfl, rfl, rfl, by decide +kernel⟩, rfl, rfl⟩, ⟨_, ⟨rfl, rfl, rfl, by decide +kernel⟩, rfl, rfl, rfl⟩,
   ⟨_, ⟨rfl, rfl, rfl, by decide +kernel⟩, rfl, rfl, rfl⟩, ⟨_, ⟨rfl, rfl, rfl, by decide +kernel⟩, rfl, rfl⟩,
   ⟨_, rfl, rfl, by decide, rfl⟩, ⟨_, rfl, rfl, by decide⟩⟩

/-- A joint session with chip 1, which is not confirmed; a closing binding. -/
def jointS : State := { pktS with sec := { doms := [(0, { joint := .active })] } }
def jpPkt : Pkt := { src := 1, ptype := 8, pspec := 0x300 }
theorem witness_messages :
    (fwdS.dev.st = .run ∧ (5#13).toNat ≠ fwdS.fab.chip ∧ (3#6).toNat < 36 ∧ FMap.wf 0 fwdS.fab.cong = true
      ∧ FMap.get false fwdS.fab.view (5 * 64 + 3) = false ∧ (0#5).toNat = memOf fwdS.fab.chip ∧ (1#5).toNat ≠ memOf fwdS.fab.chip)
    ∧ (jointS.dev.st = .run ∧ jpPkt.ptype = 8 ∧ jpPkt.dst.toNat = jointS.fab.chip ∧ jpPkt.badCtrl = false ∧ jpPkt.pspec.toNat % 2 ^ 16 = 0x300
      ∧ jointS.ctrlDom jpPkt = some 0 ∧ (((jointS.freeIn jpPkt).ack jpPkt).sec.dom 0).joint ≠ .none ∧ jpPkt.data = ((jointS.freeIn jpPkt).ack jpPkt).peerBytes 0
      ∧ jpPkt.src.toNat ∉ (((jointS.freeIn jpPkt).ack jpPkt).sec.dom 0).confirmed)
    ∧ (let s : State := { beacon := 1000000000, doms := [(0, { closing := some (bind0, 0) })] }
       (s.dom 0).closing = some (bind0, 0) ∧ 0 + 1000000000 ≤ s.beacon) := by decide +kernel

/-! ### Witnesses: collectives -/

/-- A collective of `count` on a READY communicator of chips 0 (this one) and 1; the packet that chip 1 sends for it. -/
def op1 (op count root : Nat) (sums : FMap (Nat × Nat × List Word)) : CollOp :=
  { seq := 0, op := op, fmt := 0, count := count, root := root, src := domA, dst := 0x4000000100210000#64, sig := 9, ctx := 1, wk := 0, pc := 0
    fence := none, issued := 0, tok := domA, opened := 1, sums := sums }
def commR (algo : Bool) (o : CollOp) : Comm := { comm1 with algo := algo, st := .ready, issued := 1, ops := [o] }
def redS (x : Comm) : State := { pktS with eng := { comms := [(0, [(1, x)])] } }
def redP (i : Item) : Pkt := { wrPkt with ptype := 7, adr := 0, pspec := reduceSpec 1 0 1 9 i }
theorem reduce_mk {s : State} {p : Pkt} {kind : Nat} {x : Comm}
    (h : (s.dev.st = .run ∧ p.ptype = 7 ∧ p.dst.toNat = s.fab.chip ∧ p.malformed = false ∧ s.admits p = true) ∧ p.redKind = kind
      ∧ (kind ≠ 2 → p.redLevel = 0) ∧ s.comm? p.ddom.toNat p.redComm = some x ∧ x.st ≠ .broken ∧ x.ranks.getD p.redRank 0x2000 = p.src.toNat) :
    Claims.reduceOk s p kind x := h
theorem item_mk {p : Pkt} {x : Comm} {o : CollOp}
    (h : x.op? (fullSeq x.issued p.redSeq) = some o ∧ p.redSig = o.sig ∧ p.data.length = o.itemLen x.nranks p.item
      ∧ (x.itemsOf o p.redRank x.myrank).contains p.item = true ∧ x.arrived o p.redRank p.item = false) : Claims.itemOk p x o := h

/-- CONTRIB in its turn, and before its turn: a reduce-scatter of 32 FP32 elements. -/
def ctr (nx : Nat) : CollOp := op1 2 32 0 [(0, (0, nx, List.replicate 16 0))]
def ctrP : Pkt := redP { kind := 1 }
theorem witness_contrib :
    (Claims.reduceOk (redS (commR false (ctr 1))) ctrP 1 (commR false (ctr 1)) ∧ Claims.itemOk ctrP (commR false (ctr 1)) (ctr 1)
      ∧ FMap.find? (ctr 1).sums ctrP.redChunk = some (0, 1, List.replicate 16 0) ∧ 1 = ctrP.redRank)
    ∧ (Claims.reduceOk (redS (commR false (ctr 0))) ctrP 1 (commR false (ctr 0)) ∧ Claims.itemOk ctrP (commR false (ctr 0)) (ctr 0)
      ∧ FMap.find? (ctr 0).sums ctrP.redChunk = some (0, 0, List.replicate 16 0) ∧ 0 ≠ ctrP.redRank
      ∧ ∃ t, (Claims.noted (redS (commR false (ctr 0))) ctrP (commR false (ctr 0))).engWrite 0 ((commR false (ctr 0)).slotAdr ctrP.redRank 0) ctrP.data
          = .ok t) :=
  ⟨⟨reduce_mk (by decide +kernel), item_mk (by decide +kernel), by decide +kernel, by decide +kernel⟩,
   reduce_mk (by decide +kernel), item_mk (by decide +kernel), by decide +kernel, by decide +kernel, exOf (by decide +kernel)⟩
/-- The contribution of rank 0, the first to be added, at rank 1. -/
def ctr0P : Pkt := { wrPkt with ptype := 7, adr := 0, pspec := reduceSpec 1 0 0 9 { kind := 1, shard := 1 } }
def comm01 : Comm := { commR false (ctr 0) with myrank := 1, ranks := [1, 0] }
theorem witness_first_contrib : Claims.reduceOk (redS comm01) ctr0P 1 comm01 ∧ Claims.itemOk ctr0P comm01 (ctr 0)
    ∧ FMap.find? (ctr 0).sums ctr0P.redChunk = some (0, 0, List.replicate 16 0) ∧ 0 = ctr0P.redRank :=
  ⟨reduce_mk (by decide +kernel), item_mk (by decide +kernel), by decide +kernel, by decide +kernel⟩
/-- RESULT of a fused reduction of 32 elements to update 7. -/
theorem witness_fused_result : let o : CollOp := { op1 6 1040 0 [] with upd := some 7, tokmode := true }
    let x := commR false o; let p := redP { kind := 3, shard := 1 }
    Claims.reduceOk (redS x) p 3 x ∧ Claims.itemOk p x o ∧ o.upd = some 7
      ∧ ∃ n, o.resultIndex x.nranks p.redShard p.redChunk = n ∧ Claims.itemOk p (commR false { o with fed := n }) { o with fed := n } :=
  ⟨reduce_mk (by decide +kernel), item_mk (by decide +kernel), rfl, _, rfl, item_mk (by decide +kernel)⟩
theorem witness_partial : let x := commR true (op1 2 32 0 []); let p := redP { kind := 2, level := 1 }
    Claims.reduceOk (redS x) p 2 x ∧ Claims.itemOk p x (op1 2 32 0 []) := ⟨reduce_mk (by decide +kernel), item_mk (by decide +kernel)⟩
/-- RESULT of an all-reduce of 1040 elements, GATHER and BCAST of 64 bytes, TOKSUM. -/
theorem witness_lands :
    (let o := op1 1 1040 0 []; let x := commR false o; let p := redP { kind := 3, shard := 1 }
     Claims.reduceOk (redS x) p 3 x ∧ Claims.itemOk p x o ∧ o.upd = none
       ∧ ∃ t, (Claims.noted (redS x) p x).engWrite 0 (o.resAdr x.nranks p.redShard p.redChunk) p.data = .ok t)
    ∧ (let o := op1 3 64 0 []; let x := commR false o; let p := redP { kind := 4, shard := 1 }
       Claims.reduceOk (redS x) p 4 x ∧ Claims.itemOk p x o
         ∧ ∃ t, (Claims.noted (redS x) p x).engWrite 0 (movAdr o.dst (p.redShard * o.count + 4096 * p.redChunk)) p.data = .ok t)
    ∧ (let o := op1 4 64 1 []; let x := commR false o; let p := redP { kind := 5 }
       Claims.reduceOk (redS x) p 5 x ∧ Claims.itemOk p x o
         ∧ ∃ t, (Claims.noted (redS x) p x).engWrite 0 (movAdr o.dst (4096 * p.redChunk)) p.data = .ok t)
    ∧ (let o := op1 6 32 0 []; let x := commR false o; let p := redP { kind := 8 }
       Claims.reduceOk (redS x) p 8 x ∧ Claims.itemOk p x o
         ∧ ∃ t, (Claims.noted (redS x) p x).engWrite 0 (x.tokAdr p.redRank (o.seq % 8)) (p.data.take 8) = .ok t) :=
  ⟨⟨reduce_mk (by decide +kernel), item_mk (by decide +kernel), rfl, exOf (by decide +kernel)⟩,
   ⟨reduce_mk (by decide +kernel), item_mk (by decide +kernel), exOf (by decide +kernel)⟩,
   ⟨reduce_mk (by decide +kernel), item_mk (by decide +kernel), exOf (by decide +kernel)⟩,
   reduce_mk (by decide +kernel), item_mk (by decide +kernel), exOf (by decide +kernel)⟩
def bar : CollOp := op1 5 0 0 []
def commD : Comm := { commR false bar with myrank := 1, ranks := [1, 0] }
theorem witness_barrier :
    (let x := commR false bar; let p := redP { kind := 6 }
     Claims.reduceOk (redS x) p 6 x ∧ x.done ≤ fullSeq x.issued p.redSeq ∧ p.redRank ∈ (childPos x.nranks x.myrank).map (·.2))
    ∧ (let p := { redP { kind := 7 } with pspec := reduceSpec 1 0 0 9 { kind := 7 } }
       Claims.reduceOk (redS commD) p 7 commD ∧ commD.done ≤ fullSeq commD.issued p.redSeq ∧ commD.myrank ≠ 0 ∧ p.redRank = parentPos commD.myrank) :=
  ⟨⟨reduce_mk (by decide +kernel), by decide +kernel, by decide +kernel⟩, reduce_mk (by decide +kernel), by decide +kernel⟩

/-- READY that agrees and that does not, GRANT, BREAK. -/
def ctlP (ty v cause : Nat) : Pkt := { src := 1, ptype := 8, pspec := BitVec.ofNat 192 (ty + 0x10000 + 0x100000000 + v * 0x10000000000000000 + cause * 0x100000000000000000000000000000000) }
theorem msg_mk {s : State} {p : Pkt} {ty d : Nat} {x : Comm}
    (h : s.dev.st = .run ∧ p.ptype = 8 ∧ p.dst.toNat = s.fab.chip ∧ p.badCtrl = false ∧ p.msgType = ty ∧ p.pspec.toNat / 2 ^ 160 = 0
      ∧ s.ctrlDom p = some d ∧ s.comm? d p.ctlComm = some x ∧ x.ranks.getD p.ctlRank 0x2000 = p.src.toNat ∧ p.ctlRank ≠ x.myrank) :
    Claims.collMsgOk s p ty d x := h
theorem witness_communicators :
    (Claims.collMsgOk (redS comm1) (ctlP 0x100 comm1.check 0) 0x100 0 comm1 ∧ comm1.st = .creating
      ∧ (ctlP 0x100 comm1.check 0).ctlValue % 2 ^ 32 = comm1.check)
    ∧ (Claims.collMsgOk (redS comm1) (ctlP 0x100 0 0) 0x100 0 comm1 ∧ comm1.st ≠ .broken ∧ (ctlP 0x100 0 0).ctlValue % 2 ^ 32 ≠ comm1.check)
    ∧ (let x : Comm := { comm1 with st := .ready }
       Claims.collMsgOk (redS x) (ctlP 0x100 x.check 0) 0x100 0 x ∧ x.st = .ready ∧ (ctlP 0x100 x.check 0).ctlValue % 2 ^ 32 = x.check)
    ∧ Claims.collMsgOk (redS comm1) (ctlP 0x101 3 0) 0x101 0 comm1
    ∧ (Claims.collMsgOk (redS comm1) (ctlP 0x102 0 5) 0x102 0 comm1 ∧ 1 ≤ (ctlP 0x102 0 5).ctlCause ∧ (ctlP 0x102 0 5).ctlCause ≤ 5) :=
  ⟨⟨msg_mk (by decide +kernel), rfl, by decide +kernel⟩, ⟨msg_mk (by decide +kernel), by decide, by decide +kernel⟩,
   ⟨msg_mk (by decide +kernel), rfl, by decide +kernel⟩, msg_mk (by decide +kernel), msg_mk (by decide +kernel), by decide +kernel⟩
theorem witness_collective_timers :
    (let s : State := { redS comm1 with beacon := 1000000 }
     s.comm? (0#8).toNat (1#16).toNat = some comm1 ∧ s.dev.st = .run ∧ comm1.st = .creating ∧ comm1.readyAt + 1000000 ≤ s.beacon)
    ∧ (let o := { bar with released := true }; let x := commR false o; let s : State := { redS x with beacon := 10000000 }
       s.comm? 0 1 = some x ∧ x.ops = [o] ∧ x.statAt + 1000000 ≤ s.beacon ∧ x.opDone o = true ∧ o.fence = none ∧ s.fusedBefore 0 1 o.seq = false
         ∧ x.op? (BitVec.toNat (w := 64) 0) = some o ∧ o.issued + (o.dog + 1) * x.wdog * 1000000 ≤ s.beacon ∧ FMap.wf 0 s.eng.wait = true) := by
  decide +kernel

/-! ### Witnesses: queues and host commands -/

/-- Queue 0 of domain 0, its command at the head; context 2 is live without a program and 3 is aborted; a page without Wick permission at DOMAIN offset
0x100400000 and a Reservoir page; a stream is Secure. -/
def qCmd (c : Cmd) : SQueue := { en := true, log2 := 4, fetched := [c] }
def cmdDom (q : SQueue) : Dom :=
  { there := true, driver := true, ctxs := [(2, {}), (3, { status := .aborted })], qs := [(0, q)]
    recs := [{ kind := .prog, base := 0x100000000, pages := 1 }, { kind := .map, base := 0x100400000, pages := 1 }]
    ptH := (dom0 {}).ptH ++ [(0x802, { frame := 0xE00000, r := true, w := true, x := false, k := false })]
    ptR := [(0x4000, { frame := 2 ^ 41, r := true, w := true, x := false, k := false })] }
def cmdSt (m : Dom) (bs : List Byte) : State :=
  { dev := { st := .run, vfEnable := true, numVfs := 1 }, doms := [(0, m)]
    mem := { data := Memory.wrN [] 0xC00000 bs, doms := [(0, { qh := 0x100, qr := 0x100 })] }
    sec := { streams := [(0, { secure := true })] } }
def cmd (op : Nat) (ctx : Nat) (args : Nat) : Cmd := { opcode := BitVec.ofNat 8 op, flags := 2, ctx := BitVec.ofNat 16 ctx, args := BitVec.ofNat 192 args }
theorem starts_mk {s : State} {d q op : Nat} {c : Cmd} {rest : List Cmd}
    (h : (s.dom d).there = true ∧ (s.dom d).fenced = false ∧ (s.queue d q).fetched = c :: rest ∧ c.opcode.toNat = op
      ∧ (s.queue d q).started.length < 16 ∧ (c.flags.getLsbD 3 = true → (s.queue d q).started = []) ∧ c.malformed = false
      ∧ c.flags.getLsbD 0 = false ∧ c.flags.getLsbD 1 = true
      ∧ ((c.ctx = 0 ∧ needsCtx op = false) ∨ (c.ctx ≠ 0 ∧ op = 0x11)
        ∨ (c.ctx ≠ 0 ∧ (match s.ctx? d c.ctx.toNat with | some x => decide (x.status = .live) | none => false) = true))) :
    Claims.Starts s d q op c rest := by
  obtain ⟨h1, h2, h3, h4, h5, h6, h7, h8, h9, h10⟩ := h
  refine ⟨⟨h1, h2, h3, h4, h5, h6, h7, h8, .inl h9⟩, ?_⟩
  rcases h10 with h | h | ⟨h, h'⟩
  · exact .inl h
  · exact .inr (.inl h)
  · refine .inr (.inr ?_)
    cases hx : s.ctx? d c.ctx.toNat with
    | none => simp [hx] at h'
    | some x => exact ⟨x, h, rfl, by simpa [hx] using h'⟩
theorem exSome {α β : Type} {x : Option (α × β)} (h : x.isSome = true) : ∃ t f, x = some (t, f) := by
  cases x with
  | some v => exact ⟨v.1, v.2, rfl⟩
  | none => simp at h
theorem exPair {ε α β : Type} {x : Except ε (α × β)} (h : (match x with | .ok _ => true | .error _ => false) = true) : ∃ t f, x = .ok (t, f) := by
  cases x with
  | ok v => exact ⟨v.1, v.2, rfl⟩
  | error e => simp at h

/-- Doorbells, EN, a command that waits for FENCE word 1, and one that completes. -/
def waitCmd (v : DWord) (op : BitVec 8) : Cmd := { opcode := op, flags := 3, wref := fenA, wval := v }
theorem witness_queues :
    (let s := cmdSt (cmdDom (qCmd (cmd 1 0 0))) []; let x := s.queue (0#8).toNat (0#6).toNat
     s.doorOpen 0 = true ∧ x.en = true ∧ (3#32).toNat % 2 ^ 16 < x.size ∧ x.size ≤ (16#32).toNat % 2 ^ 16 ∧ x.fetched = [cmd 1 0 0])
    ∧ (let x : SQueue := { log2 := 4 }; 4 ≤ x.log2 ∧ x.log2 ≤ 12 ∧ x.en = false ∧ x.sqBase.toNat % 4096 = 0 ∧ x.cqBase.toNat % 4096 = 0
        ∧ (cmdSt (cmdDom x) []).doorOpen 0 = true)
    ∧ (let c := waitCmd 5 1; let s := cmdSt (cmdDom (qCmd c)) []
       (s.dom 0).there = true ∧ (s.dom 0).fenced = false ∧ (s.queue 0 0).fetched = [c] ∧ (s.queue 0 0).started.length < 16 ∧ c.flags.getLsbD 3 = false
         ∧ c.malformed = false ∧ c.flags.getLsbD 0 = true ∧ (s.dom 0).badRef c.wref c.wval = false ∧ c.flags.getLsbD 1 = true
         ∧ (s.fenceGet 0 0 0 c.wref).toNat < c.wval.toNat)
    ∧ (let c := waitCmd 0 1; let s := cmdSt { cmdDom (qCmd c) with fences := [(1, 0x8000000000000000#64)] } []
       (s.dom 0).badRef c.wref c.wval = false ∧ c.wval.toNat ≤ (s.fenceGet 0 0 0 c.wref).toNat ∧ (s.fenceGet 0 0 0 c.wref).getLsbD 63 = true)
    ∧ (let c := waitCmd 0 1; let s := cmdSt (cmdDom (qCmd c)) []
       c.wval.toNat ≤ (s.fenceGet 0 0 0 c.wref).toNat ∧ (s.fenceGet 0 0 0 c.wref).getLsbD 63 = false ∧ c.opcode = 1 ∧ c.ctx = 0)
    ∧ (let r : RunCmd := { cmd := cmd 1 0 0, st := some 0 }; let s := cmdSt (cmdDom { started := [r] }) []
       (s.queue 0 0).started = [r] ∧ r.raised = false ∧ r.st = some 0)
    ∧ (let r : RunCmd := { cmd := cmd 0x10 2 0 }; let p := { prog0 with lants := [] }
       let s := cmdSt { cmdDom { started := [r] } with ctxs := [(2, { prog := some p })] } []
       (s.queue 0 0).started = [r] ∧ r.raised = false ∧ r.st = none ∧ r.cmd.opcode = 0x10 ∧ s.launchDone 0 r.cmd.ctx.toNat = true) := by
  decide +kernel

/-- A code object of one bundle (R145); LAUNCH on one Lantern; MAP anywhere; COPY both ways. -/
def image0 : List Byte :=
  [0x41, 0x4D, 0x53, 0x4D, 0, 1, 0, 0] ++ leBytes 8 32 ++ leBytes 16 0 ++ sha384 (List.replicate 32 0) ++ List.replicate 80 0
def cmdNopS : State := cmdSt (cmdDom (qCmd (cmd 1 0 0))) []
theorem witness_nop : Claims.Starts cmdNopS 0 0 1 (cmd 1 0 0) [] := starts_mk (by decide +kernel)
theorem witness_first_tag : let c := cmd 1 9 0; let s := cmdSt (cmdDom (qCmd c)) []
    Claims.Ready s 0 0 1 c [] ∧ c.ctx ≠ 0 ∧ s.ctx? 0 9 = none ∧ (s.dom 0).ctxs.length < 4096 :=
  ⟨⟨by decide +kernel, by decide +kernel, by decide +kernel, by decide +kernel, by decide +kernel, by decide +kernel, by decide +kernel,
    by decide +kernel, .inl (by decide +kernel)⟩, by decide +kernel⟩
def loadCmd : Cmd := cmd 8 0 (0x4000000100200000 + 160 * 2 ^ 64)
def loadS : State := cmdSt (cmdDom (qCmd loadCmd)) image0
def loadR : State := (Claims.popped loadS 0 0 []).cmdReads 0 (loadCmd.arg64 0x28) 64 (loadCmd.arg 0x30 8)
theorem witness_prog_load : Claims.Starts loadS 0 0 8 loadCmd []
    ∧ (∃ bs, loadR.cmdRead 0 (loadCmd.arg64 0x28) 64 (loadCmd.arg 0x30 8) = .ok bs ∧ goodImage bs = true
        ∧ ∃ t off, loadR.allocPages 0 .prog false ((bs.length + 2 ^ 21 - 1) / 2 ^ 21) 0
            (fun f => { frame := f, r := true, w := false, x := true, k := true }) (fieldAt bs 0x10 8) = .ok (t, off))
    ∧ (loadR.sec.dom 0).policy = none :=
  ⟨starts_mk (by decide +kernel), ⟨image0, okOf (by decide +kernel), by decide +kernel, exPair (by decide +kernel)⟩, by decide +kernel⟩
def rec0 : AllocRec := { kind := .prog, base := 0x100000000, pages := 1 }
def unlCmd : Cmd := cmd 9 0 0x4000000100000000
theorem witness_prog_unload : let s := cmdSt (cmdDom (qCmd unlCmd)) []
    Claims.Starts s 0 0 9 unlCmd [] ∧ ((Claims.popped s 0 0 []).dom 0).program (unlCmd.arg64 0x28) = some rec0
    ∧ (((Claims.popped s 0 0 []).dom 0).ctxs.all fun p => p.2.prog.isNone) = true :=
  ⟨starts_mk (by decide +kernel), by decide +kernel, by decide +kernel⟩
def launchCmd : Cmd := cmd 0x10 2 (0x4000000100000000 + 1 * 2 ^ 144)
def launchS : State := cmdSt (cmdDom (qCmd launchCmd)) []
theorem witness_launch : Claims.Starts launchS 0 0 0x10 launchCmd []
    ∧ (let w := (Claims.popped launchS 0 0 []).cmdReads 0 (launchCmd.arg64 0x30) 64 (launchCmd.arg 0x38 2)
       let lants := sortBy (fun (a b : Nat) => decide (a ≤ b)) (w.lantOrder.take 1)
       let need := sumBy (fun l => (w.lantern l).slotFrames) lants
       w.ctx? 0 2 = some {} ∧ ({} : Ctx).prog = none ∧ (w.dom 0).program (launchCmd.arg64 0x28) = some rec0 ∧ launchCmd.arg 0x38 2 = 0
         ∧ launchCmd.arg 0x3A 1 = 1 ∧ 1 ≤ w.inService.length ∧ (w.memDom 0).usedH + need ≤ w.quota 0 false ∧ need ≤ w.freeCount false) :=
  ⟨starts_mk (by decide +kernel), by decide +kernel⟩
theorem witness_ctx_commands :
    (let c := cmd 0x12 2 5; Claims.Starts (cmdSt (cmdDom (qCmd c)) []) 0 0 0x12 c [] ∧ (cmdSt (cmdDom (qCmd c)) []).ctx? 0 2 = some {})
    ∧ (let c := cmd 0x11 9 0; Claims.Starts (cmdSt (cmdDom (qCmd c)) []) 0 0 0x11 c [] ∧ (cmdSt (cmdDom (qCmd c)) []).ctx? 0 9 = none)
    ∧ (let c := cmd 0x11 3 0; Claims.Starts (cmdSt (cmdDom (qCmd c)) []) 0 0 0x11 c []
        ∧ (cmdSt (cmdDom (qCmd c)) []).ctx? 0 3 = some { status := .aborted }) :=
  ⟨⟨starts_mk (by decide +kernel), by decide +kernel⟩, ⟨starts_mk (by decide +kernel), by decide +kernel⟩,
   starts_mk (by decide +kernel), by decide +kernel⟩
def mapCmd : Cmd := cmd 0x18 0 (0x4000000100800000 + 0x10 * 2 ^ 64 + 1 * 2 ^ 72)
def mapS : State := cmdSt (cmdDom (qCmd mapCmd)) []
theorem witness_map : Claims.Starts mapS 0 0 0x18 mapCmd []
    ∧ (let u := Claims.popped mapS 0 0 []; let o := offOf (mapCmd.arg64 0x28)
       (u.dom 0).driver = true ∧ spaceOf (mapCmd.arg64 0x28) = some .dom ∧ o % frameSize (decide (2 ^ 56 ≤ o)) = 0 ∧ (u.dom 0).pte o = none
         ∧ (u.memDom 0).used (decide (2 ^ 56 ≤ o)) + 1 ≤ u.quota 0 (decide (2 ^ 56 ≤ o)) ∧ u.freeCount (decide (2 ^ 56 ≤ o)) ≠ 0)
    ∧ ∃ t f, (Claims.popped mapS 0 0 []).mapFrame 0 false (decide (16 ≤ mapCmd.arg 0x30 1)) (mapCmd.arg 0x30 1 % 16) = some (t, f) :=
  ⟨starts_mk (by decide +kernel), by decide +kernel, exSome (by decide +kernel)⟩
theorem witness_unmap : let c := cmd 0x19 0 0x4000000100400000; let s := cmdSt (cmdDom (qCmd c)) []
    Claims.Starts s 0 0 0x19 c [] ∧ spaceOf (c.arg64 0x28) = some .dom
    ∧ (((Claims.popped s 0 0 []).dom 0).recs.find? fun r => r.kind == .map && r.base == offOf (c.arg64 0x28))
        = some { kind := .map, base := 0x100400000, pages := 1 } := ⟨starts_mk (by decide +kernel), by decide +kernel, by decide +kernel⟩
/-- COPY of 64 bytes, or of 4,096 under a slot: direction, slot. -/
def copyCmd1 (dir slot : Nat) : Cmd :=
  cmd 0x20 0 (0x1000 + 0x4000000100200000 * 2 ^ 64 + (if slot = 0 then 64 else 4096) * 2 ^ 128 + dir * 2 ^ 160 + slot * 2 ^ 168)
theorem witness_copy : ∀ dir ∈ [0, 1], Claims.Starts (cmdSt (cmdDom (qCmd (copyCmd1 dir 0))) []) 0 0 0x20 (copyCmd1 dir 0) []
    ∧ (let u := Claims.popped (cmdSt (cmdDom (qCmd (copyCmd1 dir 0))) []) 0 0 []; let c := copyCmd1 dir 0; let o := offOf (c.arg64 0x30); let n := c.arg 0x38 4
       c.arg 0x3D 1 = 0 ∧ (u.sec.dom 0).policy = none ∧ u.issues 0 = true ∧ 0 < n ∧ n % 64 = 0 ∧ n ≤ 2 ^ 31 ∧ c.arg 0x28 8 % 64 = 0 ∧ o % 64 = 0
         ∧ spaceOf (c.arg64 0x30) = some .dom ∧ o + n ≤ 2 ^ 57 ∧ c.arg 0x3C 1 = dir ∧ n = 64
         ∧ (u.dom 0).mapOk o n { r := true, w := false, k := false } = true ∧ (u.dom 0).mapOk o n { r := false, w := true, k := false } = true) := by
  intro dir hd
  simp only [List.mem_cons, List.not_mem_nil, or_false] at hd
  rcases hd with rfl | rfl <;> exact ⟨starts_mk (by decide +kernel), by decide +kernel⟩
/-- A COPY that runs: out, in with its bytes, and both under the slot 3 of the domain. -/
def copyRun (dir slot : Nat) (data : List Byte) : RunCmd := { cmd := copyCmd1 dir slot, st := none, data := data }
def copyS (r : RunCmd) : State :=
  { cmdSt (cmdDom { started := [r] }) [] with sec := { doms := [(0, { slots := [(3, { owner := 0, a := [1], m := [2] })] })] } }
def copyEnds (dir slot : Nat) (data : List Byte) : Bool :=
  let c := copyCmd1 dir slot; let r := copyRun dir slot data; let o := offOf (c.arg64 0x30); let n := c.arg 0x38 4
  let u := (copyS r).setQueue 0 0 { (copyS r).queue 0 0 with started := [] }
  decide (((copyS r).queue 0 0).started = [r] ∧ r.cmd = c ∧ r.raised = false ∧ r.st = none ∧ c.opcode = 0x20
    ∧ (u.dom 0).mapOk o n { r := dir == 1, w := dir == 0, k := false } = true ∧ (dir = 1 → (u.reads 0 o n).poisonAt 0 o n = none)
    ∧ (slot = 3 → c.arg 0x3D 1 ≠ 0 ∧ u.copyKey 0 c = some [3]) ∧ (slot = 0 → c.arg 0x3D 1 = 0 ∧ (dir = 0 → r.data.length = n)))
theorem witness_copy_ends : copyEnds 1 0 [] = true ∧ copyEnds 1 3 [] = true ∧ copyEnds 0 0 (List.replicate 64 0) = true ∧ copyEnds 0 3 [] = true := by
  decide +kernel
/-- A sealed record whose tag holds, where the tag of GCM is zeros. -/
theorem witness_unseal (h : ∀ k n l, (Config.gcmTag k n l).take 16 = List.replicate 16 0) (s : State) (key : List Byte) :
    ∃ t, s.unsealRecs 0 key (leBytes 8 0 ++ leBytes 4 0 ++ leBytes 4 1 ++ List.replicate 4112 0) 0x100200000 1 0 1 = (t, some 0, 0) := by
  simp only [State.unsealRecs, h]
  rw [if_neg (by decide +kernel)]
  exact ⟨_, rfl⟩

/-- FABRIC_BIND of chip 0 alone; FABRIC_UNBIND; EHT_LOAD of one empty entry; EHT_COMMIT; the bank copy. -/
def bindHdr : List Byte := leBytes 8 7 ++ leBytes 8 1 ++ leBytes 8 0x4000000100200100 ++ leBytes 40 0
def bindCmd : Cmd := cmd 0x28 0 0x4000000100200000
def bindS : State := cmdSt (cmdDom (qCmd bindCmd)) bindHdr
def bindV : State := (Claims.popped bindS 0 0 []).cmdReads 0 (bindCmd.arg64 0x28) 64 64
def bindW : State := bindV.cmdReads 0 (BitVec.ofNat 64 (fieldAt bindHdr 0x10 8)) 4 (4 * fieldAt bindHdr 8 2)
theorem witness_bind : Claims.Starts bindS 0 0 0x28 bindCmd []
    ∧ bindV.cmdRead 0 (bindCmd.arg64 0x28) 64 64 = .ok bindHdr
    ∧ bindW.cmdReadTable 0 (BitVec.ofNat 64 (fieldAt bindHdr 0x10 8)) 4 4 (fieldAt bindHdr 8 2) = .ok [0]
    ∧ (let u := Claims.popped bindS 0 0 []; let h := bindHdr
       (u.sec.dom 0).policy = none ∧ (u.dom 0).binding = none ∧ fieldAt h 0xA 6 = 0 ∧ fieldAt h 0x28 24 = 0 ∧ (∀ e ∈ [0], e < 2 ^ 21) ∧ fieldAt h 0 8 ≠ 0
         ∧ 1 ≤ fieldAt h 8 2 ∧ fieldAt h 8 2 ≤ 4128 ∧ rising [0] = true ∧ bindW.fab.chip = 0) :=
  ⟨starts_mk (by decide +kernel), okOf (by decide +kernel), okOf (by decide +kernel), by decide +kernel⟩
def boundSt (c : Cmd) (bs : List Byte) : State := cmdSt { cmdDom (qCmd c) with binding := some bind0 } bs
def ehtSt (c : Cmd) : State := { boundSt c [] with fab := { segs := [(0, { len := 1 })] } }
def ehtCmd : Cmd := cmd 0x2A 0 (0x4000000100200000 + 1 * 2 ^ 96)
theorem witness_fabric :
    (let c := cmd 0x29 0 0; let u := Claims.popped (boundSt c []) 0 0 []
     Claims.Starts (boundSt c []) 0 0 0x29 c [] ∧ (u.sec.dom 0).policy = none ∧ (u.dom 0).binding ≠ none ∧ FMap.get [] u.eng.comms 0 = [])
    ∧ (let c := ehtCmd; let u := Claims.popped (ehtSt c) 0 0 []
       Claims.Starts (ehtSt c) 0 0 0x2A c [] ∧ (u.dom 0).binding ≠ none ∧ c.arg 0x30 4 + c.arg 0x34 4 ≤ (FMap.get {} u.fab.segs 0).len * 256
         ∧ (let w := u.cmdReads 0 (c.arg64 0x28) 1 (16 * c.arg 0x34 4)
            w.cmdReadTable 0 (c.arg64 0x28) 1 16 (c.arg 0x34 4) = .ok [0] ∧ (∀ e ∈ [0], w.badEntry 0 e = false)
              ∧ (FMap.get {} w.fab.segs 0).copying = false))
    ∧ (let c := cmd 0x2B 2 5
       Claims.Starts (boundSt c []) 0 0 0x2B c [] ∧ (boundSt c []).ctx? 0 2 = some {} ∧ ({} : Ctx).step.toNat < (c.arg64 0x28).toNat)
    ∧ (let f : FabSt := { segs := [(0, { len := 1, copying := true })], bankA := [(3, 5)] }
       (FMap.get {} f.segs 0).copying = true ∧ FMap.wf 0 f.bankA = true ∧ FMap.wf 0 f.bankB = true ∧ FMap.wf {} f.segs = true) :=
  ⟨⟨starts_mk (by decide +kernel), by decide +kernel⟩,
   ⟨starts_mk (by decide +kernel), by decide +kernel, by decide +kernel, okOf (by decide +kernel), by decide +kernel⟩,
   ⟨starts_mk (by decide +kernel), by decide +kernel⟩, by decide +kernel⟩

/-- COMM_CREATE of communicator 1 of chip 0 alone; COMM_DESTROY of an idle and of a busy one; COMM_ABORT. -/
def commHdr : List Byte :=
  leBytes 2 1 ++ leBytes 2 0 ++ leBytes 4 1 ++ leBytes 4 0 ++ leBytes 4 1 ++ leBytes 8 0x4000000100200100 ++ leBytes 8 0x4000000100400000
    ++ leBytes 8 0x4000000100200040 ++ leBytes 24 0
def commCmd : Cmd := cmd 0x30 0 0x4000000100200000
def commS : State := boundSt commCmd commHdr
def commV : State := (Claims.popped commS 0 0 []).cmdReads 0 (commCmd.arg64 0x28) 1 64
def commW : State := commV.cmdReads 0 (BitVec.ofNat 64 (fieldAt commHdr 0x10 8)) 1 2
theorem witness_comm_create : Claims.Starts commS 0 0 0x30 commCmd []
    ∧ commV.cmdRead 0 (commCmd.arg64 0x28) 1 64 = .ok commHdr
    ∧ commW.cmdReadTable 0 (BitVec.ofNat 64 (fieldAt commHdr 0x10 8)) 1 2 1 = .ok [0]
    ∧ (let v := commV; let w := commW; let h := commHdr
       let rbuf : DWord := BitVec.ofNat 64 (fieldAt h 0x18 8); let stat : DWord := BitVec.ofNat 64 (fieldAt h 0x20 8); let rlen := 1 * (1 * 4096 + 64)
       let eng : CollEng := FMap.get {} v.eng.coll 1
       fieldAt h 0 2 = 1 ∧ fieldAt h 2 2 = 0 ∧ fieldAt h 0xD 3 = 0 ∧ fieldAt h 0x2C 20 = 0 ∧ fieldAt h 4 4 = 1 ∧ fieldAt h 8 4 = 0 ∧ fieldAt h 0xC 1 = 1
         ∧ offOf rbuf % 4096 = 0 ∧ offOf stat % 64 = 0 ∧ spaceOf rbuf = some .dom ∧ offOf rbuf + rlen ≤ 2 ^ 56
         ∧ (v.dom 0).mapOk (offOf rbuf) rlen { r := true, w := true, k := false } = true
         ∧ (∀ a ∈ pageStarts (offOf rbuf) rlen, ((v.dom 0).pte a).all (fun p => !p.k) = true)
         ∧ spaceOf stat = some .dom ∧ (v.dom 0).mapOk (offOf stat) 64 { r := false, w := true, k := false } = true ∧ w.bound 0 0 = true
         ∧ noRepeat [0] = true ∧ w.fab.chip = 0 ∧ (v.dom 0).binding ≠ none ∧ w.comm? 0 1 = none ∧ (FMap.get [] w.eng.comms 0).length < 256
         ∧ sumBy (fun (p : Nat × FMap Comm) => p.2.length) w.eng.comms < 1024
         ∧ eng.sums + sumNeed false 1 ≤ 2048 ∧ eng.comb + combNeed false 1 1 ≤ 1024) :=
  ⟨starts_mk (by decide +kernel), okOf (by decide +kernel), okOf (by decide +kernel), by decide +kernel⟩
def commSt (c : Cmd) (x : Comm) : State := { boundSt c [] with eng := { comms := [(0, [(1, x)])] } }
theorem witness_comm_end :
    (let c := cmd 0x31 0 1
     Claims.Starts (commSt c comm1) 0 0 0x31 c [] ∧ (Claims.popped (commSt c comm1) 0 0 []).comm? 0 (c.arg 0x28 2) = some comm1 ∧ comm1.ops = []
       ∧ comm1.peersBusy = false)
    ∧ (let c := cmd 0x31 0 1; let x := commR false bar
       Claims.Starts (commSt c x) 0 0 0x31 c [] ∧ (Claims.popped (commSt c x) 0 0 []).comm? 0 (c.arg 0x28 2) = some x ∧ x.ops ≠ [])
    ∧ (let c := cmd 0x32 0 1
       Claims.Starts (commSt c comm1) 0 0 0x32 c [] ∧ (Claims.popped (commSt c comm1) 0 0 []).comm? 0 (c.arg 0x28 2) = some comm1) :=
  ⟨⟨starts_mk (by decide +kernel), by decide +kernel⟩, ⟨starts_mk (by decide +kernel), by decide +kernel⟩,
   starts_mk (by decide +kernel), by decide +kernel⟩

/-! ### Witnesses: checkpoints -/

/-- A domain whose job checkpoint key exists: a policy, an ACTIVE joint session, the model key's slot. -/
def keySec : SecSt :=
  { streams := [(0, { secure := true })]
    doms := [(0, { policy := some (List.replicate 32 0), joint := .active, slots := [(0, { owner := 0xFE, a := [1], m := [2] })] })] }
def ckSt (c : Cmd) (bs : List Byte) (k : Ckpt) : State := { boundSt c bs with sec := keySec, ckpt := [(0, k)] }
/-- One section of KIND 1, the first 64 bytes after the descriptor's page of 0x100 bytes; the region in the Reservoir. -/
def ckDesc : List Byte :=
  leBytes 8 1 ++ leBytes 8 0x4100000100000000 ++ leBytes 8 4096 ++ leBytes 40 0
    ++ leBytes 8 1 ++ leBytes 8 64 ++ leBytes 8 0x4000000100200100 ++ leBytes 8 0
def cfgCmd : Cmd := cmd 0x38 2 0x4000000100200000
def cfgS : State := ckSt cfgCmd ckDesc {}
def cfgV : State := (Claims.popped cfgS 0 0 []).cmdReads 0 (cfgCmd.arg64 0x28) 64 64
def cfgW : State := cfgV.cmdReads 0 (cfgCmd.arg64 0x28) 64 (64 + 32 * fieldAt (ckDesc.take 64) 0 1)
theorem witness_ckpt_config : Claims.Starts cfgS 0 0 0x38 cfgCmd []
    ∧ cfgV.cmdRead 0 (cfgCmd.arg64 0x28) 64 64 = .ok (ckDesc.take 64)
    ∧ cfgW.cmdRead 0 (cfgCmd.arg64 0x28) 64 (64 + 32 * fieldAt (ckDesc.take 64) 0 1) = .ok ckDesc
    ∧ ((Claims.popped cfgS 0 0 []).ckptKey 0).isSome = true
    ∧ (let u := Claims.popped cfgS 0 0 []; let bs := ckDesc; let rgn : DWord := BitVec.ofNat 64 (fieldAt bs 8 8); let rlen := fieldAt bs 0x10 8
       u.buddyBound 0 = true ∧ (u.ck 0).conf = false ∧ badCkDesc bs = false
         ∧ (∀ x ∈ sectsOf bs, (u.dom 0).sectOk x = true ∧ (x.kind ≠ 4 → x.kind ≠ 6 → Machine.overlaps (offOf rgn) rlen (offOf x.sadr) x.len = false))
         ∧ offOf rgn % 2 ^ 18 = 0 ∧ rlen % 4096 = 0 ∧ spaceOf rgn = some .dom ∧ 2 ^ 56 ≤ offOf rgn ∧ offOf rgn + rlen ≤ 2 ^ 57
         ∧ (u.dom 0).mapOk (offOf rgn) rlen { r := true, w := true, k := false } = true ∧ (u.dom 0).noWick (offOf rgn) rlen = true) :=
  ⟨starts_mk (by decide +kernel), okOf (by decide +kernel), okOf (by decide +kernel), by decide +kernel, by decide +kernel⟩
def ckReady : Ckpt := { conf := true, rgn := 0x4100000100000000#64, rgnLen := 4096, rgnState := 3 }
def expCmd : Cmd := cmd 0x3A 0 (0x1000 + 4096 * 2 ^ 64)
theorem witness_ckpt_commands :
    (let c := cmd 0x39 0 0; Claims.Starts (ckSt c [] ckReady) 0 0 0x39 c [] ∧ ((Claims.popped (ckSt c [] ckReady) 0 0 []).ck 0).conf = true)
    ∧ (let c := expCmd; let u := Claims.popped (ckSt c [] ckReady) 0 0 []; let o := offOf (u.ck 0).rgn; let n := c.arg 0x30 8
       Claims.Starts (ckSt c [] ckReady) 0 0 0x3A c [] ∧ (u.ck 0).conf = true ∧ (u.ck 0).rgnState = 3 ∧ (u.ck 0).req = false ∧ u.issues 0 = true
         ∧ n = 4096 + leNat (u.rdDom 0 (o + 0xB0) 8) ∧ c.arg 0x28 8 % 4096 = 0 ∧ (u.dom 0).mapOk o n { r := true, k := false } = true
         ∧ (u.reads 0 o n).poisonAt 0 o n = none)
    ∧ (let c := cmd 0x3C 0 0; Claims.Starts (ckSt c [] ckReady) 0 0 0x3C c [] ∧ ((Claims.popped (ckSt c [] ckReady) 0 0 []).ck 0).req = false) :=
  ⟨⟨starts_mk (by decide +kernel), by decide +kernel⟩, ⟨starts_mk (by decide +kernel), by decide +kernel⟩,
   starts_mk (by decide +kernel), by decide +kernel⟩

/-- RELIGHT of an image without sections at epoch 5, under a GCM tag of zeros. -/
def image5 : List Byte :=
  ascii "SCKP" ++ leBytes 2 0x100 ++ leBytes 2 0 ++ leBytes 8 5 ++ leBytes 8 0 ++ leBytes 8 7 ++ leBytes 32 0 ++ leBytes 16 0
    ++ sha384 (List.replicate 32 0) ++ sha384 [] ++ List.replicate 112 0
def relDesc : List Byte := leBytes 2 0 ++ leBytes 6 1 ++ leBytes 8 9 ++ leBytes 16 0 ++ leBytes 1 2 ++ leBytes 63 0
def relCmd : Cmd := cmd 0x3B 2 0x4000000100200000
def relS : State := ckSt relCmd relDesc {}
def relV : State := (Claims.popped relS 0 0 []).cmdReads 0 (relCmd.arg64 0x28) 64 64
def relW : State := relV.cmdReads 0 (relCmd.arg64 0x28) 64 (0x60 + 16 * fieldAt (relDesc.take 64) 3 1)
theorem relight_valid (h : ∀ k n l, (Config.gcmTag k n l).take 16 = List.replicate 16 0) (key : List Byte) :
    relW.validImage 0 key 0 9 image5 = true := by
  simp only [State.validImage, h]
  decide +kernel
theorem chooseOne (im : List Byte) (n : Nat) : chooseImage (n + 1) [im] = some im := by simp [chooseImage]
theorem witness_relight (h : ∀ k n l, (Config.gcmTag k n l).take 16 = List.replicate 16 0) (key : List Byte) :
    Claims.Starts relS 0 0 0x3B relCmd []
    ∧ relV.cmdRead 0 (relCmd.arg64 0x28) 64 64 = .ok (relDesc.take 64)
    ∧ relW.cmdRead 0 (relCmd.arg64 0x28) 64 (0x60 + 16 * fieldAt (relDesc.take 64) 3 1) = .ok relDesc
    ∧ badRelight relDesc = false ∧ (relW.ckptKey 0).isSome = true
    ∧ chooseImage 5 (([image5].take (fieldAt relDesc 2 1)).filter
        (relW.validImage 0 key (fieldAt relDesc 0 2) (fieldAt relDesc 8 8))) = some image5
    ∧ restores relDesc (imSects (fieldAt image5 0x23 1) (imBody key image5)) = [] ∧ fieldAt relDesc 3 1 = 0
    ∧ relW.ctx? 0 2 = some {} ∧ (relW.ck 0).req = false ∧ relCmd.arg 0x30 1 = 0
    ∧ sha384 (imBody key image5) = imDigest image5 := by
  have hb : imBody key image5 = [] := by
    have : (units ((image5.drop 4096).take (fieldAt image5 0xB0 8))) = [] := by decide +kernel
    simp [imBody, this]
  refine ⟨starts_mk (by decide +kernel), okOf (by decide +kernel), okOf (by decide +kernel), by decide +kernel, by decide +kernel, ?_, ?_,
    by decide +kernel, by decide +kernel, by decide +kernel, by decide +kernel, ?_⟩
  · have e : [image5].take (fieldAt relDesc 2 1) = [image5] := by decide +kernel
    have e1 : fieldAt relDesc 0 2 = 0 := by decide +kernel
    have e2 : fieldAt relDesc 8 8 = 9 := by decide +kernel
    rw [e, e1, e2, List.filter_cons_of_pos (relight_valid h key), List.filter_nil]
    exact chooseOne _ _
  · rw [hb]; decide +kernel
  · rw [hb]; decide +kernel

/-- A cut's messages and timers: this chip is the job's coordinator or its partner is. -/
def cutS (k : Ckpt) : State := { pktS with ckpt := [(0, k)], beacon := 1000000000000 }
def cutP (ty code : Nat) : Pkt := { src := 1, ptype := 8, pspec := BitVec.ofNat 192 (ty + code * 0x10000) }
/-- A binding in which chip 1 is the first chip. -/
def bind1 : Binding := { bind0 with chips := [(1, 0)] }
def cutS1 (k : Ckpt) : State := { cutS k with doms := [(0, { dom0 runWick with binding := some bind1 })] }
theorem cut_mk {s : State} {p : Pkt} {d : Nat}
    (h : s.dev.st = .run ∧ p.ptype = 8 ∧ p.dst.toNat = s.fab.chip ∧ p.badCtrl = false ∧ s.ctrlDom p = some d) : Claims.cutMsgOk s p d := h
theorem witness_cut_messages :
    (∀ code ∈ [0, 1], Claims.cutMsgOk (cutS ckReady) (cutP 0x500 code) 0 ∧ (cutP 0x500 code).cutCode = code
        ∧ ((((cutS ckReady).freeIn (cutP 0x500 code)).ack (cutP 0x500 code)).ck 0).conf = true ∧ ((((cutS ckReady).freeIn (cutP 0x500 code)).ack (cutP 0x500 code)).ck 0).req = false
        ∧ (((cutS ckReady).freeIn (cutP 0x500 code)).ack (cutP 0x500 code)).coordOf 0 = (((cutS ckReady).freeIn (cutP 0x500 code)).ack (cutP 0x500 code)).fab.chip)
    ∧ (let s := cutS1 { ckReady with req := true, sized := true }; let p := cutP 0x502 0; let u := (s.freeIn p).ack p
       Claims.cutMsgOk s p 0 ∧ p.src.toNat = u.coordOf 0 ∧ (u.ck 0).conf = true ∧ (u.ck 0).req = true
         ∧ FMap.wf {} s.ckpt = true ∧ p.src.toNat = buddyOf s.fab.chip ∧ (u.ck 0).sized = true) := by
  refine ⟨?_, cut_mk (by decide +kernel), by decide +kernel⟩
  intro code hc
  simp only [List.mem_cons, List.not_mem_nil, or_false] at hc
  rcases hc with rfl | rfl <;> exact ⟨cut_mk (by decide +kernel), by decide +kernel⟩
theorem witness_cut_timers :
    (let k : Ckpt := { ckReady with copying := some 0 }; (cutS k).dev.st = .run ∧ ((cutS k).ck 0).copying = some 0 ∧ ((cutS k).ck 0).done = false
        ∧ ((cutS k).ck 0).bad = false ∧ ((cutS k).ck 0).left = 0 ∧ 0 + ((cutS k).ck 0).limitMs * 1000000 ≤ (cutS k).beacon)
    ∧ (let k : Ckpt := { ckReady with copying := some 0, bad := true }; ((cutS k).ck 0).copying = some 0 ∧ ((cutS k).ck 0).bad = true)
    ∧ (let k : Ckpt := { ckReady with doneAt := some 0, repAt := some 0 }; ((cutS k).ck 0).copying = none ∧ ((cutS k).ck 0).doneAt = some 0
        ∧ ((cutS k).ck 0).set = none)
    ∧ (let k : Ckpt := { ckReady with heldAt := some (3, 0), req := true }; ((cutS k).ck 0).heldAt = some (3, 0) ∧ ((cutS k).ck 0).cut = none
        ∧ ((cutS k).ck 0).req = true) := by decide +kernel

/-! ### Witnesses: mailboxes and NVS -/

/-- A framed message of a function that waits in its window, and a state with domain 0 as given and one fewer than 16 NVS requests. -/
def mbxOf (fn op : Nat) (p : List Byte) : Mbx :=
  { win := Memory.wrN [] 0 (mbxHeader op 1 (if fn = 0 then 0xFFFF else fn - 1) 0 0 p ++ p), go := true, hello := some 0x1F }
def mbxS (fn op : Nat) (p : List Byte) (m : Dom) : State :=
  { dev := { st := .run }, doms := [(0, m)], mgmt := { mbx := [(fn, mbxOf fn op p)] } }
theorem mails_mk {s : State} {fn op : Nat} {p : List Byte} (h : s.dev.st = .run ∧ s.mbxWaits fn op = true ∧ (s.mbx fn).payload = p) :
    Claims.mails s fn op p := h
def pinDom : Dom := { there := true, pins := [{ tensor := 7, nelem := 16 }] }
theorem witness_mailbox_go :
    Claims.mbxOpen { dev := { st := .run } } 0
    ∧ (let s : State := { dev := { st := .run }, mgmt := { mbx := [(0, { mbxOf 0 0x100 [] with go := false })] } }
       (s.mbx 0).go = false ∧ (s.mbx 0).ready = false ∧ s.dev.st = .run ∧ s.mbxServed 0 = true ∧ (s.mbx 0).framing 0 = 0 ∧ (s.mbx 0).badCmd 0 = false)
    ∧ ((mbxOf 0 0x100 []).go = true) :=
  ⟨.inl ⟨rfl, by refine ⟨?_, ?_, ?_⟩ <;> decide⟩, by decide +kernel, rfl⟩
def helloP : List Byte := leBytes 16 1
theorem witness_hello : Claims.mails (mbxS 1 1 helloP pinDom) 1 1 helloP ∧ helloP.length = 16 ∧ (leNat helloP).testBit 0 = true :=
  ⟨mails_mk (by decide +kernel), by decide +kernel⟩
theorem witness_pins :
    (let p := leBytes 4 9 ++ leBytes 8 32
     Claims.mails (mbxS 1 0x200 p pinDom) 1 0x200 p ∧ p.length = 12 ∧ 0 < fieldAt p 4 8 ∧ fieldAt p 4 8 < 2 ^ 37 ∧ fieldAt p 0 4 < 2 ^ 24
       ∧ (∀ x ∈ pinDom.pins, x.tensor ≠ fieldAt p 0 4) ∧ 2 * (fieldAt p 4 8 + sumBy Pin.nelem pinDom.pins) ≤ 32 * 2 ^ 20)
    ∧ (let p := leBytes 4 7
       Claims.mails (mbxS 1 0x201 p pinDom) 1 0x201 p ∧ p.length = 4 ∧ (∃ x ∈ pinDom.pins, x.tensor = leNat p) ∧ (mbxS 1 0x201 p pinDom).eng.upds = []) :=
  ⟨⟨mails_mk (by decide +kernel), by decide +kernel⟩, mails_mk (by decide +kernel), by decide +kernel⟩
theorem witness_domain_settings :
    (let p := leBytes 4 5; Claims.mails (mbxS 1 0x202 p pinDom) 1 0x202 p ∧ p.length = 4 ∧ leNat p ≠ 0)
    ∧ (∀ b ∈ [0, 1], let p := leBytes 1 b
       Claims.mails (mbxS 1 0x203 p pinDom) 1 0x203 p ∧ p.length = 1 ∧ leNat p < 2 ∧ pinDom.ctxs = [] ∧ decide (leNat p == 1) = decide (b = 1))
    ∧ (let p := leBytes 8 5; Claims.mails (mbxS 1 0x207 p pinDom) 1 0x207 p ∧ p.length = 8 ∧ pinDom.ctxs = []) := by
  refine ⟨⟨mails_mk (by decide +kernel), by decide +kernel⟩, ?_, mails_mk (by decide +kernel), by decide +kernel⟩
  intro b hb
  simp only [List.mem_cons, List.not_mem_nil, or_false] at hb
  rcases hb with rfl | rfl <;> exact ⟨mails_mk (by decide +kernel), by decide +kernel⟩
/-- A policy table of one owner, one program and one range (R417), at DOMAIN offset 0x100200000. -/
def policy0 : List Byte :=
  ascii "SPOL" ++ leBytes 4 0x100 ++ leBytes 2 0x101 ++ leBytes 2 1 ++ leBytes 4 1 ++ leBytes 16 5 ++ List.replicate 96 0 ++ List.replicate 96 0
    ++ leBytes 8 0x4000000100200000 ++ leBytes 8 64 ++ leBytes 16 0
def polP : List Byte := leBytes 8 0x4000000100200000 ++ leBytes 4 256
def polDom : Dom := { there := true, ptH := (dom0 {}).ptH }
def polS : State := { mbxS 1 0x204 polP polDom with mem := { data := Memory.wrN [] 0xC00000 policy0 } }
def polW : State := polS.cmdReads 0 (BitVec.ofNat 64 (fieldAt polP 0 8)) 1 (fieldAt polP 8 4)
theorem witness_policy : Claims.mails polS 1 0x204 polP ∧ polP.length = 12
    ∧ polW.cmdRead 0 (BitVec.ofNat 64 (fieldAt polP 0 8)) 1 (fieldAt polP 8 4) = .ok policy0
    ∧ (FMap.get [] polS.sec.spdm.ready 0).length < 4 ∧ 128 ≤ fieldAt polP 8 4 ∧ fieldAt polP 8 4 ≤ 128 + 32 * 48 + 256 * 32 ∧ badPolicy policy0 = false
    ∧ (polW.sec.dom 0).policy = none ∧ polW.strangeProg 0 policy0 = false ∧ (polW.dom 0).ctxs = [] ∧ (polW.dom 0).binding = none
    ∧ (policy0.drop 0x20).take 48 = List.replicate 48 0 := ⟨mails_mk (by decide +kernel), by decide +kernel, okOf (by decide +kernel), by decide +kernel⟩
/-- An absolute NOTIFY trigger at time 1000, and slot 130 of domain 0. -/
def armP : List Byte := leBytes 1 0 ++ leBytes 1 5 ++ leBytes 10 1 ++ leBytes 8 1000 ++ leBytes 16 0
def armT : Trig :=
  { mode := fieldAt armP 0 1 == 1, action := fieldAt armP 1 1, word := fieldAt armP 2 2, count := fieldAt armP 4 2, inc := fieldAt armP 8 4
    time := BitVec.ofNat 64 (fieldAt armP 12 8), period := BitVec.ofNat 64 (fieldAt armP 20 8), arg := BitVec.ofNat 64 (fieldAt armP 28 8) }
def trigS : State := { mbxS 1 0x206 (leBytes 2 130) pinDom with bcn := { trigs := [(130, { en := true, action := 5 })] } }
theorem witness_trigger_mail :
    (Claims.mails (mbxS 1 0x205 armP pinDom) 1 0x205 armP ∧ armP.length = 36 ∧ fieldAt armP 2 2 ≤ 511 ∧ fieldAt armP 8 4 ≤ 0x7FFFFF
      ∧ fieldAt armP 4 2 ≤ 16383 ∧ fieldAt armP 0 1 ≤ 1 ∧ fieldAt armP 6 2 = 0 ∧ fieldAt armP 28 8 < 2 ^ 63
      ∧ ∃ u k, (mbxS 1 0x205 armP pinDom).trigArm 0 armT false = .ok (u, k))
    ∧ (Claims.mails trigS 1 0x206 (leBytes 2 130) ∧ (trigS.trig 130).en = true ∧ (trigS.trig 130).dom = 0) :=
  ⟨⟨mails_mk (by decide +kernel), by decide +kernel, by decide +kernel, by decide +kernel, by decide +kernel, by decide +kernel, by decide +kernel,
    by decide +kernel, exPair (by decide +kernel)⟩, mails_mk (by decide +kernel), by decide +kernel⟩

/-- The record of a reset with SEQ 9 and its CRC. -/
def bcr9 : List Byte :=
  let h := (bcrReset.take 8) ++ leBytes 4 9
  h ++ leBytes 4 (crc32c (h ++ leBytes 4 0 ++ bcrReset.drop 0x10)).toNat ++ bcrReset.drop 0x10
set_option maxRecDepth 100000 in
theorem witness_bcr_write : Claims.mails (mbxS 0 0x102 bcr9 pinDom) 0 0x102 bcr9 ∧ goodBcr bcr9 = true
    ∧ (mbxS 0 0x102 bcr9 pinDom).mgmt.nvs.bcrTop < bcrSeqOf bcr9 := ⟨mails_mk (by decide +kernel), by decide +kernel, by decide +kernel⟩
theorem witness_management :
    Claims.mails (mbxS 0 0x100 [] pinDom) 0 0x100 []
    ∧ (let p := leBytes 1 0; Claims.mails (mbxS 0 0x101 p pinDom) 0 0x101 p ∧ p.length = 1 ∧ (mbxS 0 0x101 p pinDom).mgmt.nvs.bcr (leNat p) = some bcrReset)
    ∧ (let p := leBytes 2 5 ++ leBytes 2 3 ++ [1, 2, 3]
       Claims.mails (mbxS 0 0x103 p pinDom) 0 0x103 p ∧ fieldAt p 2 2 ≤ 4028 ∧ p.length = 4 + fieldAt p 2 2 ∧ fieldAt p 0 2 < 768)
    ∧ (let p := leBytes 2 767
       Claims.mails (mbxS 0 0x104 p pinDom) 0 0x104 p ∧ Claims.mails (mbxS 0 0x105 p pinDom) 0 0x105 p ∧ p.length = 2 ∧ leNat p < 768)
    ∧ (let x : Sealed := { nonce := [], key := [], bytes := [4] }; let s : State := { mgmt := { nvs := { user := [(767, .data x)] } } }
       FMap.get .erased s.mgmt.nvs.user 767 = .data x ∧ x.key = (s.sec.nvsKey.map Masked.key).getD [])
    ∧ (let p := leBytes 1 41; let n := (mbxS 0 0x106 p pinDom).mgmt.nvs
       Claims.mails (mbxS 0 0x106 p pinDom) 0 0x106 p ∧ Claims.mails (mbxS 0 0x107 p pinDom) 0 0x107 p ∧ p.length = 1 ∧ 10 ≤ leNat p ∧ leNat p < 42
         ∧ n.ctr (leNat p) = some (0, 0)) :=
  ⟨mails_mk (by decide +kernel), ⟨mails_mk (by decide +kernel), by decide +kernel⟩,
   ⟨mails_mk (by decide +kernel), by decide +kernel⟩, ⟨mails_mk (by decide +kernel), mails_mk (by decide +kernel), by decide +kernel⟩,
   by decide +kernel, mails_mk (by decide +kernel), mails_mk (by decide +kernel), by decide +kernel⟩
/-- The checks of R450 pass for what the mailbox queues. -/
theorem witness_nvs_checks : (mbxS 0 0x103 [] pinDom).mgmt.nvs.queue.length < 16
    ∧ ∀ w ∈ [NvsWork.bcr false bcr9, .bcr true bcr9, .userWrite 5 { nonce := [], key := [], bytes := [1, 2, 3] }, .userErase 767, .ctr 41],
        (mbxS 0 0x103 [] pinDom).mgmt.nvs.checkAll .security w = 0 := by decide +kernel
theorem witness_nvs_queue :
    (∀ who, let r : NvsReq := { work := .userWrite 5 { nonce := [], key := [], bytes := [1] }, who := who }
      let s : State := { mgmt := { nvs := { queue := [r] } } }
      s.powered = true ∧ s.mgmt.nvs.queue = [r])
    ∧ (let n : NvsSt := { queue := [{ work := .ctr 12, who := .nobody }] }
       n.ctr 12 ≠ none ∧ (FMap.get [.erased, .erased, .erased] n.ctrs 12).length = 3 ∧ FMap.wf [.erased, .erased, .erased] n.ctrs = true
         ∧ FMap.wf .erased n.user = true) :=
  ⟨fun _ => ⟨rfl, rfl⟩, by decide +kernel⟩

/-! ### Witnesses: functions, interfaces, attestation -/

def lockedDom : Dom := { there := true, tdi := .locked, tdiNonce := [1] }
theorem witness_functions :
    (let s : State := { dev := { st := .run }, bcn := { first := true } }
     s.vfenOk = true ∧ (256#9).toNat ≤ 256 ∧ s.dev.vfEnable = false ∧ s.doms = [])
    ∧ (let s := cmdSt {} []; s.dev.vfEnable = true ∧ (0#9).toNat < s.dev.numVfs)
    ∧ ((cmdSt { there := true } []).dom 0).there = true ∧ (cmdSt {} []).pf0Up = true ∧ ((cmdSt { there := true } []).dom 0).tdi = .unlocked
    ∧ (let m := lockedDom; m.there = true ∧ m.fenced = false ∧ m.tdi = .locked ∧ m.mse ≠ true)
    ∧ (let m := { lockedDom with tdi := .run }; m.tdi = .run ∧ m.bar ≠ 0x1000)
    ∧ ((cmdSt { there := true, wlatch := some (0x4000 + 8 * 3, 5) } []).doorOpen 0 = true
      ∧ ((cmdSt { there := true, wlatch := some (0x4000 + 8 * 3, 5) } []).dom 0).wlatch = some (0x4000 + 8 * (3#9).toNat, 5)
      ∧ (0x7FFFFFFF#32).getLsbD 31 = false) := by decide +kernel
/-- Session 5 is open, bound to `d`; the connection is negotiated. -/
def sesOf (x : Session) (y : SecSt) (m : Dom) : State :=
  { dev := { st := .run }, doms := [(0, m)], sec := { y with root := some { a := [1], m := [2] }, spdm := { y.spdm with neg := 3, sessions := [(5, x)] } } }
def openSes : Session := { open_ := true }
theorem inSes_mk {s : State} {ses : BitVec 32} {x : Session} (h : s.pf0Up = true ∧ s.noRoot = false ∧ s.session? ses.toNat = some x ∧ x.open_ = true
    ∧ (FMap.get [] s.sec.spdm.ready x.flow).length < 4) : Claims.inSes s ses x := h
theorem bare_mk {s : State} {n : Nat} (h : s.pf0Up = true ∧ s.noRoot = false ∧ n ≤ s.sec.spdm.neg ∧ (FMap.get [] s.sec.spdm.ready 256).length < 4) :
    Claims.bare s n := h
theorem witness_interfaces :
    ((8#4).toNat ≤ 8 ∧ (FMap.get ({} : IdeStream) ({ streams := [(8, { key := some { a := [1], m := [2] } })] } : SecSt).streams 8).key ≠ none)
    ∧ (let k : IdeIn := { fn := 256, key := List.replicate 32 7, blocks := [(0, 1), (2, 3)] }
       let s := sesOf openSes { tdiStream := [(0, 8)] } { lockedDom with tdiSes := some 5 }
       k.fn.toNat ≤ 256 ∧ k.key.length = 32 ∧ k.blocks.length ≤ 2 ∧ s.boundTdi 8 = some 0 ∧ (s.dom 0).tdiSes = some (5#32).toNat)
    ∧ (let s := sesOf openSes { tdiStream := [(0, 8)] } { lockedDom with tdiSes := some 6 }
       s.boundTdi 8 = some 0 ∧ (s.dom 0).tdiSes ≠ some (5#32).toNat)
    ∧ (Claims.inSes (sesOf openSes {} lockedDom) 5 openSes ∧ openSes.dom = none ∧ (sesOf openSes {} lockedDom).boundTdi 8 = none
      ∧ ((sesOf openSes {} lockedDom).dom 0).there = true ∧ ((sesOf openSes {} lockedDom).dom 0).tdi = .locked ∧ [1#8] = lockedDom.tdiNonce
      ∧ lockedDom.fenced = false)
    ∧ (let s := sesOf openSes { streams := [(2, { key := some { a := [1], m := [2] }, secure := true, fn := 1 })] } { there := true }
       Claims.inSes s 5 openSes ∧ (s.dom 0).tdi = .unlocked ∧ (2#4) ≠ 0 ∧ (FMap.get ({} : IdeStream) s.sec.streams 2).fn = 0 + 1
         ∧ (FMap.get ({} : IdeStream) s.sec.streams 2).secure = true) :=
  ⟨by decide +kernel, by decide +kernel, by decide +kernel, ⟨inSes_mk (by decide +kernel), by decide +kernel⟩, inSes_mk (by decide +kernel), by decide +kernel⟩
theorem witness_responder :
    (∀ n ≤ 3, Claims.bare (sesOf openSes {} {}) n)
    ∧ (sesOf openSes { spdm := { chains := [(0, [1, 2])] } } {}).chain? 0 = some [1, 2]
    ∧ (let s := sesOf openSes { lc := .prov, spdm := { csrs := [1] } } {}
       Claims.bare s 3 ∧ (1#8).toNat < 2 ∧ s.sec.lc = .prov ∧ FMap.find? s.sec.spdm.chains 1 = none ∧ (1#8).toNat ∈ s.sec.spdm.csrs)
    ∧ ((sesOf openSes {} {}).sec.spdm.chunkIn ++ [1#8]).length ≤ 65536
    ∧ ((sesOf openSes { spdm := { chunkOut := some (.challengeAuth, 1) } } {}).sec.spdm.chunkOut = some (.challengeAuth, 1))
    ∧ (FMap.get [] (sesOf openSes { spdm := { ready := [(256, [.version])] } } {}).sec.spdm.ready (256#9).toNat = [.version]) := by
  refine ⟨fun n hn => ?_, by decide +kernel, ⟨bare_mk (by decide +kernel), by decide +kernel⟩, by decide +kernel, by decide +kernel, by decide +kernel⟩
  exact ⟨by decide +kernel, by decide +kernel, hn, by decide +kernel⟩
/-- Which key a chain certifies is the configuration's: a chain of this device's identity key is one that SET_CERTIFICATE takes. -/
theorem witness_certificate (sl : BitVec 8) (c : List Byte)
    (h : Config.certLeaf c = some (Config.idKey sl.toNat ((sesOf openSes { lc := .prov } {}).sec.idSecret sl.toNat))) :
    Config.certLeaf c = some (Config.idKey sl.toNat ((sesOf openSes { lc := .prov } {}).sec.idSecret sl.toNat)) := h
theorem witness_sessions :
    (let x : Session := { auth := true, leaf := some [1] }; let s := sesOf x { spdm := { chains := [(0, [1, 2])] } } {}
     Claims.bare s 3 ∧ s.dev.st ≠ .hold ∧ (1 : BitVec 8) ∈ ([1] : List (BitVec 8)) ∧ (∀ e ∈ ([1] : List (BitVec 8)), 1 ≤ e.toNat ∧ e.toNat ≤ 3)
       ∧ (s.chain? 0).isSome = true ∧ s.sec.spdm.sessions.length < 256 ∧ s.session? 5 = some x ∧ x.open_ = false ∧ x.auth = true ∧ x.leaf ≠ none)
    ∧ (Claims.inSes (sesOf openSes {} {}) 5 openSes
      ∧ (({ sesOf openSes {} {} with beacon := 120000000000 } : State).session? 5 = some openSes ∧ openSes.beat + 120000000000 ≤ 120000000000)) :=
  ⟨⟨bare_mk (by decide +kernel), by decide +kernel⟩, inSes_mk (by decide +kernel), by decide +kernel⟩
/-- A session of owner 0 of domain 0, whose policy names the identity digest of zeros. -/
def ownPol : List Byte := leBytes 8 0 ++ [1] ++ List.replicate 300 0
def ownSes : Session := { open_ := true, dom := some 0, ident := List.replicate 48 0 }
def ownS (j : Joint) (sl : FMap KeySlot) : State := sesOf ownSes { doms := [(0, { policy := some ownPol, joint := j, slots := sl })] } { there := true }
theorem witness_owners :
    (let x : Session := { open_ := true, leaf := some [1] }; let s := sesOf x {} { there := true }
     Claims.inSes s 5 x ∧ x.zyn = false ∧ x.dom = none ∧ x.leaf = some [1] ∧ (s.dom 0).there = true
       ∧ (s.sec.spdm.sessions.filter fun p => p.2.dom == some 0).length < 32)
    ∧ (let s := ownS .forming []
       Claims.inSes s 5 ownSes ∧ ownSes.dom = some 0 ∧ (s.dom 0).fenced = false ∧ (s.sec.dom 0).policy = some ownPol ∧ ownerOf ownPol ownSes.ident = some 0
         ∧ s.sec.lc = .field ∧ s.releaseStop 0 0 3 1 ownPol = none ∧ s.releaseStop 0 0 0 2 ownPol = none)
    ∧ (let k : KeySlot := { owner := 0, a := [1], m := [2] }; let s := ownS .active [(3, k)]
       Claims.inSes s 5 ownSes ∧ (s.sec.dom 0).joint ≠ .finished ∧ FMap.find? (s.sec.dom 0).slots 3 = some k ∧ k.owner = 0 ∧ k.dying = false ∧ (s.sec.dom 0).joint = .active
         ∧ (s.modJoint 0 fun y => { y with slots := FMap.insert y.slots 3 { k with dying := true } }).copyNames 0 3 = false
         ∧ (s.sec.dom 0).done.testBit 0 = false)
    ∧ (let s := ownS .finished [(0, { owner := 0xFE, a := [1], m := [2] })]
       Claims.inSes s 5 ownSes ∧ (s.sec.dom 0).joint = .finished ∧ s.modelKey 0 = some [3])
    ∧ (let x : Session := { ownSes with ident := List.replicate 48 1 }
       let s := sesOf x { doms := [(0, { policy := some ownPol })] } { there := true }
       Claims.inSes s 5 x ∧ x.dom = some 0 ∧ (s.dom 0).fenced = false ∧ (s.sec.dom 0).policy = some ownPol ∧ ownerOf ownPol x.ident = none) :=
  ⟨⟨inSes_mk (by decide +kernel), by decide +kernel⟩, ⟨inSes_mk (by decide +kernel), by decide +kernel⟩,
   ⟨inSes_mk (by decide +kernel), by decide +kernel⟩, ⟨inSes_mk (by decide +kernel), by decide +kernel⟩, inSes_mk (by decide +kernel), by decide +kernel⟩

/-! ### Witnesses: security events and guarded writes -/

/-- A device with a key in a slot of each owner that R383 names. -/
def maskedS : State :=
  let m (n : Nat) : Masked := { a := List.replicate n 1, m := List.replicate n 2 }
  { clk := 1000000
    sec := { root := some (m 48), d2d := [(0, m 32)], doms := [(0, { slots := [(3, { owner := 0, a := List.replicate 32 1, m := List.replicate 32 2 })] })]
             streams := [(2, { key := some (m 32) })] }
    mem := { ctls := [(0, { devKey := some (m 96), gens := [(0, { key := some (m 96) })] })] }
    fab := { links := [(0, { txKey := some { key := m 32, salt := [] } })] } }
theorem witness_security :
    (let s : State := { dev := { st := .run }, clk := 2000000, sec := { armEncl := true } }
     s.secRuns = true ∧ s.sec.armEncl = true ∧ s.sec.remaskAt + 2000000 ≤ s.clk ∧ s.sec.snuffed = false)
    ∧ (State.reset.sec.levelOf 0 = 2 ∧ ({ armEsc := true } : SecSt).levelOf 7 = 3)
    ∧ (maskedS.secRuns = true ∧ maskedS.sec.remaskAt + 1000000 ≤ maskedS.clk ∧ (Claims.slots maskedS).length = 7
      ∧ ∀ k ∈ Claims.slots maskedS, k.a.length = k.m.length) := by decide +kernel
/-- A guard window of a register with a value, in a life-cycle state. -/
def winS (off : Nat) (v : Word) (y : SecSt) : State := { mgmt := { regs := { guard := some (off, v, 0) }, fw := { bsvn := 1 } }, sec := y }
theorem window_mk {off : Nat} {v : Word} {y : SecSt} (h : (winS off v y).pf0Up = true ∧ (winS off v y).sec.a1block = false
    ∧ (winS off v y).sec.snuffed = false) : Claims.window (winS off v y) off v := ⟨h.1, h.2.1, h.2.2, 0, rfl, by show 0 ≤ 0 + 4096; decide⟩
theorem witness_guarded :
    (Claims.window (winS 0x500030 5 { lc := .mfg }) 0x500030 5 ∧ (7 : Word) ≠ ~~~5 ∧ (winS 0x500030 5 { lc := .mfg }).sec.lc.factory = true)
    ∧ (let s : State := { winS 0x200040 3 {} with clk := 4097 }; s.mgmt.regs.guard = some (0x200040, 3, 0) ∧ 0 + 4096 < s.clk)
    ∧ (Claims.window (winS 0x200040 3 {}) 0x200040 3 ∧ (3 : Word).getLsbD 0 = true ∧ (3 : Word).getLsbD 1 = true)
    ∧ (∀ v ∈ [1#32, 2#32, 4#32, 8#32, 16#32], Claims.window (winS 0x200020 v { lc := .rma }) 0x200020 v)
    ∧ (let s := winS 0x200020 1 { lc := .rma }; s.noDomains = true ∧ s.mgmt.nvs.queue.length < 16 ∧ s.sec.lc = .rma
      ∧ ∀ w ∈ [NvsWork.eraseUser, .eraseSeeds, .tamper false], s.mgmt.nvs.checkAll .security w = 0)
    ∧ (let s := winS 0x200010 5 {}; Claims.window s 0x200010 5 ∧ s.lcStop (Lc.ofNum ((5 : Word).toNat % 16)) [] = some 2)
    ∧ (let s := winS 0x200010 1 { lc := .blank }
       Claims.window s 0x200010 1 ∧ Lc.ofNum ((1 : Word).toNat % 16) = some .test ∧ s.lcStop (some .test) [] = none)
    ∧ (let s := winS 0x200030 1 {}
       Claims.window s 0x200030 1 ∧ (1 : Word).toNat % 16 = 1 ∧ s.sec.lc = .field ∧ s.sec.svn < 256 ∧ s.sec.svn + 1 ≤ s.mgmt.fw.bsvn)
    ∧ (let s := winS 0x200030 2 { lc := .test }
       Claims.window s 0x200030 2 ∧ (2 : Word).toNat % 16 = 2 ∧ s.sec.otpAddr % 4 = 0 ∧ otpMay s.sec.lc s.sec.otpAddr = true) := by
  refine ⟨⟨window_mk (by decide +kernel), by decide +kernel⟩, by decide +kernel, ⟨window_mk (by decide +kernel), by decide +kernel⟩, ?_, by decide +kernel,
    ⟨window_mk (by decide +kernel), by decide +kernel⟩, ⟨window_mk (by decide +kernel), by decide +kernel⟩,
    ⟨window_mk (by decide +kernel), by decide +kernel⟩, window_mk (by decide +kernel), by decide +kernel⟩
  intro v hv
  simp only [List.mem_cons, List.not_mem_nil, or_false] at hv
  rcases hv with rfl | rfl | rfl | rfl | rfl <;> exact window_mk (by decide +kernel)

/-! ### Witnesses: registers -/

/-- A running device whose power core runs. -/
def pwrS : State := { dev := { st := .run }, mgmt := { fw := { power := true } } }
theorem free_mk {s : State} (h : s.pf0Up = true ∧ s.mgmt.regs.guard = none ∧ s.sec.a1block = false ∧ s.sec.snuffed = false) : s.pf0Free := h

theorem witness_memory_registers : pwrS.pf0Free ∧ Claims.bwFits pwrS 3 0x28141E0A#32 ∧ ¬ Claims.bwFits pwrS 3 0x000000FF#32
    ∧ (let t := pwrS.setMemDom 3 { pwrS.memDom 3 with cc := 0x03000C00#32 &&& 0x03FF0FFF }
       sumBy (fun (p : Nat × MemDom) => bitsOf p.2.cc 0 12) t.mem.doms = 3072 ∧ sumBy (fun (p : Nat × MemDom) => bitsOf p.2.cc 16 10) t.mem.doms = 768)
    ∧ (let t := pwrS.setMemDom 3 { pwrS.memDom 3 with cc := 0x03010000#32 &&& 0x03FF0FFF }
       768 < sumBy (fun (p : Nat × MemDom) => bitsOf p.2.cc 16 10) t.mem.doms) := by
  refine ⟨free_mk (by decide +kernel), ?_, ?_, by decide +kernel, by decide +kernel⟩
  · show _ ∧ _ ∧ _ ∧ _; decide +kernel
  · intro h; exact absurd h.1 (by decide +kernel)

/-- R282: the four weights of a set sum to 100; R276: segments within the table; R286: 31 is the reserved code of the map. -/
theorem witness_fabric_registers : (Instr.fabRouteWrite 0x407C 63).wf = true
    ∧ (0x050F2828#32).toNat = 40 + 40 * 2 ^ 8 + 15 * 2 ^ 16 + 5 * 2 ^ 24 ∧ (0x050F2829#32).toNat = 41 + 40 * 2 ^ 8 + 15 * 2 ^ 16 + 5 * 2 ^ 24
    ∧ (pwrS.dom 0).binding = none ∧ (0x8080#32).toNat % 256 + (0x8080#32).toNat / 256 % 512 = 256
    ∧ 256 < (0x8180#32).toNat % 256 + (0x8180#32).toNat / 256 % 512 ∧ ((30#32).toNat % 64 < 31) ∧ (63#32).toNat % 64 = 63 := by decide +kernel

theorem witness_beacon_registers : pwrS.bcn.first = false ∧ pwrS.bcn.epoch.toNat % 1000000000 = 0 ∧ (1#32).toNat % 4 < 2 ∧ (6#32).toNat % 4 = 2 ∧ (7#32).toNat % 4 = 3
    ∧ (250 ≤ (250#32).toNat % 2 ^ 17 ∧ (100000#32).toNat % 2 ^ 17 = 100000 ∧ 100000 % 250 = 0)
    ∧ ((249#32).toNat % 2 ^ 17 < 250 ∧ (251#32).toNat % 2 ^ 17 % 250 ≠ 0 ∧ 100000 < (100250#32).toNat % 2 ^ 17)
    ∧ (let a := FMap.set {} pwrS.bcn.arb 0 { pwrS.arb 0 with tokFloor := 224 }; sumBy (fun (p : Nat × ArbDom) => p.2.tokFloor) a ≤ 224)
    ∧ (let a := FMap.set {} pwrS.bcn.arb 0 { pwrS.arb 0 with tokFloor := 225 }; 224 < sumBy (fun (p : Nat × ArbDom) => p.2.tokFloor) a)
    ∧ (64 ≤ (127#8).toNat ∧ (127#8).toNat < 128 ∧ (pwrS.trig 127).en = false ∧ (2#32).toNat % 16 = 2 ∧ (2#32).getLsbD 4 = false
      ∧ (2#32).getLsbD 7 = false) := by decide +kernel

theorem witness_power_registers : pwrS.pf0Free
    ∧ ((1000#32).toNat % 4096 = 1000 ∧ (2800#32).toNat % 4096 = 2800 ∧ (999#32).toNat % 4096 < 1000 ∧ 2800 < (2801#32).toNat % 4096)
    ∧ (let f := fun i => (0x0C08060C#32).toNat / 2 ^ (8 * i) % 256; f 1 < f 0 ∧ f 2 < f 3)
    ∧ (let f := fun i => (0x0C08060C#32).toNat / 2 ^ (8 * i) % 256; ¬ (f 0 ≤ f 1 ∨ f 3 ≤ f 2))
    ∧ (let f := fun i => (0x0C080C0C#32).toNat / 2 ^ (8 * i) % 256; f 0 ≤ f 1)
    ∧ ((0x0F1401#32).toNat / 2 ^ 8 % 256 = 20 ∧ (0x0F1401#32).toNat / 2 ^ 16 % 256 + 5 = 20 ∧ pwrS.dev.st = .run ∧ pwrS.mgmt.fw.power = true
      ∧ (0x0F1401#32).getLsbD 0 = true)
    ∧ ((0x101401#32).toNat / 2 ^ 8 % 256 < (0x101401#32).toNat / 2 ^ 16 % 256 + 5 ∧ pwrS.mgmt.pwr.planning = false)
    ∧ ((0x20000#32).getLsbD 17 = true ∧ pwrS.pwrRuns = true)
    ∧ (pwrS.mgmt.soot.en = false ∧ pwrS.mgmt.soot.buf = [] ∧ pwrS.mgmt.soot.base.toNat % 4096 = 0) ∧ pwrS.mgmt.usb.disable = false :=
  ⟨free_mk (by decide +kernel), by decide +kernel⟩

/-- PWR_CAP is no pair; BCN_NOW (0x400000) is read as a pair, SEC_LC_REQ's value is guarded. -/
theorem witness_accesses :
    (Claims.full pwrS 0x500100 ∧ pwrS.pairAt 0 0x500100 = none ∧ ¬ ((0x500100 : Nat) % 8 = 4 ∧ (pwrS.pairAt 0 (0x500100 - 4)).isSome = true))
    ∧ (∃ o x, Claims.full pwrS o ∧ pwrS.pairAt 0 o = some x ∧ o ≠ 0x48 ∧ o < 2 ^ 25
        ∧ (let s : State := { pwrS with mgmt := { pwrS.mgmt with regs := { rlatch := some (o, 7) } } }
           Claims.full s (o + 4) ∧ s.pairAt 0 (o + 4) = none ∧ (o + 4) % 8 = 4 ∧ (s.pairAt 0 (o + 4 - 4)).isSome = true
             ∧ s.mgmt.regs.rlatch = some (o + 4 - 4, 7)))
    ∧ (let a : AccIn := { fn := 0, off := 0x500100, data := leBytes 4 2000 }
       a.fn = 0 ∧ a.gap = false ∧ guardedAt 0x500100 4 = none ∧ a.data = leBytes 4 (2000#32).toNat ∧ pfPairRW 0x500100 = false
         ∧ (pwrS.pfPair (0x500100 / 8 * 8)).isSome = false)
    ∧ (∃ o, Claims.full pwrS o ∧ o % 8 = 0 ∧ pfPairRW o = true ∧ guardedAt o 4 = none
        ∧ (let s : State := { pwrS with mgmt := { pwrS.mgmt with regs := { wlatch := some (o, 7) } } }
           Claims.full s (o + 4) ∧ s.mgmt.regs.guard = none ∧ s.sec.a1block = false ∧ guardedAt (o + 4) 4 = none ∧ (o + 4) % 8 = 4
             ∧ pfPairRW (o + 4 - 4) = true ∧ s.mgmt.regs.wlatch = some (o + 4 - 4, 7)))
    ∧ (inRegions (byteRegion true) 0x500100 1 = false ∧ guardedAt 0x500100 1 = none) := by
  refine ⟨⟨?_, by decide +kernel⟩, ⟨0x400000, 0, ?_, by decide +kernel, by decide, by decide, ?_, by decide +kernel⟩, by decide +kernel,
    ⟨0x400010, ?_, by decide +kernel, by decide +kernel, by decide +kernel, ?_, by decide +kernel⟩, by decide +kernel⟩ <;>
    (show _ ∧ _ ∧ _ ∧ _; decide +kernel)

theorem witness_closed : (pwrS.pf0Up = true ∧ pwrS.reservedAcc 0 0x1FFFFF0 = true)
    ∧ (let s : State := { pwrS with sec := { snuffed := true } }
       s.pf0Up = true ∧ s.reservedAcc 0 0x500100 = false ∧ s.sec.snuffed = true ∧ blockOf 0x500100 ≠ 0 ∧ blockOf 0x500100 ≠ 2) := by
  decide +kernel

/-- The state of the indirect pair. -/
def indS (a : Word) (lc : Lc) : State := { dev := { st := .run }, mgmt := { regs := { indAddr := a } }, sec := { lc := lc } }
theorem witness_snapshots :
    (pwrS.pf0Free ∧ blkList.contains (12#4).toNat = true ∧ FMap.wf 0 pwrS.mgmt.regs.holds = true ∧ FMap.wf 0 pwrS.mgmt.regs.snapAt = true)
    ∧ ((indS (BitVec.ofNat 32 (4 * 2 ^ 28 + 8188)) .field).pf0Free ∧ (indS (BitVec.ofNat 32 (4 * 2 ^ 28 + 8188)) .field).mgmt.regs.tight = false)
    ∧ (∀ lc ∈ [Lc.mfg, .field], (indS (BitVec.ofNat 32 (2 ^ 28 + 35 * 2 ^ 16 + 7 * 2 ^ 12 + 8)) lc).pf0Free
        ∧ (indS (BitVec.ofNat 32 (2 ^ 28 + 35 * 2 ^ 16 + 7 * 2 ^ 12 + 8)) lc).mgmt.regs.ainc = false)
    ∧ Lc.mfg.factory = true ∧ Lc.field.factory = false
    ∧ (let s : State := { beacon := 100000, mgmt := { soot := { fresh := true } } }
       s.mgmt.soot.fresh = true ∧ s.mgmt.soot.irqAt + 100000 ≤ s.beacon) := by
  refine ⟨⟨free_mk (by decide +kernel), by decide +kernel⟩, ⟨free_mk (by decide +kernel), rfl⟩, ?_, by decide, by decide, by decide +kernel⟩
  intro lc _
  exact ⟨free_mk ⟨rfl, rfl, rfl, rfl⟩, rfl⟩

/-! ### Witnesses: triggers and Beacon -/

/-- Beacon time 100 with slot 130, due, of that action. -/
def slotS (a : Nat) : State := { beacon := 100, bcn := { trigs := [(130, { time := 100, en := true, action := a })] } }
theorem witness_triggers : (∀ a ∈ [1, 2, 4, 5, 6], (slotS a).trigDue ((slotS a).trig 130) = true ∧ ((slotS a).trig 130).action = a)
    ∧ ({ slotS 1 with beacon := 99 } : State).trigDue (({ slotS 1 with beacon := 99 } : State).trig 130) = false
    ∧ (let t : Trig := { time := 100, period := 30 }; t.mode = false ∧ t.time.toNat ≤ 100 ∧ 100 + t.period.toNat < 2 ^ 64 ∧ t.count ≠ 1 ∧ 0 < t.period.toNat)
    ∧ (let t : Trig := { time := 100, period := 30, count := 1 }; t.mode = false ∧ t.time.toNat ≤ 100 ∧ 100 + t.period.toNat < 2 ^ 64 ∧ t.count = 1)
    ∧ (let s : State := { beacon := 100, fab := { links := [(35, { quietAt := some 60 })] } }
       (35#8).toNat < 36 ∧ (s.fab.link 35).quietAt = some 60)
    ∧ (let s : State := { mgmt := { pwr := { quiet := [(2 * 256 + 31, some 60)] } } }
       0x40 ≤ (0x42#8).toNat ∧ FMap.get none s.mgmt.pwr.quiet (((0x42#8).toNat - 0x40) * 256 + (31#8).toNat) = some 60)
    ∧ (let s : State := { bcn := { trigs := [(0, { time := 100, en := true, action := 4, idle := true })] } }
       (s.trig 0).en = true ∧ (s.trig 0).action = 4 ∧ (s.trig 0).idle = true ∧ (s.trig 0).mode = false ∧ s.beacon < (s.trig 0).time.toNat)
    ∧ (slotS 4).bcn.trigs.all (fun p => !p.2.mode) = true := by decide +kernel

theorem witness_beacon :
    (let p : Pkt := { pspec := BitVec.ofNat 192 (5 * 2 ^ 32) }
     p.badCtrl = false ∧ ∀ b ∈ [BcnState.free, .acquire, .locked],
       let s : State := { dev := { st := .run }, bcn := { st := b, uplink := some 35, asked := some (5, 0), good := 15 } }
       s.dev.st = .run ∧ s.bcn.asked = some (p.pspec.extractLsb' 32 32, 0) ∧ s.bcn.uplink = some (35#6).toNat ∧ s.bcn.mode = 0)
    ∧ (let s : State := { dev := { st := .run }, bcn := { mode := 2 } }; s.dev.st = .run ∧ s.bcn.mode ≠ 0)
    ∧ (let s : State := { beacon := 100000000, fab := { links := [(7, { st := .up })] }
                          bcn := { neigh := [(7, { chip := 1, stratum := 2, state := 2, lower := some 0 })] } }
       s.bcn.mode = 0 ∧ s.qualifies 7 = true ∧ 0 + 100000000 ≤ s.beacon)
    ∧ (let s : State := { dev := { st := .run }, bcn := { mode := 1 } }; s.dev.st = .run ∧ s.bcn.mode = 1 ∧ s.bcn.first = false)
    ∧ (let s : State := { dev := { st := .run }, beacon := 3000000100, bcn := { mode := 1, first := true, st := .locked } }
       s.bcn.st = .locked ∧ (-100 : Int).natAbs ≤ 100 ∧ (s.beacon : Int) % 1000000000 = (-(-100 : Int)) % 1000000000)
    ∧ (let s : State := { dev := { st := .run }, beacon := 3000000101, bcn := { mode := 1, first := true, st := .locked } }
       s.bcn.first = true ∧ 100 < s.beacon % 1000000000 ∧ s.beacon % 1000000000 < 999999900)
    ∧ (let s : State := { beacon := 2000000000, bcn := { mode := 1, st := .locked, syncAt := some 0, ref := false } }
       s.bcn.syncAt = some 0 ∧ 0 + 2000000000 ≤ s.beacon ∧ s.bcn.mode = 1 ∧ s.bcn.st = .locked ∧ s.bcn.ref = false)
    ∧ (let s : State := { bcn := { mode := 1, st := .locked, ref := true } }; s.bcn.mode = 1 ∧ s.bcn.st = .locked ∧ s.bcn.syncAt = none)
    ∧ (let s : State := { bcn := { mode := 1, st := .holdover } }; s.bcn.mode = 1 ∧ s.bcn.st = .holdover)
    ∧ (let s : State := { dev := { st := .run }, bcn := { uplink := some 35 } }; s.dev.st = .run ∧ s.bcn.mode = 0 ∧ s.bcn.uplink = some 35)
    ∧ State.reset.bcn.mode ≠ 1 := by decide +kernel

/-! ### Witnesses: power, plans, scores -/

/-- Lantern 0 runs a context and is planned at 1,900 MHz. -/
def hotS : State := { pwrS with lanterns := [(0, { owner := some (0, 1) })], mgmt := { pwrS.mgmt with pwr := { cap := 1000 } } }
theorem witness_power :
    (State.reset.powered = true ∧ State.reset.pwrRuns = false)
    ∧ (hotS.pwrRuns = true ∧ hotS.mgmt.pwr.capNow < (1001#16).toNat ∧ 1200 < min hotS.mgmt.pwr.clkCap hotS.topMhz)
    ∧ (pwrS.pwrRuns = true ∧ (500#16).toNat ≤ pwrS.mgmt.pwr.capNow ∧ pwrS.mgmt.pwr.capped = false)
    ∧ ({ dev := { st := .standby } } : State).powered = false
    ∧ (pwrS.powered = true ∧ FMap.wf {} pwrS.lanterns = true) ∧ (19#5).toNat < 20 := by decide +kernel

theorem witness_plans :
    (pwrS.pwrRuns = true ∧ pwrS.mgmt.pwr.planned = false ∧ (pwrS.lantern 63).inService = true ∧ FMap.wf {} pwrS.mgmt.pwr.plans = true
      ∧ (List.replicate 64 [39#8]).getD 63 [] = [39#8] ∧ (39#8).toNat < pwrS.mgmt.pwr.target ∧ (pwrS.plan 63).dv < 10
      ∧ pwrS.mgmt.pwr.target ≤ (40#8).toNat ∧ (59#8).toNat < pwrS.mgmt.pwr.target + 20)
    ∧ (let ms : List (List Byte) := [[24#8]]
       ms.getD 0 [] ≠ [] ∧ (∀ i < 64, i ≠ 0 → ms.getD i [] = []) ∧ (pwrS.lantern 0).margin (ms.getD 0 []) < pwrS.mgmt.pwr.floor ∧ 1200 < (pwrS.plan 0).mhz)
    ∧ (let ms : List (List Byte) := [[25#8]]; pwrS.mgmt.pwr.floor ≤ (pwrS.lantern 0).margin (ms.getD 0 []))
    ∧ (pwrS.mgmt.pwr.linkThr ≤ (12#8).toNat ∧ FMap.get 0 pwrS.mgmt.pwr.lowWins 35 = 0 ∧ FMap.wf 0 pwrS.mgmt.pwr.lowWins = true)
    ∧ ((11#8).toNat < pwrS.mgmt.pwr.linkThr ∧ pwrS.mgmt.pwr.linkUrg ≤ (6#8).toNat ∧ (5#8).toNat < pwrS.mgmt.pwr.linkUrg
      ∧ FMap.find? pwrS.mgmt.pwr.wanted (35 * 256) = none ∧ (pwrS.link 35).quietAt = none)
    ∧ (let s : State := { pwrS with mgmt := { pwrS.mgmt with pwr := { lowWins := [(35, 4)] } } }; 4 ≤ FMap.get 0 s.mgmt.pwr.lowWins 35 ∧ s.pwrRuns = true)
    ∧ (FMap.get 0 pwrS.mgmt.pwr.lowWins 35 < 4 ∧ pwrS.beacon + 10000000 < 2 ^ 64 ∧ (pwrS.trig 0).en = false ∧ pwrS.bcn.trigs = [])
    ∧ ((-9#8).toInt.natAbs = 9 ∧ pwrS.mgmt.pwr.hbmThr < 9 ∧ (8#8).toInt.natAbs ≤ pwrS.mgmt.pwr.hbmThr)
    ∧ (let s : State := { pwrS with beacon := 3600000000000 }; s.pwrRuns = true ∧ s.mgmt.pwr.trainAt + 3600000000000 ≤ s.beacon)
    ∧ (let s : State := { pwrS with beacon := 3600000000000 }
       let u := s.gutSample
       let f := fun c => gutPoints (u.gutInputs.getD c 0) (s.mgmt.gut.w.getD c 0) (s.mgmt.gut.l.getD c 0)
       min 1000 (sumBy id ((List.range 6).map f)) < s.mgmt.gut.thresh)
    ∧ (let s : State := { pwrS with mgmt := { pwrS.mgmt with gut := { thresh := 0 } } }
       s.pwrRuns = true ∧ s.mgmt.gut.thresh ≤ 0 ∧ s.mgmt.gut.en = true ∧ s.mgmt.gut.armed = true) := by decide +kernel

/-! ### Witnesses: supplies and firmware -/

/-- The device of reset in standby. -/
def sbS : State := { dev := { st := .standby } }
set_option maxRecDepth 100000 in
theorem bcrReset_good : goodBcr bcrReset = true ∧ goodBcr [] = false := by decide +kernel
/-- Its SRAM PUF reads as it did when its record was made. -/
theorem helper_of {n : NvsSt} {k : Nat} {r : PufRec} (h : FMap.find? n.puf k = some r) (h' : FMap.find? n.puf (k + 1) = none) (hr : r.ok = true) :
    n.helper k = some (k, r) := by simp [NvsSt.helper, h, h', hr, Option.filter]
theorem find_two {x y : PufRec} : FMap.find? [(0, x), (2, y)] 0 = some x ∧ FMap.find? [(0, x), (2, y)] (0 + 1) = none := ⟨rfl, rfl⟩
theorem reset_helper : ({} : NvsSt).helper 0 = some (0, .make (.mask (2 ^ pufBits - 1)) (List.replicate 32 0) 0 1) :=
  helper_of find_two.1 find_two.2 (PufRec.make_ok _ _ _ _)
theorem sbS_nvs : sbS.mgmt.nvs = {} := rfl
theorem boots_sbS (i : StartIn) (h : i.sram = []) : Claims.Boots sbS .field i where
  margin := rfl
  crc := by decide +kernel
  life := by decide +kernel
  may := by decide
  puf := ⟨0, _, _, by rw [sbS_nvs]; exact reset_helper, by rw [h, List.getD_nil]; exact pufReset_opens⟩
  mark := by decide
  boot := by decide
  board := by
    have h : goodBcr bcrReset = true ∧ goodBcr [] = false := bcrReset_good
    show (sbS.pickBcr).2 = 0
    simp only [State.pickBcr, show sbS.mgmt.nvs.bcrA = bcrReset from rfl, show sbS.mgmt.nvs.bcrB = [] from rfl, h.1, h.2]
    rfl
  ctr := by decide +kernel
theorem witness_supplies :
    (sbS.dev.st = .standby ∧ sbS.mgmt.nvs.val 1 < 3 ∧ sbS.doms = []) ∧ ({ dev := { st := .off } } : State).dev.st = .off
    ∧ (let s : State := { dev := { st := .standby }, mgmt := { nvs := { ctrs := [(1, [.valid 3 1, .erased, .erased])] } } }
       s.dev.st = .standby ∧ s.doms = [] ∧ 3 ≤ s.mgmt.nvs.val 1)
    ∧ State.reset.powered = true
    ∧ (let s : State := { mgmt := { pins := { perst := true, perstRun := true } } }
       s.mgmt.pins.perst = true ∧ s.mgmt.pins.perstRun = true ∧ s.powered = true)
    ∧ State.reset.mgmt.pins.perstRun = false ∧ ((0x53540003#32).toNat / 65536 = 0x5354 ∧ State.reset.dev.cause ≠ 0xC)
    ∧ (1#32).toNat / 65536 ≠ 0x5354
    ∧ (let s : State := { clk := 10, mgmt := { start := { retry := some 10 } } }; s.mgmt.start.retry = some 10 ∧ s.dev.st = .hold ∧ 10 ≤ s.clk)
    ∧ (let s : State := { clk := 9, mgmt := { start := { retry := some 10 } } }; s.mgmt.start.retry = some 10 ∧ s.clk < 10) := by decide +kernel
theorem witness_start_request : State.reset.pf0Free := free_mk (by decide +kernel)

/-- A bundle of four images of 64 zero bytes: header and entries of R435 and R436; keys and signatures zero. -/
def bundHead : List Byte :=
  let e := fun (t off : Nat) => leBytes 2 t ++ leBytes 2 1 ++ leBytes 4 off ++ leBytes 4 64 ++ leBytes 4 0 ++ sha384 (List.replicate 64 0)
  ascii "SFWB" ++ leBytes 2 0x100 ++ [4, 1] ++ leBytes 2 1 ++ leBytes 6 0 ++ leBytes 4 0x6040 ++ leBytes 12 0
    ++ (e 1 0x3000 ++ e 2 0x4000 ++ e 3 0x5000 ++ e 4 0x6000)
def bund : List Byte := bundHead ++ List.replicate (0x6040 - 0x120) 0
/-- The parts of check 2 of R437, the length apart. -/
theorem format_mk {b : List Byte} {len : Nat} {types : List (List Nat)} (hl : 0x3000 ≤ b.length)
    (h : ((b.take 4 == ascii "SFWB" && fieldAt b 4 2 == 0x100 && zeroAt b 0xA 6 && zeroAt b 0x14 12) && zeroAt b 0x2514 (0x3000 - 0x2514)
      && (fieldAt b 0x10 4 == len && decide (len ≤ 2 ^ 24) && decide (compCount b ≤ 32) && zeroAt b (0x20 + 64 * compCount b) (64 * (32 - compCount b))
      && types.contains ((List.range (compCount b)).map fun k => entryAt b k 0 1) && (List.range (compCount b)).all (entryOk b)
      && !anyOverlap ((List.range (compCount b)).map fun k => (entryAt b k 4 4, entryAt b k 8 4, 0)))) = true) : formatOk b len types = true := by
  simp only [Bool.and_eq_true, decide_eq_true_eq] at h
  obtain ⟨⟨⟨⟨⟨h1, h2⟩, h3⟩, h4⟩, h5⟩, ⟨⟨⟨⟨⟨h6, h7⟩, h8⟩, h9⟩, h10⟩, h11⟩, h12⟩ := h
  simp only [formatOk, Bool.and_eq_true, decide_eq_true_eq]
  exact ⟨⟨⟨⟨⟨⟨⟨⟨⟨⟨⟨⟨hl, h1⟩, h2⟩, h3⟩, h4⟩, h5⟩, h6⟩, h7⟩, h8⟩, h9⟩, h10⟩, h11⟩, h12⟩
theorem bundHead_length : bundHead.length = 0x120 := by decide +kernel
theorem bund_length : bund.length = 0x6040 := by rw [bund, List.length_append, bundHead_length, List.length_replicate]
theorem bund_format : formatOk bund 0x6040 bundleTypes = true ∧ bund.length = 0x6040 ∧ fieldAt bund 8 2 = 1 :=
  ⟨format_mk (by rw [bund_length]; decide) (by decide +kernel), bund_length, by decide +kernel⟩
theorem bund_images : State.reset.oldComp bund = none
    ∧ ((List.range (compCount bund)).find? fun k => (imageOf bund k).length != entryAt bund k 8 4 || sha384 (imageOf bund k) != digestOf bund k) = none := by
  decide +kernel
/-- Whether the keys and signatures verify is left to the configuration's functions: where they do, the bundle passes. -/
theorem witness_bundle (hk : State.reset.keyOk bund = true) (hs : sigsOk bund = true) :
    State.reset.bundleStop bund 0x6040 bundleTypes = (0, 0) ∧ State.reset.waitsBundle = true ∧ State.reset.pf0Free := by
  refine ⟨?_, by decide +kernel, free_mk (by decide +kernel)⟩
  have h : ¬ fieldAt bund 8 2 < State.reset.sec.svn := by rw [bund_format.2.2]; decide
  have hl : ¬ bund.length < min 0x6040 0x3000 := by rw [bund_format.2.1]; decide
  have hg : (State.reset.sec.lc == .blank || State.reset.sec.lc == .scrap || State.reset.sec.lc == .invalid || State.reset.sec.snuffed
      || State.reset.mgmt.fw.loaded) = false := by decide +kernel
  simp only [State.bundleStop, hl, bund_format.1, hk, hs, h, bund_images.1, bund_images.2, hg, Bool.not_true, if_false, Bool.false_eq_true]
  rfl
theorem witness_firmware :
    (let s : State := { mgmt := { fw := { len := 0x3000 } } }
     s.waitsBundle = true ∧ s.bundleStop [] s.mgmt.fw.len bundleTypes = (6, 0))
    ∧ (∀ a ∈ [1, 2, 3, 4], let s : State := { clk := 100000000, mgmt := { fw := { await := a, ccc := 3, cccReady := 1 } } }
        s.mgmt.fw.await = a ∧ s.mgmt.fw.await ≠ 0 ∧ s.mgmt.fw.since + 100000000 ≤ s.clk)
    ∧ pwrS.dev.st = .run ∧ (2#16).toNat < 3 ∧ (0x100 ≤ (0x13F#16).toNat ∧ (0x13F#16).toNat < 0x140) ∧ pwrS.powered = true := by decide +kernel

/-! ### Witnesses: the service port, JTAG, telemetry -/

/-- A service port in that state. -/
def usbS (u : UsbSt) : State := { mgmt := { usb := u } }
/-- A started command, of sequence 5. -/
def usbRun (op : Nat) (p : List Byte) : State := usbS { session := some 9, running := some (5, op, p, 0) }
theorem witness_service_blocks :
    State.reset.usbUp = true
    ∧ (let b := leBytes 4 9 ++ leBytes 4 1 ++ leBytes 4 7 ++ leBytes 4 1 ++ [1]
       (usbS { session := some 9 }).mgmt.usb.accepts b = true ∧ (usbS { session := some 9, lastSeq := 1 }).mgmt.usb.accepts b = false)
    ∧ (16 ≤ (16#16).toNat ∧ (4096#16).toNat ≤ 4096 ∧ (usbRun 1 []).mgmt.usb.running = some ((5#32).toNat, 1, [], 0)) := by decide +kernel
theorem witness_service_results :
    (∀ op, (usbS { staged := some (9, 1, op, 0, []) }).mgmt.usb.staged = some (9, 1, op, 0, []) ∧ 0 = ([] : List Byte).length)
    ∧ (let r : UsbRes := { seq := 5, op := 1, status := 0 }
       (usbS { results := [r] }).mgmt.usb.running = none ∧ (usbS { results := [r] }).mgmt.usb.results.find? (fun x => x.seq == (5#32).toNat) = some r)
    ∧ ((usbS {}).mgmt.usb.results.find? (fun x => x.seq == (5#32).toNat) = none) := ⟨fun _ => ⟨rfl, rfl⟩, by decide +kernel⟩
theorem witness_service_sessions :
    ((usbRun 1 []).mgmt.usb.running ≠ none ∧ (usbRun 1 []).mgmt.usb.session = some 9 ∧ (usbRun 1 []).usbUp = true)
    ∧ ((usbS { session := some 9 }).mgmt.usb.session = some (9#32).toNat ∧ (usbS { session := some 9 }).mgmt.usb.running = none)
    ∧ ((usbRun 1 []).inBulk = false ∧ (usbRun 5 []).inBulk = true)
    ∧ (let s : State := { mgmt := { pins := { vbus := false } } }; s.usbUp = false)
    ∧ (let s : State := { clk := 600000000000 }; s.mgmt.usb.running = none ∧ s.mgmt.usb.at_ + 600000000000 ≤ s.clk)
    ∧ (let s : State := { usbRun 5 [] with clk := 10000000000 }; s.mgmt.usb.running = some (5, 5, [], 0) ∧ s.inBulk = true ∧ 0 + 10000000000 ≤ s.clk)
    ∧ ((usbRun 1 []).powered = true ∧ ({ usbRun 1 [] with dev := { st := .standby } } : State).powered = false) := by decide +kernel
theorem witness_service_commands :
    (∀ op, let s := usbRun op []
       s.mgmt.usb.running = some (5, op, [], 0) ∧ s.mgmt.nvs.queue = [] ∧ s.mgmt.fw.await = 0
       ∧ ({ s with dev := { st := .standby } } : State).powered = false
       ∧ (let t : State := { s with dev := { st := .run }, sec := { snuffed := true } }; t.powered = true ∧ t.sec.snuffed = true ∧ t.dev.st = .run))
    ∧ (let s := usbRun 3 [0]; s.powered = true ∧ s.sec.snuffed = false ∧ s.mgmt.fw.romrec = false ∧ s.mgmt.nvs.bcrA ≠ [])
    ∧ (bcrSeqOf bcrReset = 1 ∧ ∀ p, (usbRun 4 p).mgmt.nvs.bcrA = bcrReset ∧ (usbRun 4 p).mgmt.nvs.bcrB = [])
    ∧ (let s : State := { usbRun 4 bcrReset with mgmt := { (usbRun 4 bcrReset).mgmt with nvs := { bcrA := [] } } }
       s.mgmt.nvs.queue = [] ∧ s.mgmt.nvs.bcrA = [] ∧ s.mgmt.nvs.bcrB = [] ∧ s.powered = true
         ∧ s.mgmt.nvs.checkAll .security (.bcr (s.mgmt.start.copy == 1) bcrReset) = 0)
    ∧ (let s := usbRun 5 (leBytes 4 0x6040); s.waitsBundle = true ∧ s.mgmt.fw.await = 0 ∧ (leBytes 4 0x6040).length = 4
        ∧ (s.bundleStop [] 0x6040 bundleTypes).1 ≠ 0)
    ∧ (∀ b ∈ [0, 1], let s := usbRun 7 [b]
        s.dev.st = .hold ∧ s.dev.cause ≠ 0xC ∧ s.powered = true ∧ s.sec.snuffed = false ∧ s.mgmt.fw.romrec = false) :=
  ⟨fun _ => ⟨rfl, rfl, rfl, rfl, rfl, rfl, rfl⟩, by decide +kernel, ⟨by decide +kernel, fun _ => ⟨rfl, rfl⟩⟩, by decide +kernel⟩
theorem bcrTop_of : (bcrSeqOf bcrReset ≤ ({ bcrA := bcrReset, bcrB := [] } : NvsSt).bcrTop) ∧ ({ bcrA := [], bcrB := [] } : NvsSt).bcrTop < bcrSeqOf bcrReset := by
  constructor
  · simp only [NvsSt.bcrTop, bcrReset_good.1, if_true]; exact Nat.le_max_left _ _
  · simp only [NvsSt.bcrTop, bcrReset_good.2, if_false, Bool.false_eq_true]; decide +kernel
theorem stop_usb (s : State) (u : UsbSt) (b : List Byte) (n : Nat) (y : List (List Nat)) :
    ({ s with mgmt := { s.mgmt with usb := u } } : State).bundleStop b n y = s.bundleStop b n y := by
  have hk : ({ s with mgmt := { s.mgmt with usb := u } } : State).keyOk b = s.keyOk b := by unfold State.keyOk; rfl
  have ho : ({ s with mgmt := { s.mgmt with usb := u } } : State).oldComp b = s.oldComp b := by unfold State.oldComp; rfl
  unfold State.bundleStop
  rw [hk, ho]
theorem usbRun_stop (op : Nat) (p b : List Byte) (n : Nat) (y : List (List Nat)) : (usbRun op p).bundleStop b n y = State.reset.bundleStop b n y :=
  stop_usb State.reset { session := some 9, running := some (5, op, p, 0) } b n y
/-- The same bundle sent to the service port, and as a monitor image one of a single component. -/
theorem witness_service_bundle (h : State.reset.bundleStop bund 0x6040 bundleTypes = (0, 0)) :
    (usbRun 5 (leBytes 4 0x6040)).bundleStop (bund.take (leNat (leBytes 4 0x6040))) (leNat (leBytes 4 0x6040)) bundleTypes = (0, 0) := by
  have e : leNat (leBytes 4 0x6040) = 0x6040 := by decide
  have t : bund.take 0x6040 = bund := List.take_of_length_le (Nat.le_of_eq bund_length)
  rw [e, t, usbRun_stop]; exact h
def monHead : List Byte :=
  ascii "SFWB" ++ leBytes 2 0x100 ++ [1, 1] ++ leBytes 2 1 ++ leBytes 6 0 ++ leBytes 4 0x3040 ++ leBytes 12 0
    ++ (leBytes 2 0x10 ++ leBytes 2 1 ++ leBytes 4 0x3000 ++ leBytes 4 64 ++ leBytes 4 0 ++ sha384 (List.replicate 64 0))
def monImg : List Byte := monHead ++ List.replicate (0x3040 - 0x60) 0
theorem monHead_length : monHead.length = 0x60 := by decide +kernel
theorem monImg_length : monImg.length = 0x3040 := by rw [monImg, List.length_append, monHead_length, List.length_replicate]
theorem monImg_ok : formatOk monImg 0x3040 monitorTypes = true ∧ monImg.length = 0x3040 ∧ fieldAt monImg 8 2 = 1
    ∧ State.reset.oldComp monImg = none
    ∧ ((List.range (compCount monImg)).find? fun k => (imageOf monImg k).length != entryAt monImg k 8 4
        || sha384 (imageOf monImg k) != digestOf monImg k) = none :=
  ⟨format_mk (by rw [monImg_length]; decide) (by decide +kernel), monImg_length, by decide +kernel, by decide +kernel, by decide +kernel⟩
theorem witness_monitor (hk : State.reset.keyOk monImg = true) (hs : sigsOk monImg = true) :
    ((usbRun 6 (leBytes 4 0x3040)).bundleStop (monImg.take (leNat (leBytes 4 0x3040))) (leNat (leBytes 4 0x3040)) monitorTypes).1 = 0
    ∧ (usbRun 6 (leBytes 4 0x3040)).dev.st = .hold := by
  refine ⟨?_, rfl⟩
  have e : leNat (leBytes 4 0x3040) = 0x3040 := by decide
  have t : monImg.take 0x3040 = monImg := List.take_of_length_le (Nat.le_of_eq monImg_length)
  rw [e, t, usbRun_stop]
  have h : ¬ fieldAt monImg 8 2 < State.reset.sec.svn := by rw [monImg_ok.2.2.1]; decide
  have hl : ¬ monImg.length < min 0x3040 0x3000 := by rw [monImg_ok.2.1]; decide
  have hg : (State.reset.sec.lc == .blank || State.reset.sec.lc == .scrap || State.reset.sec.lc == .invalid || State.reset.sec.snuffed
      || State.reset.mgmt.fw.loaded) = false := by decide +kernel
  simp only [State.bundleStop, hl, monImg_ok.1, hk, hs, h, monImg_ok.2.2.2.1, monImg_ok.2.2.2.2, hg, Bool.not_true, if_false,
    Bool.false_eq_true]
  rfl

theorem witness_jtag :
    (∀ lc ∈ [Lc.test, .field], let s : State := { sec := { lc := lc } }
       s.dev.st ≠ .off ∧ s.secRuns = true ∧ s.sec.lcKnown = true ∧ ∀ r ∈ Claims.jtagRows, s.tapOpen r.2 = true ∨ s.tapOpen r.2 = false)
    ∧ (∀ r ∈ Claims.jtagRows, ({ sec := { lc := .test } } : State).tapOpen r.2 = true)
    ∧ (Lc.field.factory = false ∧ Lc.field ≠ .blank ∧ State.reset.tapOpen 0x10 = false)
    ∧ ({ sec := { lcKnown := false } } : State).sec.lcKnown = false ∧ (0x42#8 ≠ 0x40 ∧ 0x42#8 ≠ 0x41)
    ∧ (0x10#8 &&& 0x1F &&& State.reset.mgmt.smb.status = 0) ∧ (State.reset.mgmt.pwr.capped = false ∧ State.reset.mgmt.pwr.brake = false)
    ∧ ({ mgmt := { smb := { alert := true } } } : State).mgmt.smb.alert = true := by decide +kernel

/-! ### Witnesses: the machine -/

theorem witness_step : State.reset.pending = [] ∧ State.reset.bcn.absorb = 0 := by decide
/-- Domain 0 has a live context, domain 1 the first frame. -/
def twoS : State := { runState runWick with doms := [(0, { dom0 runWick with ptH := [] })], mem := { frames := [(0, .domain 1)] } }
theorem witness_domains : ((Instr.nop wick0 {}).wf = true ∧ (runState runWick).runnable wick0 = true)
    ∧ (∀ off x, (twoS.dom wick0.d).dpa off = some x → Claims.ownedBy twoS x wick0.d) ∧ Claims.ownedBy twoS 0 1 ∧ 1 ≠ wick0.d := by
  refine ⟨by decide +kernel, ?_, Or.inl (by decide +kernel), by decide⟩
  intro off x h
  have e : (twoS.dom wick0.d).ptH = [] ∧ (twoS.dom wick0.d).ptR = [] := ⟨rfl, rfl⟩
  simp [Dom.dpa, Dom.pte, e.1, e.2, FMap.find?] at h
theorem witness_canonical : State.reset.canonical ∧ step State.reset = .next (match step State.reset with | .next t => t | _ => State.reset) :=
  ⟨⟨rfl, rfl⟩, by rfl⟩

/-! ### Ill-formed terms -/

theorem test_wf_nop : (Instr.nop wick0 { m := 1 }).wf = false := by decide
theorem test_wf_opcodes : ∀ row ∈ Claims.issueRows.tail, (row wick0 {}).wf = false := by decide +kernel
theorem test_wf_links : linkIs 36 = false ∧ linkIs 35 = true ∧ fnIs 257 = false ∧ fnIs 256 = true := by decide
theorem test_wf_packets : pktIs { ptype := 1, bytes := 1 } 1 = false ∧ pktIs { ptype := 2, bytes := 1 } 2 = true
    ∧ pktIs { ptype := 2, data := [1] } 2 = false ∧ pktIs { ptype := 4 } 1 = false := by decide
/-- The first link, packet, controller, function, length and group past what the device has. -/
theorem test_wf_rows : ∀ i ∈ ([.ld wick0 {} {}, .st wick0 {} {}, .sealClose 28 0, .rekeyPage 28 {}, .flitReceive 36 {}, .replayTimeout 36,
    .stallCodeword 63, .linkRetrain 36 .noLock, .detectTimeout 36 true, .linkTrain 36 {}, .linkKeyx 36 {}, .linkRekey 36 true true {},
    .linkRetrainFull 36, .linkMarginLow 36 0, .packetForward { pkt := { ptype := 9 } }, .packetForward { pkt := { ptype := 1, bytes := 2, data := [0] } },
    .pktWrite { ptype := 2 }, .pktReadReq { ptype := 1 } [], .pktReadData { ptype := 1 }, .pktAck { ptype := 1 }, .pktNak { ptype := 4 },
    .pktToken { ptype := 1 } false 0 0, .linkStateMsg 0 36 true] : List Instr), i.wf = false := by decide +kernel
theorem test_wf_control_packets : ∀ f ∈ ([.jointPeer, .commReady, .commGrant, .commBreak, .cutReq, .cutStat, .cutSet, .cutDone, .cutCommit, .cutAbort,
    .ckptSize, .syncReq 0, .syncRsp 0, .announce 0] : List (Pkt → Instr)), (f { ptype := 7 }).wf = false ∧ (f { ptype := 8 }).wf = true := by
  decide +kernel
theorem test_wf_collective_packets : ∀ f ∈ ([.collContrib, .collPartial, .reduceResult, .collGather, .collBcast, .barrierUp, .barrierDown,
    .collToksum] : List (Pkt → Instr)), (f { ptype := 8 }).wf = false ∧ (f { ptype := 7 }).wf = true := by decide +kernel
theorem test_wf_management : ∀ i ∈ ([.mbxHello 257, .mbxGo 257, .mbxReady 257, .registerRead 257 0 4 false false, .registerWrite { fn := 257, data := [0] },
    .registerWrite { fn := 0, data := [] }, .startInterfaceRequest 0 0 [], .domainReport 0 (List.replicate 31 0), .respondIfReady 257,
    .bindDomain 0 0 0 [] [], .keyRelease 0 0 0 0 [] (List.replicate 40 0), .keyRelease 0 0 0 0 (List.replicate 48 0) [], .jointFinish 0 [],
    .syncReq 36 { ptype := 8 }, .throttle 20 true 0, .hbmDrift 12 0 0] : List Instr), i.wf = false := by decide +kernel

end Sys2Proof.Tests
end

section
/-! The step barrier: what STEP and HALT leave of their Wick, what a boundary does, and when a STEP has waited too long
(R34, R35, R178, R180). -/

namespace Sys2Proof.Machine

/-! ### A bundle whose C slot alone holds an instruction -/

theorem liveCtx_of_on {s : State} {d c k : Nat} (h : s.on d c k) : s.liveCtx d c = true := by
  obtain ⟨x, hx, hl, -⟩ := h
  simp [State.liveCtx, hx, hl]

/-- The Wick moved on to the next bundle. -/
theorem setPc_run_ne_idle {k : Wick} (h : k.run = .running) (pc : DWord) : (k.setPc pc).run ≠ .idle := by
  rw [Wick.setPc_run, h]; exact WickRun.noConfusion

/-- A C slot that writes no register of its own and is not held acts on the Wick that has moved to its next bundle (R121). -/
theorem issueRead_onlyC {s : State} {w : WickRef} {b : Bundle} (h : Issues s w b) (hb : Claims.onlyC b) (hw : opOf b.c ≠ 0xE1)
    (ha : cActs (s.wickAt w.d w.c w.key) b.c = []) (hh : ∀ t i, State.cHeld t i b.c = false) :
    s.issueRead w b = (s.setWickAt w.d w.c w.key
      ((s.wickAt w.d w.c w.key).setPc (cNext (s.wickAt w.d w.c w.key) b.c))).doC (s.iss w) b.c := by
  obtain ⟨hm, hv, hx⟩ := hb
  obtain ⟨hrun, hfetch, hlegal, ⟨stall1, stall2, stall3, stall4⟩, flts1, flts2, flts3, flts4⟩ := h
  obtain ⟨x, hctx, hlive, hr, -⟩ := runnable_live hrun
  have hacts := slotActs_C (s := s) (w := w) hm hv hx
  have hheld : s.heldStore w.d [] = none := rfl
  have hnext := setRun_running (s.iss w) (cNext (s.wickAt w.d w.c w.key) b.c) hr
  have hl := liveCtx_of_on (on_setWickAt (on_of_runnable hrun)
    (setPc_run_ne_idle hr (cNext (s.wickAt w.d w.c w.key) b.c)))
  simp only [State.slotActs, State.iss] at hacts flts3 flts4 stall3 hnext
  simp [State.issueRead, State.perform, hrun, hfetch, hlegal, hw, stall1, stall2, stall3, stall4, flts1, flts2, flts3, flts4, fltIf,
    hacts, hheld, ha, hh, waitActs, actToks, State.acts, hnext, hl, State.iss]

/-- A Wick that its instruction stops stays at the address of its bundle. -/
theorem setRun_setPc {s : State} {w : WickRef} (h : s.on w.d w.c w.key) (hr : (s.wickAt w.d w.c w.key).run = .running) (q : DWord)
    {r : WickRun} (hi : r ≠ .idle) :
    (s.setWickAt w.d w.c w.key ((s.wickAt w.d w.c w.key).setPc q)).setRun (s.iss w) (s.iss w).wk.pc r
      = s.setWickAt w.d w.c w.key { s.wickAt w.d w.c w.key with run := r } := by
  simp only [State.setRun, State.iss]
  rw [wickAt_setWickAt_on h (setPc_run_ne_idle hr q), setWickAt_setWickAt_on h (setPc_run_ne_idle hr q) hi]
  rfl

/-! ### The domain of a context that is written -/

theorem ctx?_eq (s : State) (d c : Nat) : s.ctx? d c = FMap.find? (s.dom d).ctxs c := rfl

theorem dom_setCtx (s : State) (d c : Nat) (x : Ctx) :
    (s.setCtx d c x).dom d = { s.dom d with ctxs := FMap.insert (s.dom d).ctxs c x } :=
  dom_setDom_of_ne _ _ (Dom.ne_default_of_ctx (c := c) (x := x) (by simp))

/-- A change that keeps the contexts of a domain that has one reads back. -/
theorem dom_modDom {s : State} {d c : Nat} {x : Ctx} (h : s.ctx? d c = some x) {f : Dom → Dom}
    (hf : (f (s.dom d)).ctxs = (s.dom d).ctxs) : (s.modDom d f).dom d = f (s.dom d) :=
  dom_setDom_of_ne _ _ (Dom.ne_default_of_ctx (c := c) (x := x) (by rw [hf]; exact h))

theorem timeoutUs_setWickAt {s : State} {d c k : Nat} (h : s.on d c k) (w : Wick) :
    ((s.setWickAt d c k w).dom d).timeoutUs = (s.dom d).timeoutUs := by
  obtain ⟨x, hx, hl, -⟩ := h
  rw [setWickAt_of_live k w hx hl, dom_setCtx]

/-! ### STEP and HALT -/

/-- A Wick that has issued HALT ends at once where it has no transfer outstanding (R180). -/
theorem settle_halting (k : Wick) : ({ k with run := .halting } : Wick).settle
    = { k with run := if k.tokd = [] ∧ ∀ p ∈ k.dma, p.2 = [] then .halted else .halting } := by
  have h : (k.tokd = [] ∧ ∀ p ∈ k.dma, p.2 = []) ↔ (k.tokd.isEmpty = true ∧ k.dma.all (fun p => p.2.isEmpty) = true) := by
    simp
  unfold Wick.settle
  simp only [h, true_and]
  split <;> rfl

theorem issueRead_step {s : State} {w : WickRef} {b : Bundle} (h : Issues s w b) (hb : Claims.onlyC b) (hop : opOf b.c = 0xEA) :
    s.issueRead w b = s.setWickAt w.d w.c w.key
      { s.wickAt w.d w.c w.key with run := .atStep (fld b.c 8 6) s.beacon (s.dom w.d).timeoutUs } := by
  have hon := on_of_runnable h.run
  obtain ⟨-, -, -, hr, -⟩ := runnable_live h.run
  rw [issueRead_onlyC h hb (by omega) (by simp [cActs, hop]) (by intros; simp [State.cHeld, hop])]
  simp only [State.doC, hop]
  rw [setRun_setPc hon hr _ WickRun.noConfusion]
  simp [State.iss, timeoutUs_setWickAt hon]

theorem issueRead_halt {s : State} {w : WickRef} {b : Bundle} (h : Issues s w b) (hb : Claims.onlyC b) (hop : opOf b.c = 0xFE) :
    s.issueRead w b = s.setWickAt w.d w.c w.key { s.wickAt w.d w.c w.key with
      run := if (s.wickAt w.d w.c w.key).tokd = [] ∧ ∀ p ∈ (s.wickAt w.d w.c w.key).dma, p.2 = [] then .halted else .halting } := by
  have hon := on_of_runnable h.run
  obtain ⟨-, -, -, hr, -⟩ := runnable_live h.run
  have hne : (if (s.wickAt w.d w.c w.key).tokd = [] ∧ ∀ p ∈ (s.wickAt w.d w.c w.key).dma, p.2 = [] then WickRun.halted
      else .halting) ≠ .idle := by
    split <;> exact WickRun.noConfusion
  rw [issueRead_onlyC h hb (by omega) (by simp [cActs, hop]) (by intros; simp [State.cHeld, hop])]
  simp only [State.doC, hop]
  rw [setRun_setPc hon hr _ WickRun.noConfusion]
  simp only [State.iss]
  rw [wickAt_setWickAt_on hon WickRun.noConfusion, settle_halting, setWickAt_setWickAt_on hon WickRun.noConfusion hne]

/-- R178, R180: STEP and HALT hold their Wick at their bundle. -/
theorem stepAndHalt : Claims.stepAndHalt := by
  intro s w b hb hg
  constructor
  · intro hwf
    have e : exec (.stepBarrier w b) s = .next (s.issue w (b.opC 0xEA)) := rfl
    rw [e, opC_self hwf, issue_goes hg, issueRead_step hg.2 hb (opOf_eq hwf)]
    rfl
  · intro hwf
    have e : exec (.halt w b) s = .next (s.issue w (b.opC 0xFE)) := rfl
    rw [e, opC_self hwf, issue_goes hg, issueRead_halt hg.2 hb (opOf_eq hwf)]
    rfl

/-! ### Values of a map changed one by one -/

theorem FMap.find?_map {V : Type} (g : V → V) (m : FMap V) (k : Nat) :
    FMap.find? (m.map fun p => (p.1, g p.2)) k = (FMap.find? m k).map g := by
  induction m with
  | nil => rfl
  | cons p m ih =>
    by_cases h : p.1 = k
    · simp [FMap.find?, h]
    · simpa [FMap.find?, h] using ih

theorem FMap.get_map {V : Type} {d : V} {g : V → V} (hg : g d = d) (m : FMap V) (k : Nat) :
    FMap.get d (m.map fun p => (p.1, g p.2)) k = g (FMap.get d m k) := by
  unfold FMap.get
  rw [FMap.find?_map]
  cases FMap.find? m k with
  | none => exact hg.symm
  | some v => rfl

/-! ### Retiring a STEP -/

/-- A Wick that waits at STEP goes on with the step number; any other is left (R178). -/
def Wick.passStep (step : DWord) (k : Wick) : Wick :=
  match k.run with
  | .atStep sd _ _ => { (k.setS sd step) with pc := k.pc + 32, run := .running }
  | _ => k

theorem Wick.passStep_of_atStep {k : Wick} {sd since us : Nat} (step : DWord) (h : k.run = .atStep sd since us) :
    k.passStep step = { (k.setS sd step) with pc := k.pc + 32, run := .running } := by
  simp [Wick.passStep, h]

theorem Wick.passStep_of_ne {k : Wick} (step : DWord) (h : ∀ sd since us, k.run ≠ .atStep sd since us) : k.passStep step = k := by
  unfold Wick.passStep
  split
  · next hr => exact absurd hr (h _ _ _)
  · rfl

/-- What retiring its STEP leaves of a context with program `p`: at once where it is resident, else when it next is (R178). -/
def Ctx.passStep (x : Ctx) (p : Prog) : Ctx :=
  if p.resident then { x with held := false, retire := false, wicks := x.wicks.map fun q => (q.1, q.2.passStep x.step) }
  else { x with held := false, retire := true }

theorem Ctx.passStep_fields (x : Ctx) (p : Prog) :
    (x.passStep p).step = x.step ∧ (x.passStep p).retire = !p.resident ∧ (x.passStep p).held = false := by
  unfold Ctx.passStep
  cases h : p.resident <;> simp

theorem Ctx.passStep_wicks_of_swapped {p : Prog} (x : Ctx) (h : p.resident = false) : (x.passStep p).wicks = x.wicks := by
  simp [Ctx.passStep, h]

theorem Ctx.passStep_wick_of_resident {p : Prog} (x : Ctx) (h : p.resident = true) (k : Nat) :
    (x.passStep p).wick k = (x.wick k).passStep x.step := by
  have hd : Wick.passStep x.step {} = {} := rfl
  simpa [Ctx.passStep, h, Ctx.wick] using FMap.get_map hd x.wicks k

theorem Ctx.passStep_wick_of_ne (x : Ctx) (p : Prog) {k : Nat} (h : ∀ sd since us, (x.wick k).run ≠ .atStep sd since us) :
    (x.passStep p).wick k = x.wick k := by
  cases hp : p.resident with
  | true => rw [x.passStep_wick_of_resident hp, Wick.passStep_of_ne _ h]
  | false => simp [Ctx.wick, x.passStep_wicks_of_swapped hp]

/-- The step's first micro-batch starts in the domain's record of micro-batches alone (R215). -/
theorem dom_startMb {s : State} {d e : Nat} {x : Ctx} (h : s.ctx? d e = some x) (c : Nat) :
    ∃ mb, (s.startMb d c).dom d = { s.dom d with mb := mb } := by
  unfold State.startMb
  rw [dom_modDom h (by split <;> rfl)]
  split
  · exact ⟨_, rfl⟩
  · exact ⟨(s.dom d).mb, rfl⟩

/-- A context retires its STEP: the context, and of its domain the micro-batches' record, are all that changes there. -/
theorem dom_retireStep {s : State} {d c : Nat} {x : Ctx} {p : Prog} (h : s.ctx? d c = some x) (hp : x.prog = some p) :
    ∃ mb, (s.retireStep d c).dom d = { s.dom d with mb := mb, ctxs := FMap.insert (s.dom d).ctxs c (x.passStep p) } := by
  cases hres : p.resident with
  | true =>
    obtain ⟨mb, hmb⟩ := dom_startMb h c
    have hx : (s.startMb d c).ctx? d c = some x := by rw [ctx?_eq, hmb]; exact h
    have e : s.retireStep d c = (s.startMb d c).setCtx d c (x.passStep p) := by
      simp [State.retireStep, h, hp, hres, State.modCtx, hx, Ctx.passStep]; rfl
    exact ⟨mb, by rw [e, dom_setCtx, hmb]⟩
  | false =>
    have e : s.retireStep d c = s.setCtx d c (x.passStep p) := by
      simp [State.retireStep, h, hp, hres, State.modCtx, Ctx.passStep]
    exact ⟨(s.dom d).mb, by rw [e, dom_setCtx]⟩

/-! ### The boundary -/

/-- Context `c` of domain `d`, which was `x`, has recorded a step: its number, and the domain's step record and micro-batches
(R34, R35, R215). -/
def State.recordStep (s : State) (d c : Nat) (x : Ctx) : State :=
  (s.setCtx d c { x with step := x.step + 1 }).modDom d fun m => { m with
    stepNum := x.step + 1, stepTime := BitVec.ofNat 64 s.beacon, stepCtx := BitVec.ofNat 16 c, stepCut := false
    mb := if m.mb.en ∧ m.mb.ctx = c then m.mb.latch else m.mb }

theorem dom_recordStep (s : State) (d c : Nat) (x : Ctx) :
    ∃ mb, (s.recordStep d c x).dom d = { s.dom d with
      stepNum := x.step + 1, stepTime := BitVec.ofNat 64 s.beacon, stepCtx := BitVec.ofNat 16 c, stepCut := false
      mb := mb, ctxs := FMap.insert (s.dom d).ctxs c { x with step := x.step + 1 } } := by
  unfold State.recordStep
  rw [dom_modDom (ctx?_setCtx s d c { x with step := x.step + 1 }) (by rfl), dom_setCtx]
  exact ⟨_, rfl⟩

/-- The Beacon logic's part of a boundary touches no domain and no checkpoint (R486, R488, R489). -/
@[simp] theorem State.beaconStep_fields (s : State) (d c : Nat) (idle : List (BitVec 16 × List (BitVec 5))) :
    (s.beaconStep d c idle).dom = s.dom ∧ (s.beaconStep d c idle).ck = s.ck := by
  unfold State.beaconStep
  simp only
  split <;> split <;> exact ⟨rfl, rfl⟩

/-- Nor does the exchange of the Expert Home Table's banks (R289). -/
@[simp] theorem State.ehtSwitch_fields (s : State) (d c : Nat) (step : DWord) :
    (s.ehtSwitch d c step).dom = s.dom ∧ (s.ehtSwitch d c step).ck = s.ck := by
  unfold State.ehtSwitch
  simp only
  split <;> exact ⟨rfl, rfl⟩

/-- Without a checkpoint of the context a boundary records the step, and the STEPs retire (R34). -/
theorem boundary_eq {s : State} {d c : Nat} {x : Ctx} (h : s.ctx? d c = some x) (hk : (s.ck d).conf = false ∨ (s.ck d).ctx ≠ c)
    (idle : List (BitVec 16 × List (BitVec 5))) :
    s.boundary d c idle
      = (((s.recordStep d c x).beaconStep d c idle).ehtSwitch d c (x.step + 1)).retireStep d c := by
  rcases hk with hk | hk <;> simp [State.boundary, h, hk, State.recordStep]

/-- What that boundary leaves of the domain. -/
theorem dom_boundary {s : State} {d c : Nat} {x : Ctx} {p : Prog} (h : s.ctx? d c = some x) (hp : x.prog = some p)
    (hk : (s.ck d).conf = false ∨ (s.ck d).ctx ≠ c) (idle : List (BitVec 16 × List (BitVec 5))) :
    ∃ mb ctxs, (s.boundary d c idle).dom d = { s.dom d with
        stepNum := x.step + 1, stepTime := BitVec.ofNat 64 s.beacon, stepCtx := BitVec.ofNat 16 c, stepCut := false
        mb := mb, ctxs := ctxs }
      ∧ FMap.find? ctxs c = some (({ x with step := x.step + 1 } : Ctx).passStep p) := by
  obtain ⟨mb, hr⟩ := dom_recordStep s d c x
  have hx : (((s.recordStep d c x).beaconStep d c idle).ehtSwitch d c (x.step + 1)).ctx? d c = some { x with step := x.step + 1 } := by
    simp [ctx?_eq, hr]
  obtain ⟨mb', hd⟩ := dom_retireStep hx hp
  simp only [State.ehtSwitch_fields, State.beaconStep_fields, hr] at hd
  exact ⟨mb', _, by rw [boundary_eq h hk, hd], FMap.find?_insert_self _ _ _⟩

/-- A boundary is reached only with every Wick there and nothing outstanding (R34, R178). -/
theorem stepBoundary_ready {s : State} {d c : Nat} {x : Ctx} (h : s.ctx? d c = some x) (hrun : s.dev.st = .run) (hlive : x.status = .live)
    (hretire : x.retire = false) (hheld : x.held = false) (idle : List (BitVec 16 × List (BitVec 5))) :
    s.stepBoundary d c idle = if x.allAtStep = true ∧ s.busyCtx d c = false then s.boundary d c idle else s := by
  simp [State.stepBoundary, h, hrun, hlive, hretire, hheld]

theorem prog_of_allAtStep {x : Ctx} (h : x.allAtStep = true) : ∃ p, x.prog = some p := by
  cases hp : x.prog with
  | none => simp [Ctx.allAtStep, hp] at h
  | some p => exact ⟨p, rfl⟩

/-! ### A STEP that has waited too long -/

/-- A record of the error log leaves the domain's contexts (R369). -/
theorem ctx?_logErr {s : State} {d c : Nat} {x : Ctx} (h : s.ctx? d c = some x) (r : ERec) : (s.logErr d r).ctx? d c = some x := by
  have hd (e : ELog) : (s.setDom d { s.dom d with elog := e }).dom d = { s.dom d with elog := e } :=
    dom_modDom (f := fun m => { m with elog := e }) h rfl
  unfold State.logErr
  simp only
  split <;> (simp only [ctx?_eq, State.raiseIrq_fields, hd]; exact h)

/-- The abort of a live context leaves it with the cause that ended it (R359). -/
theorem ctx?_teardown {s : State} {d c : Nat} {x : Ctx} (h : s.ctx? d c = some x) (hl : x.status = .live) (f : FCode) :
    ∃ y, (s.teardown d c (.fault f)).ctx? d c = some y ∧ y.status = .aborted ∧ y.ended = some f := by
  simp only [State.teardown, h, hl]
  exact ⟨_, ctx?_setCtx _ _ _ _, rfl, rfl⟩

theorem ctx?_ctxFault {s : State} {d c : Nat} {x : Ctx} (h : s.ctx? d c = some x) (hl : x.status = .live) (k : Nat) (f : FCode)
    (loc adr : DWord) (detail : List Byte) :
    ∃ y, (s.ctxFault d c k f loc adr detail).ctx? d c = some y ∧ y.status = .aborted ∧ y.ended = some f := by
  obtain ⟨y, hy, ha, he⟩ := ctx?_teardown h hl f
  refine ⟨y, ?_, ha, he⟩
  simp only [State.ctxFault, h, hl]
  exact ctx?_logErr hy _

/-- The timeout acts on a Wick that waits at STEP, after the time in force when its STEP began (R178). -/
theorem stepExpire_atStep {s : State} {w : WickRef} {x : Ctx} {sd since us : Nat} (h : s.ctx? w.d w.c = some x) (hrun : s.dev.st = .run)
    (hlive : x.status = .live) (hretire : x.retire = false) (hheld : x.held = false) (hat : (x.wick w.key).run = .atStep sd since us) :
    s.stepExpire w = if since + us * 1000 < s.beacon then s.ctxFault w.d w.c w.key .ftimeout (x.wick w.key).pc 0 else s := by
  simp [State.stepExpire, h, hrun, hlive, hretire, hheld, hat]

/-! ### The statements -/

/-- R34, R35, R178: the boundary of a context, and the timeout of a STEP. -/
theorem stepBoundary : Claims.stepBoundary := by
  constructor
  · intro s d c idle x h hrun hlive hretire hheld
    have e (i : List (BitVec 16 × List (BitVec 5))) :
        exec (.stepBoundary d { ctx := c, idle := i }) s = .next (s.stepBoundary d.toNat c.toNat i) := rfl
    rw [e, stepBoundary_ready h hrun hlive hretire hheld]
    constructor
    · intro hall hbusy hk
      obtain ⟨p, hp⟩ := prog_of_allAtStep hall
      obtain ⟨mb, ctxs, hd, hy⟩ := dom_boundary h hp hk idle
      obtain ⟨hstep, hret, hheld'⟩ := Ctx.passStep_fields { x with step := x.step + 1 } p
      refine ⟨s.boundary d.toNat c.toNat idle, _, p, hp, by rw [if_pos ⟨hall, hbusy⟩], by rw [hd], by rw [hd], by simp [hd], by rw [hd],
        by rw [ctx?_eq, hd]; exact hy, hstep, hret, hheld', ?_, Ctx.passStep_wicks_of_swapped _, ?_⟩
      · intro hres k sd since us hat
        rw [Ctx.passStep_wick_of_resident _ hres]
        exact Wick.passStep_of_atStep _ hat
      · intro k hne
        exact Ctx.passStep_wick_of_ne _ p hne
    · intro hnot
      rw [if_neg]
      rintro ⟨hall, hbusy⟩
      rcases hnot with hsome | hwork
      · exact Bool.false_ne_true (hsome.symm.trans hall)
      · exact Bool.false_ne_true (hbusy.symm.trans hwork)
  · intro s w x sd since us h hrun hlive hretire hheld hat
    have e : exec (.stepTimeout w) s = .next (s.stepExpire w) := rfl
    rw [e, stepExpire_atStep h hrun hlive hretire hheld hat]
    exact ⟨fun hlate => ⟨by rw [if_pos hlate], ctx?_ctxFault h hlive _ _ _ _ _⟩, fun hearly => by rw [if_neg (by omega)]⟩

/-- Settles O17: STEP and HALT leave their Wick at its bundle, a boundary is the record of the step and then the retiring of the STEPs, and
the timeout is a fault of the context. -/
theorem stepsAndHaltsHoldTheirWick : Obligations.StepsAndHaltsHoldTheirWick := ⟨stepAndHalt, stepBoundary⟩

end Sys2Proof.Machine
end

section
/-! Trigger slots: what firing does and leaves, and what closes a quiet window (R39, R483 to R487). -/

namespace Sys2Proof.Machine

/-! ### Firing -/

/-- A due slot does its own action, on the state in which it has fired (R486, R487). -/
theorem fire_due {s : State} {n a : Nat} (hd : s.trigDue (s.trig n) = true) (ha : (s.trig n).action = a) (f : Trig → State → State) :
    s.fire n a f = f (s.trig n) (Claims.fired s n) := by
  unfold State.fire Claims.fired
  simp only [hd, ha, bne_self_eq_false, Bool.not_true, Bool.or_self, Bool.false_eq_true, if_false, Bool.and_eq_true, decide_eq_true_eq,
    Bool.not_eq_true']
  split <;> rfl

/-- A slot that is not due does nothing. -/
theorem fire_not_due {s : State} {n : Nat} (hd : s.trigDue (s.trig n) = false) (a : Nat) (f : Trig → State → State) :
    s.fire n a f = s := by
  simp [State.fire, hd]

theorem trig_setTrig {s : State} {n : Nat} {t : Trig} (ht : t.en = true) : (s.setTrig n t).trig n = t := by
  refine FMap.get_set_of_ne _ _ ?_
  rintro rfl
  exact Bool.noConfusion ht

/-- An absolute slot is due from its target on (R485). -/
theorem trigDue_absolute (s : State) {t : Trig} (hm : t.mode = false) :
    s.trigDue t = true ↔ t.en = true ∧ t.time.toNat ≤ s.beacon := by
  simp [State.trigDue, hm]

/-- An idle microsecond does not move a quiet window whose target has been reached. -/
theorem quietIdle_of_reached {s : State} {n : Nat} (h : (s.trig n).time.toNat ≤ s.beacon) : s.quietIdle n = s := by
  have hn : decide (s.beacon < (s.trig n).time.toNat) = false := decide_eq_false (Nat.not_lt.2 h)
  simp only [State.quietIdle, hn, Bool.and_false, Bool.false_eq_true, if_false]

/-- One that waits for it has its target now (R490). -/
theorem quietIdle_of_waits {s : State} {n : Nat} (hen : (s.trig n).en = true) (ha : (s.trig n).action = 4) (hi : (s.trig n).idle = true)
    (h : s.beacon < (s.trig n).time.toNat) :
    s.quietIdle n = s.setTrig n { s.trig n with time := BitVec.ofNat 64 s.beacon } := by
  simp [State.quietIdle, hen, ha, hi, h]

/-! ### What firing leaves of a slot -/

theorem Trig.after_fired (t : Trig) (now : Nat) : (t.after now).fired = true := by
  unfold Trig.after
  simp only
  split
  · rfl
  · split
    · rfl
    · split <;> rfl

/-- A one-shot slot is disarmed (R486). -/
theorem Trig.after_oneShot {t : Trig} (hm : t.mode = false) (h : t.count = 1 ∨ t.period = 0) (now : Nat) : (t.after now).en = false := by
  by_cases hc : t.count = 1
  · simp [Trig.after, hc]
  · simp [Trig.after, hc, hm, h.resolve_left hc]

/-- A periodic one is armed for the first multiple of its period that is still to come, and counts those that have passed (R486). -/
theorem Trig.after_periodic {t : Trig} (hm : t.mode = false) (hc : t.count ≠ 1) (hp : 0 < t.period.toNat) (now : Nat) :
    t.after now = { t with
      fired := true, k := t.k + 1, due := none, count := t.count - 1
      time := BitVec.ofNat 64 (t.time.toNat + ((now - t.time.toNat) / t.period.toNat + 1) * t.period.toNat)
      missed := satAdd 32 t.missed ((now - t.time.toNat) / t.period.toNat) } := by
  have hne : ¬ t.period = 0#64 := by rintro h; simp [h] at hp
  simp [Trig.after, hc, hm, hne]

/-- That multiple lies within one period after now. -/
theorem nextMultiple_bounds {a now p : Nat} (hp : 0 < p) (h : a ≤ now) :
    now < a + ((now - a) / p + 1) * p ∧ a + ((now - a) / p + 1) * p ≤ now + p := by
  have hdiv := Nat.div_add_mod (now - a) p
  have hmod := Nat.mod_lt (now - a) hp
  rw [Nat.add_mul, Nat.mul_comm ((now - a) / p) p]
  omega

/-! ### Quiet windows -/

theorem closeQuiet_link {s : State} {u ch dl t : Nat} (hu : u < 36) (h : (s.fab.link u).quietAt = some t) :
    s.closeQuiet u ch dl = ({ s with fab := s.fab.setLink u { s.fab.link u with
      quietAt := none, quiet := (s.fab.link u).quiet + (s.beacon - t) } } : State).pumped := by
  simp [State.closeQuiet, hu, h]

theorem closeQuiet_channel {s : State} {u ch dl t : Nat} (hu : 0x40 ≤ u)
    (h : FMap.get none s.mgmt.pwr.quiet ((u - 0x40) * 256 + ch) = some t) :
    s.closeQuiet u ch dl = ((s.modPwr fun x => { x with
      quiet := FMap.set none x.quiet ((u - 0x40) * 256 + ch) none
      drift := FMap.set 0 x.drift ((u - 0x40) * 256 + ch) 0
      cals := FMap.modify 0 x.cals ((u - 0x40) * 256 + ch) (· + 1) }).modCtl (u - 0x40) fun x => { x with qwd := x.qwd + dl }) := by
  have hu' : ¬ u < 36 := by omega
  simp [State.closeQuiet, hu', h]

/-! ### The statement -/

theorem exec_quietOpen (n : BitVec 8) (idle : Bool) (s : State) :
    exec (.quietOpen { slot := n, idle := idle }) s = .next ((if idle then s.quietIdle n.toNat else s).fire n.toNat 4 fun t s =>
      s.openQuiet (t.arg.toNat % 256) (t.arg.toNat / 256 % 256)) := rfl

/-- A due QUIET trigger opens its window, whether or not its link or channel is idle (R485, R490). -/
theorem quietOpen_due {s : State} {n : BitVec 8} (hd : s.trigDue (s.trig n.toNat) = true) (ha : (s.trig n.toNat).action = 4)
    (hm : (s.trig n.toNat).mode = false) (idle : Bool) :
    exec (.quietOpen { slot := n, idle := idle }) s = .next ((Claims.fired s n.toNat).openQuiet
      ((s.trig n.toNat).arg.toNat % 256) ((s.trig n.toNat).arg.toNat / 256 % 256)) := by
  rw [exec_quietOpen, quietIdle_of_reached ((trigDue_absolute s hm).1 hd).2, ite_self, fire_due hd ha]

/-- One that is not due yet opens at the first idle microsecond, if it waits for one (R490). -/
theorem quietOpen_idle {s : State} {n : BitVec 8} (hen : (s.trig n.toNat).en = true) (ha : (s.trig n.toNat).action = 4)
    (hi : (s.trig n.toNat).idle = true) (hm : (s.trig n.toNat).mode = false) (h : s.beacon < (s.trig n.toNat).time.toNat) :
    exec (.quietOpen { slot := n, idle := true }) s
      = .next ((Claims.fired (s.setTrig n.toNat { s.trig n.toNat with time := BitVec.ofNat 64 s.beacon }) n.toNat).openQuiet
        ((s.trig n.toNat).arg.toNat % 256) ((s.trig n.toNat).arg.toNat / 256 % 256)) := by
  have ht : (BitVec.ofNat 64 s.beacon).toNat ≤ s.beacon := by
    rw [BitVec.toNat_ofNat]; exact Nat.mod_le _ _
  have hv := trig_setTrig (s := s) (n := n.toNat) (t := { s.trig n.toNat with time := BitVec.ofNat 64 s.beacon }) hen
  rw [exec_quietOpen, if_pos rfl, quietIdle_of_waits hen ha hi h, fire_due _ (by rw [hv]; exact ha), hv]
  rw [hv]
  exact (trigDue_absolute _ (by exact hm)).2 ⟨hen, ht⟩

/-- What a slot without step-relative mode is after it has fired (R486). -/
theorem Trig.after_absolute {t : Trig} {now : Nat} (hm : t.mode = false) (ht : t.time.toNat ≤ now) (hb : now + t.period.toNat < 2 ^ 64) :
    let x := t.after now
    x.fired = true ∧ (t.count = 1 ∨ t.period = 0 → x.en = false)
      ∧ (t.count ≠ 1 → 0 < t.period.toNat → x.en = t.en ∧ now < x.time.toNat ∧ x.time.toNat ≤ now + t.period.toNat
          ∧ (x.time.toNat - t.time.toNat) % t.period.toNat = 0
          ∧ x.missed = satAdd 32 t.missed ((x.time.toNat - t.time.toNat) / t.period.toNat - 1)) := by
  refine ⟨t.after_fired now, fun h => Trig.after_oneShot hm h now, fun hc hp => ?_⟩
  obtain ⟨hlo, hhi⟩ := nextMultiple_bounds hp ht
  have htime : (t.after now).time.toNat = t.time.toNat + ((now - t.time.toNat) / t.period.toNat + 1) * t.period.toNat := by
    rw [Trig.after_periodic hm hc hp, BitVec.toNat_ofNat]
    exact Nat.mod_eq_of_lt (by omega)
  rw [htime, Nat.add_sub_cancel_left, Nat.mul_mod_left, Nat.mul_div_cancel _ hp, Nat.add_sub_cancel]
  exact ⟨by rw [Trig.after_periodic hm hc hp], hlo, hhi, rfl, by rw [Trig.after_periodic hm hc hp]⟩

/-- Settles O48: a due slot's row is its action on the state in which it has fired, any other leaves the state, and what firing leaves of the
slot is computed from the number of periods that have passed. -/
theorem triggersFireWhenDue : Obligations.TriggersFireWhenDue := by
  refine ⟨fun s n => ⟨fun hd => ⟨fun ha => congrArg _ (fire_due hd ha _), fun ha => congrArg _ (fire_due hd ha _),
      fun idle ha hm => quietOpen_due hd ha hm idle, fun ha => congrArg _ (fire_due hd ha _), fun ha => ?_⟩,
      fun hd c hc => ?_, fun hen ha hi hm h => quietOpen_idle hen ha hi hm h⟩,
    fun t now hm ht hb => Trig.after_absolute hm ht hb,
    fun s u ch dl t hu h => congrArg _ (closeQuiet_link hu h),
    fun s u ch dl t hu h => congrArg _ (closeQuiet_channel hu h)⟩
  · rw [← BitVec.ofNat_mul]
    exact congrArg _ (fire_due hd ha _)
  · simp only [List.mem_cons, List.not_mem_nil, or_false] at hc
    rcases hc with rfl | rfl | rfl | rfl | rfl <;> exact congrArg _ (fire_not_due hd _ _)

end Sys2Proof.Machine
end

section
/-! The update engines: an update starts, parks, resumes and completes, and staged gradient drains (R36, R186, R191, R197, R198). -/

namespace Sys2Proof.Machine

/-! ### Numbers as bytes -/

theorem leNat_leBytes (n v : Nat) : leNat (leBytes n v) = v % 2 ^ (8 * n) := by
  induction n generalizing v with
  | zero => simp [leBytes, leNat, Nat.mod_one]
  | succ n ih =>
    have h : 2 ^ (8 * (n + 1)) = 256 * 2 ^ (8 * n) := by rw [Nat.mul_add, Nat.pow_add, Nat.mul_comm]
    rw [leBytes, leNat, ih, BitVec.toNat_ofNat, h, Nat.mod_mul]

/-- A 64-bit value reads back from its eight bytes. -/
theorem ofNat_leNat_leBytes (t : DWord) : BitVec.ofNat 64 (leNat (leBytes 8 t.toNat)) = t := by
  rw [leNat_leBytes, Nat.mod_eq_of_lt t.isLt, BitVec.ofNat_toNat, BitVec.setWidth_eq]

/-! ### Running an update -/

/-- An update whose gradient and total are its own in memory runs its rule on them (R197). -/
theorem runUpd_own {s : State} {u : Upd} {t : DWord} {g : List Word} {o : UpdOut} (hsrc : u.gsrc = false)
    (hg : Claims.ownGradient s u t g) (ho : Claims.ruleRuns s u t g o) : s.runUpd u = Claims.writtenUpd o u.num t := by
  obtain ⟨htok, hbad, rfl⟩ := hg
  obtain ⟨hany, rfl, hflt⟩ := ho
  simp [State.runUpd, hany, hsrc, htok, hbad, ofNat_leNat_leBytes, hflt, Claims.writtenUpd]

/-- A fused one runs it on the gradient that has arrived (R197, R318). -/
theorem runUpd_fused {s : State} {u : Upd} {t : DWord} {o : UpdOut} (hsrc : u.gsrc = true) (htok : u.tok = some t)
    (ho : Claims.ruleRuns s u t u.grad o) : s.runUpd u = Claims.writtenUpd o u.num t := by
  obtain ⟨hany, rfl, hflt⟩ := ho
  simp [State.runUpd, hany, hsrc, htok, hflt, Claims.writtenUpd]

/-! ### Starting one -/

theorem startUpd_swapped {s : State} {u : Upd} (h : s.updSwapped u = true) : s.startUpd u = s.park u := by
  simp [State.startUpd, h]

theorem startUpd_own {s : State} {u : Upd} (h : s.updSwapped u = false) (hsrc : u.gsrc = false) : s.startUpd u = s.runUpd u := by
  simp [State.startUpd, h, hsrc]

/-- A fused update takes what has arrived from the FIFO, and runs when its whole gradient and its total are there. -/
theorem startUpd_fused {s : State} {u : Upd} (h : s.updSwapped u = false) (hsrc : u.gsrc = true) :
    s.startUpd u = if u.tok.isSome = true ∧ u.nelem ≤ u.grad.length
      then (s.modUpd u.num fun v => { v with fifo := 0, fifoSp := 0, stage := 0 }).runUpd u
      else (s.modUpd u.num fun v => { v with fifo := 0, fifoSp := 0, stage := 0 }).collRun u.dom u.comm := by
  simp [State.startUpd, h, hsrc]

theorem exec_updateStart {s : State} {n : BitVec 1} {d : BitVec 8} {u : Upd} (h : s.headUpd n.toNat d.toNat = some u) :
    exec (.updateStart n d) s = .next (if u.after = 0 then s.startUpd u else s) := by
  have e : exec (.updateStart n d) s = execUpdateStart n d s := rfl
  rw [e, execUpdateStart, h]

theorem exec_parkedUpdateResume {s : State} {n : BitVec 1} {d : BitVec 8} {u : Upd}
    (h : ((s.updsOn n.toNat).find? fun v => v.dom == d.toNat && v.phase == .parked) = some u) :
    exec (.parkedUpdateResume n d) s
      = .next (if s.updSwapped u then s else (s.modUpd u.num fun v => { v with phase := .queued }).startUpd u) := by
  have e : exec (.parkedUpdateResume n d) s = execParkedUpdateResume n d s := rfl
  rw [e, execParkedUpdateResume, h]

/-- Whether a Lantern is swapped out does not depend on the updates (R186). -/
theorem updSwapped_modUpd (s : State) (n : Nat) (f : Upd → Upd) (u : Upd) : (s.modUpd n f).updSwapped u = s.updSwapped u := rfl

/-- R186, R197: starting, parking and resuming. -/
theorem updatesRun : Claims.updatesRun := by
  constructor
  · intro s n d u h
    rw [exec_updateStart h]
    refine ⟨fun ha => by rw [if_neg ha], fun t g o ha hs hsrc hg ho => ?_, fun t o ha hs hsrc htok hlen ho => ?_,
      fun ha hs hsrc hwait => ?_, fun ha hs => ?_⟩
    · rw [if_pos ha, startUpd_own hs hsrc, runUpd_own hsrc hg ho]
    · rw [if_pos ha, startUpd_fused hs hsrc, if_pos ⟨by rw [htok]; rfl, hlen⟩, runUpd_fused hsrc htok ho]
    · rw [if_pos ha, startUpd_fused hs hsrc, if_neg]
      rintro ⟨htok, hlen⟩
      rcases hwait with hnone | hshort
      · rw [hnone] at htok; exact Bool.noConfusion htok
      · omega
    · rw [if_pos ha, startUpd_swapped hs]
      rfl
  · intro s n d u h
    rw [exec_parkedUpdateResume h]
    refine ⟨fun t g o hs hsrc hg ho => ?_, fun hs => by rw [if_pos hs]⟩
    rw [hs, if_neg Bool.false_ne_true, startUpd_own (by rw [updSwapped_modUpd, hs]) hsrc, runUpd_own hsrc hg ho]

/-! ### Writes in a domain's memory -/

/-- Nothing but the memory tiers differs. -/
def State.memAlone (s t : State) : Prop := t = { s with mem := t.mem }

theorem State.memAlone_trans {s t u : State} (h : s.memAlone t) (g : t.memAlone u) : s.memAlone u := by
  unfold State.memAlone at *
  rw [g, h]

theorem State.memAlone_eng {s t : State} (h : s.memAlone t) : t.eng = s.eng := by
  unfold State.memAlone at h
  rw [h]

theorem State.foldl_memAlone {α : Type} {f : State → α → State} (hf : ∀ (t : State) x, t.memAlone (f t x)) (l : List α) (s : State) :
    s.memAlone (l.foldl f s) := by
  induction l generalizing s with
  | nil => rfl
  | cons x l ih => exact State.memAlone_trans (hf s x) (ih _)

theorem State.touchDpa_memAlone (s : State) (d dpa n : Nat) : s.memAlone (s.touchDpa d dpa n) := by
  unfold State.touchDpa
  split
  · rfl
  · refine State.foldl_memAlone (fun t a => ?_) _ s
    rfl

theorem State.memAlone_setMem (s : State) (m : MemSt) : s.memAlone { s with mem := m } := rfl

theorem State.mendLine_memAlone (s : State) (line : Nat) : s.memAlone (s.mendLine line) := rfl

theorem State.wrNow_memAlone (s : State) (d dpa : Nat) (bs : List Byte) : s.memAlone (s.wrNow d dpa bs) := by
  unfold State.wrNow
  exact State.memAlone_trans (State.memAlone_trans (State.foldl_memAlone State.mendLine_memAlone _ s) (State.memAlone_setMem _ _))
    (State.touchDpa_memAlone _ d dpa bs.length)

theorem State.wrDpa_memAlone (s : State) (d dpa : Nat) (bs : List Byte) : s.memAlone (s.wrDpa d dpa bs) := by
  unfold State.wrDpa
  split
  · rfl
  · exact s.wrNow_memAlone d dpa bs

theorem State.wrDom_memAlone (s : State) (d off : Nat) (bs : List Byte) : s.memAlone (s.wrDom d off bs) := by
  refine State.foldl_memAlone (fun t p => ?_) _ s
  split
  · exact t.wrDpa_memAlone d _ _
  · rfl

theorem State.engWrite_eng {s t : State} {d : Nat} {adr : DWord} {bs : List Byte} (h : s.engWrite d adr bs = .ok t) :
    t.eng = s.eng := by
  unfold State.engWrite at h
  split at h
  · cases h
  · obtain rfl := Except.ok.inj h
    exact State.memAlone_eng (s.wrDom_memAlone d _ _)

/-! ### Completing an update -/

/-- An engine that has been changed reads back as changed, where the engines are in canonical form. -/
theorem updEng_modUpdEng {s : State} (h : FMap.wf {} s.eng.upd = true) (n : Nat) (f : UpdEng → UpdEng) :
    (s.modUpdEng n f).updEng n = f (s.updEng n) := FMap.get_set_self h n _

theorem UpdEng.unreserve_done (x : UpdEng) (d : Nat) : (x.unreserve d).done = x.done := by
  unfold UpdEng.unreserve
  simp only
  split
  · split <;> rfl
  · rfl

/-- Settling a reservation changes reservations alone (R211). -/
theorem settleResv_keeps {s : State} (h : FMap.wf {} s.eng.upd = true) (e d : Nat) :
    (s.settleResv e d).eng.upds = s.eng.upds ∧ FMap.wf {} (s.settleResv e d).eng.upd = true
      ∧ ((s.settleResv e d).updEng e).done = (s.updEng e).done := by
  unfold State.settleResv
  split
  · exact ⟨rfl, h, rfl⟩
  · exact ⟨rfl, FMap.wf_modify h e fun x => x.unreserve d, by rw [updEng_modUpdEng h, UpdEng.unreserve_done]⟩

/-- What an update leaves once its record is written: it is gone, its reservation is settled, its engine has counted it (R198, R211). -/
def State.dropUpd (s : State) (u : Upd) : State :=
  (({ s with eng := { s.eng with upds := s.eng.upds.filter fun v => v.num != u.num } } : State).settleResv u.engine u.dom).modUpdEng
    u.engine fun x => { x with done := x.done + 1 }

theorem dropUpd_counts {s : State} (h : FMap.wf {} s.eng.upd = true) (u : Upd) :
    (s.dropUpd u).eng.upds = s.eng.upds.filter (fun v => v.num != u.num)
      ∧ ((s.dropUpd u).updEng u.engine).done = (s.updEng u.engine).done + 1 := by
  obtain ⟨hupds, hwf, hdone⟩ := settleResv_keeps
    (s := { s with eng := { s.eng with upds := s.eng.upds.filter fun v => v.num != u.num } }) h u.engine u.dom
  exact ⟨hupds, by rw [State.dropUpd, updEng_modUpdEng hwf, hdone]; rfl⟩

/-- The writes of ZEROG, as UPDATE_COMPLETE makes them (R191). -/
def State.zeroesGradient (s : State) (u : Upd) (z : State) : Prop :=
  if u.zerog then ∃ y, s.engWrite u.dom u.gradA (List.replicate (4 * u.nelem) 0) = .ok y ∧ y.engWrite u.dom u.tokA (leBytes 8 0) = .ok z
  else z = s

theorem zeroesGradient_eng {s z : State} {u : Upd} (h : s.zeroesGradient u z) : z.eng = s.eng := by
  unfold State.zeroesGradient at h
  split at h
  · obtain ⟨y, hy, hz⟩ := h
    rw [State.engWrite_eng hz, State.engWrite_eng hy]
  · rw [h]

/-- With its writes possible, an update completes with its record and then its fence (R191, R198). -/
theorem finishUpd_eq {s z t : State} {u : Upd} (hz : s.zeroesGradient u z) (ht : z.engWrite u.dom u.recA (z.updRecord u) = .ok t) :
    s.finishUpd u = (t.dropUpd u).signalFence u.dom u.ctx u.fence u.pc (leBytes 8 u.num) := by
  unfold State.zeroesGradient at hz
  unfold State.finishUpd
  split at hz
  · next hg =>
    obtain ⟨y, hy, hz⟩ := hz
    simp only [hg, if_true, hy, hz, ht]
    rfl
  · next hg =>
    subst hz
    simp only [Bool.not_eq_true] at hg
    simp only [hg, Bool.false_eq_true, if_false, ht]
    rfl

theorem exec_updateComplete {s : State} {d : BitVec 8} {c : BitVec 16} {u : Upd}
    (h : (s.eng.upds.find? fun v => v.dom == d.toNat && v.ctx == c.toNat) = some u) :
    exec (.updateComplete d c) s = .next
      (if u.phase == .written && s.fusedDone u && !(u.gsrc && s.fusedBefore u.dom u.comm u.seq) then (s.finishUpd u).lateSwap else s) := by
  have e : exec (.updateComplete d c) s = execUpdateComplete d c s := rfl
  rw [e, execUpdateComplete, h]

/-- R191, R198: completing. -/
theorem updatesComplete : Claims.updatesComplete := by
  intro s d c u h
  rw [exec_updateComplete h]
  refine ⟨fun z t hw hf hb hz ht hwf => ?_, fun hw => ?_⟩
  · have heng : t.eng = s.eng := (State.engWrite_eng ht).trans (zeroesGradient_eng hz)
    obtain ⟨hupds, hdone⟩ := dropUpd_counts (s := t) (by rw [heng]; exact hwf) u
    refine ⟨?_, by rw [← heng]; exact hupds, hdone.trans (by rw [State.updEng, State.updEng, heng])⟩
    rw [if_pos (by rw [hw, hf, hb]; rfl), finishUpd_eq hz ht]
    rfl
  · rw [if_neg]
    simp [hw]

/-! ### Draining staging -/

theorem upd?_single {s : State} {v : Upd} (hs : s.eng.upds = [v]) : s.upd? v.num = some v := by
  simp [State.upd?, hs]

theorem updsOn_single {s : State} {v : Upd} (hs : s.eng.upds = [v]) : s.updsOn v.engine = [v] := by
  simp [State.updsOn, hs]

theorem modUpd_single {s : State} {v : Upd} (hs : s.eng.upds = [v]) (f : Upd → Upd) :
    s.modUpd v.num f = { s with eng := { s.eng with upds := [f v] } } := by
  simp [State.modUpd, hs]

theorem fusedComms_single {s : State} {v : Upd} (hs : s.eng.upds = [v]) :
    (s.fusedComms v.engine).eraseDups = if v.gsrc then [(v.dom, v.comm)] else [] := by
  rw [State.fusedComms, updsOn_single hs]
  cases h : v.gsrc with
  | true => simp only [List.filter_cons, h, if_true, List.filter_nil]; rfl
  | false => simp only [List.filter_cons, h, Bool.false_eq_true, if_false, List.filter_nil]; rfl

/-- With nothing staged no data moves. -/
theorem unspill_empty {s : State} {num : Nat} {u : Upd} (hu : s.upd? num = some u) (h0 : u.stage = 0) (fuel : Nat) :
    State.unspill fuel s num = s := by
  cases fuel with
  | zero => rfl
  | succ fuel => simp [State.unspill, hu, h0]

/-- An update whose staged data has moved into the FIFO. -/
def Upd.drained (v : Upd) : Upd := { v with fifo := v.fifo + v.stage, fifoSp := v.fifoSp + v.stage, stage := 0 }

/-- The state in which it is the only update. -/
def State.drained (s : State) (v : Upd) : State := { s with eng := { s.eng with upds := [v.drained] } }

/-- Staged data of at most a chunk moves at once, and then none is left (R36). -/
theorem unspill_chunk {s : State} {v : Upd} (hs : s.eng.upds = [v]) (hp : v.phase ≠ .parked) (h0 : 0 < v.stage) (h1 : v.stage ≤ 4096)
    (hfit : s.fifoFits v.engine v v.stage = true) (fuel : Nat) : State.unspill (fuel + 1) s v.num = s.drained v := by
  have hmin : min 4096 v.stage = v.stage := Nat.min_eq_right h1
  have hempty := unspill_empty (s := s.drained v) (upd?_single (v := v.drained) rfl) rfl fuel
  have hmoved : (s.modUpd v.num fun u => { u with fifo := u.fifo + v.stage, fifoSp := u.fifoSp + v.stage, stage := u.stage - v.stage })
      = s.drained v := by
    rw [modUpd_single hs, Nat.sub_self]; rfl
  have hgo : ¬(decide (v.stage = 0) || v.phase == .parked) = true := by
    simp [hp]; omega
  rw [State.unspill, upd?_single hs]
  simp only [hmin, if_neg hgo, hfit, if_true, hmoved]
  exact hempty

/-- A communicator that is not there has nothing to do. -/
theorem collRun_none {s : State} {d id : Nat} (h : s.comm? d id = none) : s.collRun d id = s := by
  simp [State.collRun, h]

/-- R36: staged data enters the FIFO where there is room. -/
theorem stagingDrains : Claims.stagingDrains := by
  intro s n v hs he hp h0 h1 hfit hcomm
  have hdrain : s.drainSpill v.engine = s.drained v := by
    simp only [State.drainSpill, updsOn_single hs, List.foldl_cons, List.foldl_nil]
    exact unspill_chunk hs hp h0 h1 hfit _
  have hrun : (s.drained v).collRun v.dom v.comm = s.drained v := collRun_none hcomm
  have hcomms : ((s.drained v).fusedComms v.engine).eraseDups = if v.gsrc then [(v.dom, v.comm)] else [] :=
    fusedComms_single (s := s.drained v) (v := v.drained) rfl
  have e : exec (.spillDrain n) s = execSpillDrain n s := rfl
  rw [e, execSpillDrain, ← he, hdrain, hcomms]
  refine congrArg _ ?_
  split
  · exact hrun
  · rfl

/-- Settles O21: each row is the engine's operation on the update that it names, and a completed update's writes touch memory alone. -/
theorem updatesRunAndComplete : Obligations.UpdatesRunAndComplete := ⟨updatesRun, updatesComplete, stagingDrains⟩

end Sys2Proof.Machine
end

section
/-! The V slot alone in its bundle: what its rows compute and write, for compares, selects, permutes, reductions, predicate logic,
conversion and random bits (R55, R56, R64, R67, R117, R131, R160 to R162). -/

namespace Sys2Proof.Machine

open Sys2Proof Sys2Proof.Claims

/-! ### A bundle whose V slot alone holds an instruction -/

/-- The command `r` issues a bundle whose V slot holds opcode `op`, and `f` is what that slot does. -/
structure IsVRow (r : Row) (op : Nat) (f : Wick → DWord → SlotR) : Prop where
  wf_eq : ∀ w b, (r w b).wf = slotIs b.v op
  exec_eq : ∀ w b s, exec (r w b) s = .next (s.issue w (b.opV op))
  slot_eq : ∀ k x, opOf x = op → slotV k x = f k x

/-- A V slot with one register act does that act on the registers before the bundle, and the Wick goes on (R79). -/
theorem issueRead_onlyV {s : State} {w : WickRef} {b : Bundle} {a : Act} (h : Issues s w b) (hb : onlyV b)
    (ha : (slotV (wickOf s w) b.v).acts = [a]) (hreg : a.isReg = true) (htok : a.isTok = false) :
    s.issueRead w b = advance s w ((wickOf s w).regAct a) := by
  obtain ⟨hm, hx, hc⟩ := hb
  have hacts : s.slotActs w b = [a] := (slotActs_V hm hx).trans ha
  rw [issue_noC h hc (by simp [hacts, hreg, htok]), hacts]
  rfl

/-- A row of the V slot alone in a bundle that goes: its one act, on the registers with the bundle's lines read. -/
theorem exec_onlyV {r : Row} {op : Nat} {f : Wick → DWord → SlotR} (hr : IsVRow r op f) {s : State} {w : WickRef} {b : Bundle}
    (hb : onlyV b) (hg : s.goes w b) (hwf : (r w b).wf = true) {a : Act} (ha : (f (wickOf (s.readFor w b) w) b.v).acts = [a])
    (hreg : a.isReg = true) (htok : a.isTok = false) :
    exec (r w b) s = .next (advance (s.readFor w b) w ((wickOf (s.readFor w b) w).regAct a)) := by
  have hop : slotIs b.v op = true := hr.wf_eq w b ▸ hwf
  have hslot := hr.slot_eq (wickOf (s.readFor w b) w) b.v (opOf_eq hop)
  rw [hr.exec_eq, opV_self hop, issue_goes hg, issueRead_onlyV hg.2 hb (hslot ▸ ha) hreg htok]

/-- A row that writes a vector register writes that register alone. -/
theorem exec_onlyV_setV {r : Row} {op : Nat} {f : Wick → DWord → SlotR} (hr : IsVRow r op f) {s : State} {w : WickRef} {b : Bundle}
    (hb : onlyV b) (hg : s.goes w b) (hwf : (r w b).wf = true) {n : Nat} {v : List Word}
    (ha : (f (wickOf (s.readFor w b) w) b.v).acts = [.v n v]) :
    exec (r w b) s = .next (advance (s.readFor w b) w ((wickOf (s.readFor w b) w).setV n v)) :=
  exec_onlyV (a := .v n v) hr hb hg hwf ha rfl rfl

/-- A row that writes a predicate register writes that register alone. -/
theorem exec_onlyV_setP {r : Row} {op : Nat} {f : Wick → DWord → SlotR} (hr : IsVRow r op f) {s : State} {w : WickRef} {b : Bundle}
    (hb : onlyV b) (hg : s.goes w b) (hwf : (r w b).wf = true) {n : Nat} {v : BitVec 256}
    (ha : (f (wickOf (s.readFor w b) w) b.v).acts = [.p n v]) :
    exec (r w b) s = .next (advance (s.readFor w b) w ((wickOf (s.readFor w b) w).setP n v)) :=
  exec_onlyV (a := .p n v) hr hb hg hwf ha rfl rfl

/-! ### What the slot writes, in the terms of the statements -/

theorem active_eq_laneOn (k : Wick) (x : DWord) (i : Nat) : active k x i = laneOn k x i := by
  simp [active, laneOn, tb_eq]

theorem srcB_eq_laneB (k : Wick) (x : DWord) (i : Nat) : srcB k x i = laneB k x i := by
  simp [srcB, laneB, tb_eq]

theorem vA_eq_laneA (k : Wick) (x : DWord) (i : Nat) : vA k x i = laneA k x i := rfl

/-- R117: what a lane instruction does to its Wick. -/
theorem vLanes_eq (k : Wick) (x : DWord) (f : Nat → Word) :
    vLanes k x f = [.v (fld x 8 5) (mkVec fun i => if laneOn k x i then f i else lane (k.rv (fld x 8 5)) i)] := by
  simp [vLanes, active_eq_laneOn]

/-- R67: a compare writes the active bits of PD. -/
theorem vCmp_acts (k : Wick) (x : DWord) (f : Word → Word → Bool) :
    (vCmp k x f).acts = [.p (fld x 8 3)
      (mkPred fun i => if laneOn k x i then f (laneA k x i) (laneB k x i) else (k.rp (fld x 8 3)).getLsbD i)] := by
  simp only [vCmp, active_eq_laneOn, srcB_eq_laneB, vA_eq_laneA]

/-- R64: a reduction writes one value to all lanes. -/
theorem vRed_acts (k : Wick) (x : DWord) (f : Word → Word → Word) (e : Word) :
    (vRed k x f e).acts = [.v (fld x 8 5)
      (List.replicate 256 (pairTree f 8 (mkVec fun i => if laneOn k x i then laneA k x i else e)))] := by
  simp only [vRed, active_eq_laneOn, vA_eq_laneA]

/-- R160: a conversion between two formats that there are writes the converted lanes. -/
theorem vCvt_acts {k : Wick} {x : DWord} {fs fd : Fmt} (hs : Fmt.ofCode (fld x 34 4) = some fs) (hd : Fmt.ofCode (fld x 38 4) = some fd) :
    (vCvt k x).acts = vLanes k x fun i => lane (vcvt k x fs fd (k.rv (fld x 13 5))) i := by
  simp only [vCvt, fmtOf, hs, hd]

/-- R131: VSEL writes every lane. -/
theorem vSel_acts (k : Wick) (x : DWord) :
    (vSel k x).acts = [.v (fld x 8 5) (mkVec fun i => if laneOn k x i then laneA k x i else laneB k x i)] := by
  simp only [vSel, active_eq_laneOn, srcB_eq_laneB, vA_eq_laneA]

theorem vPerm_acts (k : Wick) (x : DWord) :
    (vPerm k x).acts = vLanes k x fun i => lane (k.rv (fld x 13 5)) ((laneB k x i).toNat % 256) := by
  simp only [vPerm, srcB_eq_laneB]

section
variable {r : Row} {op : Nat} {s : State} {w : WickRef} {b : Bundle}

/-! ### The kinds of rows -/

/-- R117: a row whose acts are those of a lane instruction writes the active lanes of VD. -/
theorem exec_laneWise {f : Wick → DWord → SlotR} {g : Nat → Word} (hr : IsVRow r op f)
    (hf : (f (wickOf (s.readFor w b) w) b.v).acts = vLanes (wickOf (s.readFor w b) w) b.v g)
    (hb : onlyV b) (hg : s.goes w b) (hwf : (r w b).wf = true) :
    exec (r w b) s = .next (advance (s.readFor w b) w (laneWise (wickOf (s.readFor w b) w) b.v g)) :=
  exec_onlyV_setV hr hb hg hwf (hf.trans (vLanes_eq _ _ _))

/-- R67, R117: a compare writes the active bits of PD. -/
theorem exec_compare {f : Word → Word → Bool} (hr : IsVRow r op fun k x => vCmp k x f)
    (hb : onlyV b) (hg : s.goes w b) (hwf : (r w b).wf = true) :
    let u := s.readFor w b
    let k := wickOf u w
    let x := b.v
    exec (r w b) s = .next (advance u w (k.setP (fld x 8 3)
      (mkPred fun i => if laneOn k x i then f (laneA k x i) (laneB k x i) else (k.rp (fld x 8 3)).getLsbD i))) :=
  exec_onlyV_setP hr hb hg hwf (vCmp_acts _ _ f)

/-- R64: a reduction puts the tree's value into every lane; an inactive lane counts as the unit. -/
theorem exec_reduction {f : Word → Word → Word} {e : Word} (hr : IsVRow r op fun k x => vRed k x f e)
    (hb : onlyV b) (hg : s.goes w b) (hwf : (r w b).wf = true) :
    let u := s.readFor w b
    let k := wickOf u w
    let x := b.v
    exec (r w b) s = .next (advance u w (k.setV (fld x 8 5)
      (List.replicate 256 (pairTree f 8 (mkVec fun i => if laneOn k x i then laneA k x i else e))))) :=
  exec_onlyV_setV hr hb hg hwf (vRed_acts _ _ f e)

/-- R162: predicate logic on all 256 bits. -/
theorem exec_predLogic {f : BitVec 256 → BitVec 256 → BitVec 256}
    (hr : IsVRow r op fun k x => { acts := [.p (fld x 8 3) (f (k.rp (fld x 13 3)) (k.rp (fld x 18 3)))] })
    (hb : onlyV b) (hg : s.goes w b) (hwf : (r w b).wf = true) :
    let u := s.readFor w b
    let k := wickOf u w
    exec (r w b) s = .next (advance u w (k.setP (fld b.v 8 3) (f (k.rp (fld b.v 13 3)) (k.rp (fld b.v 18 3))))) :=
  exec_onlyV_setP hr hb hg hwf rfl

end

/-! ### The rows of the table -/

theorem isVRow_vcmpeq : IsVRow .vcmpeq 0x50 fun k x => vCmp k x fcmpEq :=
  ⟨fun _ _ => rfl, fun _ _ _ => rfl, fun _ _ h => by simp only [slotV, h, vCmpEq]⟩
theorem isVRow_vcmpne : IsVRow .vcmpne 0x51 fun k x => vCmp k x fcmpNe :=
  ⟨fun _ _ => rfl, fun _ _ _ => rfl, fun _ _ h => by simp only [slotV, h, vCmpNe]⟩
theorem isVRow_vcmplt : IsVRow .vcmplt 0x52 fun k x => vCmp k x fcmpLt :=
  ⟨fun _ _ => rfl, fun _ _ _ => rfl, fun _ _ h => by simp only [slotV, h, vCmpLt]⟩
theorem isVRow_vcmple : IsVRow .vcmple 0x53 fun k x => vCmp k x fcmpLe :=
  ⟨fun _ _ => rfl, fun _ _ _ => rfl, fun _ _ h => by simp only [slotV, h, vCmpLe]⟩
theorem isVRow_vsel : IsVRow .vsel 0x55 vSel := ⟨fun _ _ => rfl, fun _ _ _ => rfl, fun _ _ h => by simp only [slotV, h]⟩
theorem isVRow_vcvt : IsVRow .vcvt 0x58 vCvt := ⟨fun _ _ => rfl, fun _ _ _ => rfl, fun _ _ h => by simp only [slotV, h]⟩
theorem isVRow_vrand : IsVRow .vrand 0x59 vRand := ⟨fun _ _ => rfl, fun _ _ _ => rfl, fun _ _ h => by simp only [slotV, h]⟩
theorem isVRow_vredsum : IsVRow .vredsum 0x60 fun k x => vRed k x (fadd .rne) 0 :=
  ⟨fun _ _ => rfl, fun _ _ _ => rfl, fun _ _ h => by simp only [slotV, h, vRedSum]⟩
theorem isVRow_vredmax : IsVRow .vredmax 0x61 fun k x => vRed k x fmax ninf32 :=
  ⟨fun _ _ => rfl, fun _ _ _ => rfl, fun _ _ h => by simp only [slotV, h, vRedMax]⟩
theorem isVRow_vredmin : IsVRow .vredmin 0x62 fun k x => vRed k x fmin pinf32 :=
  ⟨fun _ _ => rfl, fun _ _ _ => rfl, fun _ _ h => by simp only [slotV, h, vRedMin]⟩
theorem isVRow_vperm : IsVRow .vperm 0x71 vPerm := ⟨fun _ _ => rfl, fun _ _ _ => rfl, fun _ _ h => by simp only [slotV, h]⟩
theorem isVRow_pand : IsVRow .pand 0x74 pAnd := ⟨fun _ _ => rfl, fun _ _ _ => rfl, fun _ _ h => by simp only [slotV, h]⟩
theorem isVRow_por : IsVRow .por 0x75 pOr := ⟨fun _ _ => rfl, fun _ _ _ => rfl, fun _ _ h => by simp only [slotV, h]⟩
theorem isVRow_pxor : IsVRow .pxor 0x76 pXor := ⟨fun _ _ => rfl, fun _ _ _ => rfl, fun _ _ h => by simp only [slotV, h]⟩
theorem isVRow_pnot : IsVRow .pnot 0x77 pNot := ⟨fun _ _ => rfl, fun _ _ _ => rfl, fun _ _ h => by simp only [slotV, h]⟩

/-! ### The statements -/

theorem compares : Claims.compares := by
  intro s w b hb hg
  refine ⟨?compare, ?reduce, ?pred, ?vsel, ?vperm⟩
  case compare =>
    simp only [compareRows, List.forall_mem_cons]
    exact ⟨exec_compare isVRow_vcmpeq hb hg, exec_compare isVRow_vcmpne hb hg, exec_compare isVRow_vcmplt hb hg,
      exec_compare isVRow_vcmple hb hg, List.forall_mem_nil _⟩
  case reduce =>
    simp only [reduceRows, List.forall_mem_cons]
    exact ⟨exec_reduction isVRow_vredsum hb hg, exec_reduction isVRow_vredmax hb hg, exec_reduction isVRow_vredmin hb hg,
      List.forall_mem_nil _⟩
  case pred =>
    simp only [predRows, List.forall_mem_cons]
    exact ⟨exec_predLogic isVRow_pand hb hg, exec_predLogic isVRow_por hb hg, exec_predLogic isVRow_pxor hb hg,
      exec_predLogic (f := fun a _ => ~~~a) isVRow_pnot hb hg, List.forall_mem_nil _⟩
  case vsel => exact fun hwf => exec_onlyV_setV isVRow_vsel hb hg hwf (vSel_acts _ _)
  case vperm => exact exec_laneWise isVRow_vperm (vPerm_acts _ _) hb hg

theorem conversions : Claims.conversions := by
  intro s w b hb hg
  refine ⟨?vcvt, ?vrand⟩
  case vcvt => exact fun fs fd hwf hs hd => exec_laneWise isVRow_vcvt (vCvt_acts hs hd) hb hg hwf
  case vrand => exact exec_laneWise isVRow_vrand rfl hb hg

/-- Settles O3: each row of the V slot is one act on the Wick's registers, with the operands of R117 and R128. -/
theorem comparesConversionsAndReductions : Obligations.ComparesConversionsAndReductions := ⟨compares, conversions⟩

end Sys2Proof.Machine
end

section
/-! Lane arithmetic alone in its bundle (R117, R158, R162). -/

namespace Sys2Proof.Machine

open Sys2Proof Sys2Proof.Claims

/-- The row is an instruction of the V slot whose one effect is a lane result written to the active lanes of VD: `row.2` of the rounding
mode and the three sources (R117, R128). -/
def IsLaneRow (row : Row × (Rnd → Word → Word → Word → Word)) : Prop :=
  ∃ op f, IsVRow row.1 op f
    ∧ ∀ k x, (f k x).acts = vLanes k x fun i => row.2 (rndOf x) (vA k x i) (srcB k x i) (laneC k x i)

/-- The opcode and the meaning of each row of lane arithmetic. -/
theorem laneRows_isLaneRow : ∀ row ∈ laneRows, IsLaneRow row := by
  simp only [laneRows, List.forall_mem_cons]
  refine ⟨⟨0x40, vAdd, ?_⟩, ⟨0x41, vSub, ?_⟩, ⟨0x42, vMul, ?_⟩, ⟨0x43, vFma, ?_⟩, ⟨0x44, vDiv, ?_⟩, ⟨0x45, vSqrt, ?_⟩,
    ⟨0x46, vMax, ?_⟩, ⟨0x47, vMin, ?_⟩, ⟨0x48, vNeg, ?_⟩, ⟨0x49, vAbs, ?_⟩, ⟨0x4A, vSign, ?_⟩, ⟨0x4B, vExp2, ?_⟩, ⟨0x4C, vLog2, ?_⟩,
    ⟨0x54, vClass, ?_⟩, ⟨0x68, vIadd, ?_⟩, ⟨0x69, vIsub, ?_⟩, ⟨0x6A, vImul, ?_⟩, ⟨0x6B, vAnd, ?_⟩, ⟨0x6C, vOr, ?_⟩,
    ⟨0x6D, vXor, ?_⟩, ⟨0x6E, vShl, ?_⟩, ⟨0x6F, vShr, ?_⟩, ⟨0x70, vSra, ?_⟩, List.forall_mem_nil _⟩
  all_goals exact ⟨⟨fun _ _ => rfl, fun _ _ _ => rfl, fun _ _ h => by simp only [slotV, h]⟩, fun _ _ => rfl⟩

/-- Settles O2: each row is a lane instruction, whose only act is the write of VD's active lanes. -/
theorem laneArithmeticWritesActiveLanes : Obligations.LaneArithmeticWritesActiveLanes := by
  intro row hrow s w b hwf hb hg
  obtain ⟨op, f, hr, hacts⟩ := laneRows_isLaneRow row hrow
  simp only [srcB_eq_laneB, vA_eq_laneA] at hacts
  exact exec_laneWise hr (hacts _ _) hb hg hwf

end Sys2Proof.Machine
end

section
/-! The X slot and the M slot alone in their bundle: what such a bundle does, and the rows that move registers and tiles (R113, R143, R153,
R167). -/

namespace Sys2Proof.Machine

open Sys2Proof Sys2Proof.Claims

/-! ### A bundle that meets no fault, wait or re-key -/

theorem cHeld_plainC {w : DWord} (h : plainC w = true) (s : State) (i : Iss) : s.cHeld i w = false := by
  unfold State.cHeld; split <;> simp_all [plainC]

theorem doC_plainC {w : DWord} (h : plainC w = true) (s : State) (i : Iss) : s.doC i w = s := by
  unfold State.doC; split <;> simp_all [plainC]

/-- Its acts are performed on the registers before it, its Wick goes on, and then its tokens are sent (R79, R172). -/
theorem issueRead_plainC {s : State} {w : WickRef} {b : Bundle} (h : Issues s w b) (hc : plainC b.c = true)
    (hh : s.heldStore w.d (s.slotActs w b) = none) :
    s.issueRead w b = (actToks (s.slotActs w b)).foldl (fun t x => t.dispatchTok w x)
      ((s.acts w.d w.c w.key (s.slotActs w b ++ cActs (wickOf s w) b.c)).setRun (s.iss w) (cNext (wickOf s w) b.c) .running) := by
  obtain ⟨hrun, hfetch, hlegal, ⟨stall1, stall2, stall3, stall4⟩, flts1, flts2, flts3, flts4⟩ := h
  have hwait : opOf b.c ≠ 0xE1 := by intro h; simp [plainC, h] at hc
  simp only [State.slotActs, State.iss, List.append_assoc] at hh flts3 flts4 stall3
  simp [State.issueRead, State.perform, hrun, hfetch, hlegal, hwait, stall1, stall2, stall3, stall4, flts1, flts2, flts3, flts4,
    fltIf, hh, cHeld_plainC hc, doC_plainC hc, waitActs, State.slotActs, State.iss, wickOf]

/-! ### The slots alone -/

/-- The command `r` issues a bundle whose X slot holds opcode `op`, and `f` is what that slot does. -/
structure IsXRow (r : Row) (op : Nat) (f : Iss → DWord → SlotR) : Prop where
  wf_eq : ∀ w b, (r w b).wf = slotIs b.x op
  exec_eq : ∀ w b s, exec (r w b) s = .next (s.issue w (b.opX op))
  slot_eq : ∀ i x, opOf x = op → slotX i x = f i x

/-- The command `r` issues a bundle whose M slot holds opcode `op`, and `f` is what that slot does. -/
structure IsMRow (r : Row) (op : Nat) (f : Wick → DWord → SlotR) : Prop where
  wf_eq : ∀ w b, (r w b).wf = slotIs b.m op
  exec_eq : ∀ w b s, exec (r w b) s = .next (s.issue w (b.opM op))
  slot_eq : ∀ k x, opOf x = op → slotM k x = f k x

/-- A row of the X slot alone in a bundle that goes issues that bundle, whose acts are the row's. -/
theorem exec_onlyX {r : Row} {op : Nat} {f : Iss → DWord → SlotR} (hr : IsXRow r op f) {s : State} {w : WickRef} {b : Bundle}
    (hb : onlyX b) (hg : s.goes w b) (hwf : (r w b).wf = true) :
    exec (r w b) s = .next ((s.readFor w b).issueRead w b)
      ∧ slotX ((s.readFor w b).iss w) b.x = f ((s.readFor w b).iss w) b.x
      ∧ (s.readFor w b).slotActs w b = (f ((s.readFor w b).iss w) b.x).acts := by
  obtain ⟨hm, hv, -⟩ := hb
  have hop : slotIs b.x op = true := hr.wf_eq w b ▸ hwf
  have hslot := hr.slot_eq ((s.readFor w b).iss w) b.x (opOf_eq hop)
  exact ⟨by rw [hr.exec_eq, opX_self hop, issue_goes hg], hslot, by rw [slotActs_X hm hv, hslot]⟩

/-- Acts on registers and queues alone. -/
def RegActs (l : List Act) : Prop := ∀ a ∈ l, a.isReg = true ∧ a.isTok = false

theorem RegActs.cons {a : Act} {l : List Act} (hreg : a.isReg = true) (htok : a.isTok = false) (h : RegActs l) : RegActs (a :: l) :=
  List.forall_mem_cons.2 ⟨⟨hreg, htok⟩, h⟩

theorem RegActs.nil : RegActs [] := List.forall_mem_nil _

theorem RegActs.append {l l' : List Act} (h : RegActs l) (h' : RegActs l') : RegActs (l ++ l') :=
  List.forall_mem_append.2 ⟨h, h'⟩

/-- An X slot that acts on registers and queues alone does so on the registers before the bundle, and the Wick goes on (R79). -/
theorem exec_onlyX_regs {r : Row} {op : Nat} {f : Iss → DWord → SlotR} (hr : IsXRow r op f) {s : State} {w : WickRef} {b : Bundle}
    (hb : onlyX b) (hg : s.goes w b) (hwf : (r w b).wf = true) (l : List Act) (hl : (f ((s.readFor w b).iss w) b.x).acts = l)
    (hreg : RegActs l) :
    exec (r w b) s = .next (advance (s.readFor w b) w (l.foldl Wick.regAct (wickOf (s.readFor w b) w))) := by
  obtain ⟨hexec, -, hacts⟩ := exec_onlyX hr hb hg hwf
  obtain ⟨-, -, hc⟩ := hb
  rw [hl] at hacts
  rw [hexec, issue_noC hg.2 hc (by rw [hacts]; exact hreg), hacts]
  rfl

/-- An M slot that acts on registers and queues alone does so on the registers before the bundle, and the Wick goes on (R79). -/
theorem exec_onlyM_regs {r : Row} {op : Nat} {f : Wick → DWord → SlotR} (hr : IsMRow r op f) {s : State} {w : WickRef} {b : Bundle}
    (hb : onlyM b) (hg : s.goes w b) (hwf : (r w b).wf = true) (l : List Act) (hl : (f (wickOf (s.readFor w b) w) b.m).acts = l)
    (hreg : RegActs l) :
    exec (r w b) s = .next (advance (s.readFor w b) w (l.foldl Wick.regAct (wickOf (s.readFor w b) w))) := by
  obtain ⟨hv, hx, hc⟩ := hb
  have hop : slotIs b.m op = true := hr.wf_eq w b ▸ hwf
  have hacts : (s.readFor w b).slotActs w b = l := by
    rw [slotActs_M hv hx, hr.slot_eq _ _ (opOf_eq hop)]; exact hl
  rw [hr.exec_eq, opM_self hop, issue_goes hg, issue_noC hg.2 hc (by rw [hacts]; exact hreg), hacts]
  rfl

/-! ### Register moves -/

/-- MOVHI: IMM32 above the low half. -/
theorem ofNat_high_low (x y : DWord) :
    BitVec.ofNat 64 (fld x 32 32 * 2 ^ 32 + y.toNat % 2 ^ 32) = x.extractLsb' 32 32 ++ y.extractLsb' 0 32 := by
  apply BitVec.eq_of_toNat_eq
  rw [fld_eq, BitVec.toNat_append, BitVec.toNat_ofNat, ← Nat.shiftLeft_add_eq_or_of_lt (BitVec.isLt _), Nat.shiftLeft_eq,
    BitVec.extractLsb'_toNat (x := y), Nat.shiftRight_zero]
  have := (x.extractLsb' 32 32).isLt
  have := Nat.mod_lt y.toNat (show 0 < 2 ^ 32 by decide)
  exact Nat.mod_eq_of_lt (by omega)

/-- ASET: a space above four zero bits and an OFFSET. -/
theorem ofNat_space_off (x y : DWord) :
    BitVec.ofNat 64 (fld x 32 3 * 2 ^ 61 + offOf y) = x.extractLsb' 32 3 ++ (0 : BitVec 4) ++ y.extractLsb' 0 57 := by
  apply BitVec.eq_of_toNat_eq
  rw [offOf, fld_eq, fld_eq, BitVec.toNat_append, BitVec.toNat_append, BitVec.toNat_ofNat,
    ← Nat.shiftLeft_add_eq_or_of_lt (BitVec.isLt _), ← Nat.shiftLeft_add_eq_or_of_lt (BitVec.isLt _), Nat.shiftLeft_eq,
    Nat.shiftLeft_eq]
  have := (x.extractLsb' 32 3).isLt
  have := (y.extractLsb' 0 57).isLt
  have h0 : BitVec.toNat (0 : BitVec 4) = 0 := rfl
  rw [h0, Nat.mod_eq_of_lt (by omega)]
  omega

/-- PFROMV: a lane that is not zero. -/
theorem ne_zero_decide (x : Word) : (x != 0) = decide (x ≠ 0) :=
  Bool.eq_iff_iff.2 (bne_iff_ne.trans decide_eq_true_iff.symm)

/-- The row is an instruction of the X slot whose one effect is an act on a register of its Wick, after which the Wick is `row.2`. -/
def IsMoveRow (row : Row × (State → WickRef → Wick → DWord → Wick)) : Prop :=
  ∃ op f, IsXRow row.1 op f ∧ ∀ s w x, ∃ a, (f (s.iss w) x).acts = [a] ∧ a.isReg = true ∧ a.isTok = false
    ∧ (wickOf s w).regAct a = row.2 s w (wickOf s w) x

/-- The opcode and the meaning of each register move. -/
theorem moveRows_isMoveRow : ∀ row ∈ moveRows, IsMoveRow row := by
  simp only [moveRows, List.forall_mem_cons]
  refine ⟨⟨0x90, xMovi, ?_, fun _ _ x => ⟨_, rfl, rfl, rfl, congrArg (Wick.setS _ _) (imm32_eq x)⟩⟩,
    ⟨0x91, xMovhi, ?_, fun _ _ x => ⟨_, rfl, rfl, rfl, congrArg (Wick.setS _ _) (ofNat_high_low x _)⟩⟩,
    ⟨0x92, xMovsa, ?_, fun _ _ _ => ⟨_, rfl, rfl, rfl, rfl⟩⟩,
    ⟨0x93, xMovas, ?_, fun _ _ _ => ⟨_, rfl, rfl, rfl, rfl⟩⟩,
    ⟨0x94, xMovsw, ?_, fun _ _ _ => ⟨_, rfl, rfl, rfl, rfl⟩⟩,
    ⟨0x95, xVgetl, ?_, fun _ _ _ => ⟨_, rfl, rfl, rfl, rfl⟩⟩,
    ⟨0x96, xVsetl, ?_, fun _ _ _ => ⟨_, rfl, rfl, rfl, rfl⟩⟩,
    ⟨0x97, xVbcast, ?_, fun _ _ _ => ⟨_, rfl, rfl, rfl, rfl⟩⟩,
    ⟨0x98, xAadd, ?_, fun _ _ _ => ⟨_, rfl, rfl, rfl, rfl⟩⟩,
    ⟨0x99, xAaddi, ?_, fun _ _ x => ⟨_, rfl, rfl, rfl, congrArg (fun n => Wick.setA _ _ (addOff _ n)) (sx_eq x)⟩⟩,
    ⟨0x9A, xAset, ?_, fun _ _ x => ⟨_, rfl, rfl, rfl, congrArg (Wick.setA _ _) (ofNat_space_off x _)⟩⟩,
    ⟨0x9B, xPfromv, ?_, fun _ _ _ => ⟨_, rfl, rfl, rfl, congrArg (fun g => Wick.setP _ _ (mkPred g)) (funext fun n => ne_zero_decide _)⟩⟩,
    ⟨0x9C, xPtov, ?_, fun _ _ _ => ⟨_, rfl, rfl, rfl, rfl⟩⟩, List.forall_mem_nil _⟩
  all_goals exact ⟨fun _ _ => rfl, fun _ _ _ => rfl, fun _ _ h => by simp only [slotX, h]⟩

theorem registerMoves : Claims.registerMoves := by
  intro row hrow s w b hwf hb hg
  obtain ⟨op, f, hr, hact⟩ := moveRows_isMoveRow row hrow
  obtain ⟨a, ha, hreg, htok, hk⟩ := hact (s.readFor w b) w b.x
  rw [exec_onlyX_regs hr hb hg hwf [a] ha (.cons hreg htok .nil), List.foldl_cons, List.foldl_nil, hk]

/-! ### Tile moves -/

/-- The row is an instruction of the M slot whose one effect is an act on a register of its Wick, after which the Wick is `row.2`. -/
def IsTileRow (row : Row × (Wick → DWord → Wick)) : Prop :=
  ∃ op f, IsMRow row.1 op f ∧ ∀ k x, ∃ a, (f k x).acts = [a] ∧ a.isReg = true ∧ a.isTok = false ∧ k.regAct a = row.2 k x

/-- The opcode and the meaning of each tile move. -/
theorem tileRows_isTileRow : ∀ row ∈ tileRows, IsTileRow row := by
  simp only [tileRows, List.forall_mem_cons]
  refine ⟨⟨0x02, mTzero, ?_⟩, ⟨0x03, mTcopy, ?_⟩, ⟨0x04, mTget, ?_⟩, ⟨0x05, mTput, ?_⟩, List.forall_mem_nil _⟩
  all_goals exact ⟨⟨fun _ _ => rfl, fun _ _ _ => rfl, fun _ _ h => by simp only [slotM, h]⟩, fun _ _ => ⟨_, rfl, rfl, rfl, rfl⟩⟩

/-- A NOP alone in its bundle only goes on (R113). -/
theorem exec_nop {s : State} {w : WickRef} {b : Bundle} (hb : onlyM b) (hg : s.goes w b) (hwf : (Instr.nop w b).wf = true) :
    exec (.nop w b) s = .next (advance (s.readFor w b) w (wickOf (s.readFor w b) w)) := by
  obtain ⟨hv, hx, hc⟩ := hb
  have hm : b.m = 0 := beq_iff_eq.1 hwf
  have hacts : (s.readFor w b).slotActs w b = [] := slotActs_C hm hv hx
  have e : exec (.nop w b) s = .next (s.issue w { b with m := 0 }) := rfl
  have hself : ({ b with m := 0 } : Bundle) = b := by rw [← hm]
  rw [e, hself, issue_goes hg, issue_noC hg.2 hc (by rw [hacts]; exact RegActs.nil), hacts]
  rfl

theorem tileMoves : Claims.tileMoves := by
  intro s w b hb hg
  refine ⟨fun row hrow hwf => ?_, exec_nop hb hg⟩
  obtain ⟨op, f, hr, hact⟩ := tileRows_isTileRow row hrow
  obtain ⟨a, ha, hreg, htok, hk⟩ := hact (wickOf (s.readFor w b) w) b.m
  rw [exec_onlyM_regs hr hb hg hwf [a] ha (.cons hreg htok .nil), List.foldl_cons, List.foldl_nil, hk]

/-- Settles O4: each row is one act on a register of its Wick; NOP has none. -/
theorem movesWriteTheirDestination : Obligations.MovesWriteTheirDestination := ⟨registerMoves, tileMoves⟩

end Sys2Proof.Machine
end

section
/-! Instructions that enter a queue: MMA, the attention blocks and DMA (R125, R135, R148, R154, R168). -/

namespace Sys2Proof.Machine

open Sys2Proof Sys2Proof.Claims

/-! ### The matrix queue -/

theorem isMRow_mma : IsMRow .mma 0x01 mMma := ⟨fun _ _ => rfl, fun _ _ _ => rfl, fun _ _ h => by simp only [slotM, h]⟩
theorem isMRow_attnBlkFwd : IsMRow .attnBlkFwd 0x08 mAttnFwd :=
  ⟨fun _ _ => rfl, fun _ _ _ => rfl, fun _ _ h => by simp only [slotM, h]⟩
theorem isMRow_attnBlkBwd : IsMRow .attnBlkBwd 0x09 mAttnBwd :=
  ⟨fun _ _ => rfl, fun _ _ _ => rfl, fun _ _ h => by simp only [slotM, h]⟩

/-- POST advances address registers and does nothing else (R125). -/
theorem regActs_mmaPost (k : Wick) (x : DWord) : RegActs (mmaPost k x) := by
  intro a ha
  unfold mmaPost at ha
  split at ha
  · split at ha
    · simp only [List.mem_append, List.mem_cons, List.not_mem_nil, or_false] at ha
      rcases ha with (rfl | rfl) | ha
      · exact ⟨rfl, rfl⟩
      · exact ⟨rfl, rfl⟩
      · split at ha
        · simp only [List.mem_cons, List.not_mem_nil, or_false] at ha
          rcases ha with rfl | rfl <;> exact ⟨rfl, rfl⟩
        · exact absurd ha List.not_mem_nil
    · exact absurd ha List.not_mem_nil
  · exact absurd ha List.not_mem_nil

/-- The queue entry of an MMA (R125, R150). -/
def mmaOp (k : Wick) (x : DWord) : MatOp where
  word := x
  pc := k.pc
  adr := [k.ra (fld x 12 4), k.ra (fld x 16 4), k.ra (fld x 28 4), k.ra (fld x 32 4)]
  sc := [k.rs (fld x 48 6)]

/-- MMA enters the matrix queue, and then POST advances its addresses (R125, R148). -/
theorem exec_mma {s : State} {w : WickRef} {b : Bundle} (hb : onlyM b) (hg : s.goes w b) (hwf : (Instr.mma w b).wf = true) :
    exec (.mma w b) s = .next (advance (s.readFor w b) w ((mmaPost (wickOf (s.readFor w b) w) b.m).foldl Wick.regAct
      { wickOf (s.readFor w b) w with mq := (wickOf (s.readFor w b) w).mq ++ [mmaOp (wickOf (s.readFor w b) w) b.m] })) :=
  exec_onlyM_regs isMRow_mma hb hg hwf (.mat (mmaOp (wickOf (s.readFor w b) w) b.m) :: mmaPost (wickOf (s.readFor w b) w) b.m) rfl
    (.cons rfl rfl (regActs_mmaPost _ _))

/-- An attention block's one act is to enter the matrix queue (R154). -/
theorem exec_attnBlk {r : Row} {op : Nat} {f : Wick → DWord → SlotR} (hr : IsMRow r op f) (hf : ∀ k x, (f k x).acts = [.mat (attnOp k x)])
    {s : State} {w : WickRef} {b : Bundle} (hb : onlyM b) (hg : s.goes w b) (hwf : (r w b).wf = true) :
    exec (r w b) s = .next (advance (s.readFor w b) w { wickOf (s.readFor w b) w with
      mq := (wickOf (s.readFor w b) w).mq ++ [attnOp (wickOf (s.readFor w b) w) b.m] }) :=
  exec_onlyM_regs hr hb hg hwf [.mat (attnOp (wickOf (s.readFor w b) w) b.m)] (hf _ _) (.cons rfl rfl .nil)

/-! ### The DMA queues -/

theorem isXRow_dmaIssue : IsXRow .dmaIssue 0x88 xDma := ⟨fun _ _ => rfl, fun _ _ _ => rfl, fun _ _ h => by simp only [slotX, h]⟩

/-- The descriptor of a DMA (R135, R168). -/
def dmaDescOf (k : Wick) (key : Nat) (x : DWord) : DmaDesc where
  pc := k.pc
  src := k.ra (fld x 8 4)
  dst := k.ra (fld x 12 4)
  len := k.rs (fld x 16 6)
  fence := if x.getLsbD 44 then none else some { wk := key, adr := k.ra (fld x 22 4), val := k.rs (fld x 26 6) }
  tc := if fld x 36 2 = 0 then 2 else if fld x 36 2 = 1 then 1 else 0
  chip := k.rs (fld x 38 6)

theorem fenceOf_eq (s : State) (w : WickRef) (x : DWord) (i af sv : Nat) :
    fenceOf (s.iss w) (tb x i) af sv
      = if x.getLsbD i then none else some { wk := w.key, adr := (wickOf s w).ra af, val := (wickOf s w).rs sv } := by
  rw [fenceOf, tb_eq]; rfl

/-- A DMA that raises no fault enters its queue; ILLEGAL is raised where no address is a FABRIC address and a class or a chip is named. -/
theorem xDma_acts {s : State} {w : WickRef} {x : DWord} (h : firstFlt (xDma (s.iss w) x).flts = none) :
    (xDma (s.iss w) x).acts = [.dma (fld x 32 4) (dmaDescOf (wickOf s w) w.key x)] := by
  unfold xDma at h ⊢
  simp only at h ⊢
  split at h
  · exact absurd h (by simp [firstFlt])
  · next hfab =>
    rw [if_neg hfab, fenceOf_eq, dmaDescOf]
    rcases fld x 36 2 with _ | _ | _ <;> rfl

theorem exec_dmaIssue {s : State} {w : WickRef} {b : Bundle} (hb : onlyX b) (hg : s.goes w b) (hwf : (Instr.dmaIssue w b).wf = true) :
    exec (.dmaIssue w b) s = .next (advance (s.readFor w b) w ((wickOf (s.readFor w b) w).regAct
      (.dma (fld b.x 32 4) (dmaDescOf (wickOf (s.readFor w b) w) w.key b.x)))) := by
  obtain ⟨-, -, hflts, -⟩ := hg.2.good
  rw [(exec_onlyX isXRow_dmaIssue hb hg hwf).2.1] at hflts
  exact exec_onlyX_regs isXRow_dmaIssue hb hg hwf [.dma (fld b.x 32 4) (dmaDescOf (wickOf (s.readFor w b) w) w.key b.x)]
    (xDma_acts hflts) (.cons rfl rfl .nil)

/-! ### The statement -/

/-- Settles O8: the one act of an attention block or a DMA is to enter its queue, and MMA's is followed by the advances of POST. -/
theorem queuedInstructionsEnterTheirQueue : Obligations.QueuedInstructionsEnterTheirQueue := by
  intro s w b hg
  refine ⟨fun hb hwf => exec_mma hb hg hwf, ?attn, fun hb hwf => exec_dmaIssue hb hg hwf⟩
  case attn =>
    simp only [List.forall_mem_cons]
    exact ⟨fun hb hwf => exec_attnBlk isMRow_attnBlkFwd (fun _ _ => rfl) hb hg hwf,
      fun hb hwf => exec_attnBlk isMRow_attnBlkBwd (fun _ _ => rfl) hb hg hwf, List.forall_mem_nil _⟩

end Sys2Proof.Machine
end

section
/-! Loads, and what an access meets in memory (R132, R133, R165, R230, R241 to R243). -/

namespace Sys2Proof.Machine

open Sys2Proof Sys2Proof.Claims

/-! ### What a scalar access meets -/

/-- With no damage struck, no table line bad, no store uncorrectable and no cycles counted, the controller meets the line's event alone
(R242). -/
theorem memEvent_ev {s : State} (h : s.dev.st = .run) (d t dpa : Nat) (e : LineEv) :
    s.memEvent d t dpa { ev := e } = s.lineEvent d (dpa / 256 * 256) e := by
  have hstrike : s.strike [] = s := rfl
  have htable : s.tableEvent t 0 = s := by simp [State.tableEvent]
  have htook : s.readTook d (0 : BitVec 32).toNat = s := by simp [State.readTook]
  simp only [State.memEvent, hstrike, htable, htook, Bool.false_eq_true, if_false, ite_self, h, if_true]

/-- A clean access leaves the state. -/
theorem scalarLine_clean (s : State) (w : WickRef) (b : Bundle) : s.scalarLine w b {} = s := by
  unfold State.scalarLine
  split
  · rfl
  · next hgo =>
    have hrun : s.runnable w = true := by
      cases h : s.runnable w
      · simp [h] at hgo
      · rfl
    obtain ⟨-, -, -, -, hdev⟩ := runnable_live hrun
    simp only
    split
    · split
      · rw [memEvent_ev hdev]; rfl
      · rfl
    · rfl

/-- A mapped DOMAIN access of a Wick that may issue reaches its line (R242). -/
theorem scalarLine_dom {s : State} {w : WickRef} {b : Bundle} {dp : Nat} (hrun : s.runnable w = true) (hlegal : legalBundle b = true)
    (hsp : spaceOf (xmAdr (s.iss w) b.x) = some .dom) (hdp : (s.dom w.d).dpa (offOf (xmAdr (s.iss w) b.x)) = some dp) (e : LineEv) :
    s.scalarLine w b { ev := e } = s.lineEvent w.d (dp / 256 * 256) e := by
  obtain ⟨-, -, -, -, hdev⟩ := runnable_live hrun
  have hgo : ¬ (!s.runnable w || !legalBundle b) = true := by simp [hrun, hlegal]
  rw [State.iss] at hsp hdp
  simp only [State.scalarLine, if_neg hgo, hsp, if_true, hdp]
  exact memEvent_ev hdev _ _ _ _

/-- A poisoned line reads as poison (R243). -/
theorem badLine_poisonLine (s : State) (d dpa : Nat) : (s.poisonLine d dpa).badLine dpa = true := by
  have h : FMap.get false (s.poisonLine d dpa).mem.bad (dpa / 256) = true := by
    simp [State.poisonLine, State.modCtl, State.setCtl, FMap.get_set_of_ne]
  rw [State.badLine, h, Bool.true_or]

theorem exec_ld (w : WickRef) (b : Bundle) (ev : MemEv) (s : State) :
    exec (.ld w b ev) s = .next ((s.scalarLine w (b.opX 0x80) ev).issue w (b.opX 0x80)) := rfl

theorem exec_st (w : WickRef) (b : Bundle) (ev : MemEv) (s : State) :
    exec (.st w b ev) s = .next ((s.scalarLine w (b.opX 0x81) ev).issue w (b.opX 0x81)) := rfl

/-- R241 to R243: an LD or ST with an event is the one without, after the event at its line. -/
theorem memoryEvents : Claims.memoryEvents := by
  intro s w b ev
  refine ⟨fun hwf => ?ld, fun hwf => ?st, fun dp hrun hlegal hsp hdp => ?line⟩
  case ld => rw [exec_ld, exec_ld, scalarLine_clean, opX_self hwf]
  case st => rw [exec_st, exec_st, scalarLine_clean, opX_self hwf]
  case line =>
    exact ⟨scalarLine_clean s w b, scalarLine_dom hrun hlegal hsp hdp .corrected, scalarLine_dom hrun hlegal hsp hdp .failed,
      badLine_poisonLine s w.d _⟩

/-! ### Post-increment -/

theorem regActs_xmPost (i : Iss) (x : DWord) : RegActs (xmPost i x) := by
  unfold xmPost
  split
  · exact .cons rfl rfl .nil
  · exact .nil

theorem regActs_scalePost (i : Iss) (f : Fmt) (x : DWord) : RegActs (scalePost i f x) := by
  unfold scalePost
  split
  · exact .cons rfl rfl .nil
  · exact .nil

/-- R132: the access advances its address register in post-increment form. -/
theorem foldl_xmPost (s : State) (w : WickRef) (x : DWord) (k : Wick) :
    (xmPost (s.iss w) x).foldl Wick.regAct k = post (wickOf s w) x k := by
  rw [xmPost, post, tb_eq]
  split <;> rfl

/-- R133: an MX access advances its scale register too. -/
theorem foldl_scalePost (s : State) (w : WickRef) (f : Fmt) (x : DWord) (k : Wick) :
    (scalePost (s.iss w) f x).foldl Wick.regAct k = postScale (wickOf s w) f x k := by
  rw [scalePost, postScale, tb_eq]
  split <;> rfl

/-! ### What a load writes -/

/-- The value that LD reads (R165). -/
def ldValue (s : State) (w : WickRef) (x : DWord) : DWord :=
  let v := leNat (s.rdSpace w.d w.c w.key (xmAdr (s.iss w) x) (2 ^ fld x 36 2))
  if x.getLsbD 38 then BitVec.ofInt 64 (sx (8 * 2 ^ fld x 36 2) v) else BitVec.ofNat 64 v

/-- The vector that VLD leaves (R133, R165). -/
def vldValue (s : State) (w : WickRef) (f : Fmt) (x : DWord) : List Word :=
  let k := wickOf s w
  let els := bitFields f.bits 256 (leNat (s.rdSpace w.d w.c w.key (xmAdr (s.iss w) x) (vecBytes f)))
  let scs := if f.isMX then s.rdSpace w.d w.c w.key (scaleAdr (s.iss w) f x) 8 else []
  mkVec fun n =>
    if (k.rp (fld x 44 3)).getLsbD n != x.getLsbD 47 then BitVec.ofNat 32 (els.getD n 0 + (scs.getD (n / 32) 0).toNat * 256)
    else lane (k.rv (fld x 8 5)) n

/-- The tile that TLD leaves (R165). -/
def tldValue (s : State) (w : WickRef) (x : DWord) : List Word :=
  ((List.range 64).map fun r => toWords (s.rdSpace w.d w.c w.key (tileRow (s.iss w) x r) 256)).flatten

theorem xLd_acts (s : State) (w : WickRef) (x : DWord) :
    (xLd (s.iss w) x).acts = .s (fld x 8 6) (ldValue s w x) :: xmPost (s.iss w) x := by
  simp only [xLd, tb_eq]; rfl

theorem xVld_acts {f : Fmt} {x : DWord} (hf : vecFmt x = some f) (s : State) (w : WickRef) :
    (xVld (s.iss w) x).acts = .v (fld x 8 5) (vldValue s w f x) :: (xmPost (s.iss w) x ++ scalePost (s.iss w) f x) := by
  simp only [xVld, hf, tb_eq]; rfl

theorem xTld_acts (s : State) (w : WickRef) (x : DWord) :
    (xTld (s.iss w) x).acts = .t (fld x 8 3) (tldValue s w x) :: xmPost (s.iss w) x := rfl

theorem isXRow_ld : IsXRow (fun w b => .ld w b {}) 0x80 xLd :=
  ⟨fun _ _ => rfl, fun w b s => by rw [exec_ld, scalarLine_clean], fun _ _ h => by simp only [slotX, h]⟩
theorem isXRow_vld : IsXRow .vld 0x82 xVld := ⟨fun _ _ => rfl, fun _ _ _ => rfl, fun _ _ h => by simp only [slotX, h]⟩
theorem isXRow_tld : IsXRow .tld 0x84 xTld := ⟨fun _ _ => rfl, fun _ _ _ => rfl, fun _ _ h => by simp only [slotX, h]⟩

/-- R132, R165: a load writes its register and then advances its address. -/
theorem exec_load {r : Row} {op : Nat} {f : Iss → DWord → SlotR} (hr : IsXRow r op f) {s : State} {w : WickRef} {b : Bundle}
    (hb : onlyX b) (hg : s.goes w b) (hwf : (r w b).wf = true) (a : Act) (hreg : a.isReg = true) (htok : a.isTok = false)
    (ha : (f ((s.readFor w b).iss w) b.x).acts = a :: xmPost ((s.readFor w b).iss w) b.x) :
    exec (r w b) s = .next (advance (s.readFor w b) w
      (post (wickOf (s.readFor w b) w) b.x ((wickOf (s.readFor w b) w).regAct a))) := by
  rw [exec_onlyX_regs hr hb hg hwf _ ha (.cons hreg htok (regActs_xmPost _ _)), List.foldl_cons, foldl_xmPost]

theorem exec_vld {f : Fmt} {s : State} {w : WickRef} {b : Bundle} (hb : onlyX b) (hg : s.goes w b) (hwf : (Instr.vld w b).wf = true)
    (hf : vecFmt b.x = some f) :
    exec (.vld w b) s = .next (advance (s.readFor w b) w (postScale (wickOf (s.readFor w b) w) f b.x (post (wickOf (s.readFor w b) w) b.x
      ((wickOf (s.readFor w b) w).setV (fld b.x 8 5) (vldValue (s.readFor w b) w f b.x))))) := by
  rw [exec_onlyX_regs isXRow_vld hb hg hwf _ (xVld_acts hf _ _)
      (.cons rfl rfl ((regActs_xmPost _ _).append (regActs_scalePost _ _ _))),
    List.foldl_cons, List.foldl_append, foldl_xmPost, foldl_scalePost]
  rfl

/-- R132, R133, R165: LD, VLD and TLD. -/
theorem loads : Claims.loads := by
  intro s w b hb hg
  exact ⟨fun hwf => exec_load isXRow_ld hb hg hwf (.s (fld b.x 8 6) (ldValue (s.readFor w b) w b.x)) rfl rfl (xLd_acts _ _ _),
    fun f hf hwf => exec_vld hb hg hwf hf,
    fun hwf => exec_load isXRow_tld hb hg hwf (.t (fld b.x 8 3) (tldValue (s.readFor w b) w b.x)) rfl rfl (xTld_acts _ _ _)⟩

/-! ### The statement -/

/-- R230, R241: reading sound lines changes counters of the memory tiers alone. -/
theorem readingIsQuiet : Claims.readingIsQuiet := fun _ w b h => (State.readFor_sound h w b).1

/-- Settles O5: a load is one write of its register and the advance of its addresses; an access's event comes before its issue; and the lines
that a bundle reads are met one by one, each sound. -/
theorem loadsWriteWhatMemoryHolds : Obligations.LoadsWriteWhatMemoryHolds := ⟨loads, memoryEvents, readingIsQuiet⟩

end Sys2Proof.Machine
end

section
/-! Stores (R132, R133, R165): what a store leaves of its Wick, and what ST, VST and TST store. -/

namespace Sys2Proof.Machine

open Sys2Proof Sys2Proof.Claims

/-! ### A write to memory leaves the domains -/

/-- What one step keeps, a list of steps keeps. -/
theorem foldl_keeps {α β γ : Type} (g : β → γ) {f : β → α → β} (hf : ∀ t x, g (f t x) = g t) (l : List α) :
    ∀ s : β, g (l.foldl f s) = g s := by
  induction l with
  | nil => intro s; rfl
  | cons x l ih => intro s; exact (ih (f s x)).trans (hf s x)

theorem mendLine_doms (s : State) (line : Nat) : (s.mendLine line).doms = s.doms := rfl

theorem touchDpa_doms (s : State) (d dpa n : Nat) : (s.touchDpa d dpa n).doms = s.doms := by
  unfold State.touchDpa
  split
  · rfl
  · refine foldl_keeps State.doms (fun _ _ => ?_) _ s
    rfl

theorem wrNow_doms (s : State) (d dpa : Nat) (bs : List Byte) : (s.wrNow d dpa bs).doms = s.doms :=
  (touchDpa_doms _ _ _ _).trans (foldl_keeps State.doms mendLine_doms _ s)

theorem wrDpa_doms (s : State) (d dpa : Nat) (bs : List Byte) : (s.wrDpa d dpa bs).doms = s.doms := by
  unfold State.wrDpa
  split
  · rfl
  · exact wrNow_doms s d dpa bs

theorem wrDom_doms (s : State) (d off : Nat) (bs : List Byte) : (s.wrDom d off bs).doms = s.doms := by
  refine foldl_keeps State.doms (fun t p => ?_) _ s
  split
  · exact wrDpa_doms _ _ _ _
  · rfl

theorem ctx?_of_doms {s t : State} (h : t.doms = s.doms) (d c : Nat) : t.ctx? d c = s.ctx? d c := by
  unfold State.ctx? State.dom; rw [h]

theorem wickAt_of_doms {s t : State} (h : t.doms = s.doms) (d c k : Nat) : t.wickAt d c k = s.wickAt d c k := by
  unfold State.wickAt; rw [ctx?_of_doms h]

/-! ### A write by space leaves its Wick but for the Wick's LOCAL memory -/

/-- In `t` the Wick is still there, and only its LOCAL memory may differ from what it was in `s`. -/
def KeepsWick (d c k : Nat) (s t : State) : Prop :=
  s.on d c k → t.on d c k ∧ ∃ m, t.wickAt d c k = { s.wickAt d c k with lmem := m }

theorem KeepsWick.refl (d c k : Nat) (s : State) : KeepsWick d c k s s := fun h => ⟨h, _, rfl⟩

theorem KeepsWick.trans {d c k : Nat} {s t u : State} (h : KeepsWick d c k s t) (g : KeepsWick d c k t u) : KeepsWick d c k s u := by
  intro hs
  obtain ⟨ht, m, hm⟩ := h hs
  obtain ⟨hu, n, hn⟩ := g ht
  exact ⟨hu, n, by rw [hn, hm]⟩

theorem keepsWick_of_doms {s t : State} (h : t.doms = s.doms) (d c k : Nat) : KeepsWick d c k s t := by
  rintro ⟨x, hx, hl, hr⟩
  have hw := wickAt_of_doms h d c k
  exact ⟨⟨x, by rw [ctx?_of_doms h, hx], hl, by rw [hw]; exact hr⟩, _, hw⟩

theorem wickAt_of_ctx? {s : State} {d c : Nat} {x : Ctx} (h : s.ctx? d c = some x) (k : Nat) : s.wickAt d c k = x.wick k := by
  rw [State.wickAt, h]

theorem on_of_ctx? {s : State} {d c k : Nat} {x : Ctx} (h : s.ctx? d c = some x) (hl : x.status = .live) (hr : (x.wick k).run ≠ .idle) :
    s.on d c k := ⟨x, h, hl, by rw [wickAt_of_ctx? h]; exact hr⟩

/-- A write to a live context's LOCAL or LANTERN memory changes the context alone (R87). -/
theorem setLmem_live {s : State} {d c : Nat} {x : Ctx} (h : s.ctx? d c = some x) (hl : x.status = .live)
    (k : Nat) (lant : Bool) (m : Memory) : s.setLmem d c k lant m = s.setCtx d c (if lant then { x with lmem := FMap.set [] x.lmem (k / 8) m }
      else x.setWick k { x.wick k with lmem := m }) := by
  simp [State.setLmem, State.modCtx, h, hl]

theorem keepsWick_setLmem (s : State) (d c k : Nat) (lant : Bool) (m : Memory) : KeepsWick d c k s (s.setLmem d c k lant m) := by
  rintro ⟨x, hx, hl, hr⟩
  have hwick := wickAt_of_ctx? hx k
  rw [hwick] at hr
  rw [setLmem_live hx hl, hwick]
  cases lant with
  | true =>
    have hctx := ctx?_setCtx s d c { x with lmem := FMap.set [] x.lmem (k / 8) m }
    exact ⟨on_of_ctx? hctx hl hr, (x.wick k).lmem, wickAt_of_ctx? hctx k⟩
  | false =>
    have hctx := ctx?_setCtx s d c (x.setWick k { x.wick k with lmem := m })
    have hw : (x.setWick k { x.wick k with lmem := m }).wick k = { x.wick k with lmem := m } :=
      FMap.get_set_of_ne _ _ (Wick.ne_default hr)
    exact ⟨on_of_ctx? hctx hl (by rw [hw]; exact hr), m, (wickAt_of_ctx? hctx k).trans hw⟩

theorem keepsWick_wrSpace (s : State) (d c k : Nat) (a : DWord) (bs : List Byte) : KeepsWick d c k s (s.wrSpace d c k a bs) := by
  unfold State.wrSpace
  split
  · exact keepsWick_setLmem _ _ _ _ _ _
  · exact keepsWick_setLmem _ _ _ _ _ _
  · exact keepsWick_of_doms (wrDom_doms _ _ _ _) _ _ _
  · exact .refl _ _ _ _

theorem keepsWick_stored (w : WickRef) (l : List (DWord × List Byte)) : ∀ s : State, KeepsWick w.d w.c w.key s (stored s w l) := by
  induction l with
  | nil => intro s; exact .refl _ _ _ _
  | cons p l ih => intro s; exact (keepsWick_wrSpace s _ _ _ p.1 p.2).trans (ih _)

/-! ### Acts: stores first, then registers -/

/-- The stores of a list, as acts. -/
def storeActs (l : List (DWord × List Byte)) : List Act := l.map fun p => .store p.1 p.2

theorem acts_append (s : State) (d c k : Nat) (l l' : List Act) : s.acts d c k (l ++ l') = (s.acts d c k l).acts d c k l' :=
  List.foldl_append

theorem acts_storeActs (s : State) (w : WickRef) (l : List (DWord × List Byte)) : s.acts w.d w.c w.key (storeActs l) = stored s w l :=
  List.foldl_map

theorem actToks_storeActs (l : List (DWord × List Byte)) : actToks (storeActs l) = [] :=
  actToks_none _ fun a ha => by
    obtain ⟨p, -, rfl⟩ := List.mem_map.1 ha
    rfl

theorem actToks_append (l l' : List Act) : actToks (l ++ l') = actToks l ++ actToks l' := List.filterMap_append

theorem heldStore_append (s : State) (d : Nat) {l l' : List Act} (h : s.heldStore d l = none) (h' : RegActs l') :
    s.heldStore d (l ++ l') = none := by
  have hreg := heldStore_reg s d l' fun a ha => (h' a ha).1
  simp only [State.heldStore] at h hreg ⊢
  rw [List.findSome?_append, h, hreg]
  rfl

/-- Register acts and the move to a program counter are one write of a Wick that runs. -/
theorem setRun_acts_regs {s t : State} {w : WickRef} (hon : t.on w.d w.c w.key) (hrun : (wickOf t w).run = .running) {l : List Act}
    (hl : RegActs l) (pc : DWord) :
    (t.acts w.d w.c w.key l).setRun (s.iss w) pc .running = t.setWickAt w.d w.c w.key ((l.foldl Wick.regAct (wickOf t w)).setPc pc) := by
  cases l with
  | nil => exact setRun_running (s.iss w) pc hrun
  | cons a l =>
    have hregs := foldl_regAct_run (a :: l) (wickOf t w)
    have hidle : ((a :: l).foldl Wick.regAct (wickOf t w)).run ≠ .idle := by rw [hregs, hrun]; exact WickRun.noConfusion
    have hread := wickAt_setWickAt_on hon hidle
    rw [acts_reg a l t hon hl]
    simp only [wickOf] at hread hregs hrun hidle ⊢
    rw [setRun_running (s.iss w) pc (by simp only [State.iss]; rw [hread, hregs, hrun])]
    simp only [State.iss]
    rw [hread, setWickAt_setWickAt_on hon hidle (w := ((a :: l).foldl Wick.regAct (t.wickAt w.d w.c w.key)).setPc pc) hidle]

/-! ### The rule of a store -/

/-- An X slot that stores and then advances addresses: its bytes go to memory in order, then the Wick's registers and its program counter
are written (R79, R132). -/
theorem exec_store {r : Row} {op : Nat} {f : Iss → DWord → SlotR} (hr : IsXRow r op f) {s : State} {w : WickRef} {b : Bundle}
    (hb : onlyX b) (hg : s.goes w b) (hwf : (r w b).wf = true) (l : List (DWord × List Byte)) (p : List Act)
    (ha : (f ((s.readFor w b).iss w) b.x).acts = storeActs l ++ p) (hp : RegActs p) (hh : noHold (s.readFor w b) w l) :
    exec (r w b) s = .next ((stored (s.readFor w b) w l).setWickAt w.d w.c w.key
      ((p.foldl Wick.regAct (wickOf (stored (s.readFor w b) w l) w)).setPc ((wickOf (s.readFor w b) w).pc + 32))) := by
  obtain ⟨hexec, -, hacts⟩ := exec_onlyX hr hb hg hwf
  obtain ⟨-, -, hc⟩ := hb
  obtain ⟨-, -, -, hrun, -⟩ := runnable_live hg.2.run
  obtain ⟨hon, m, hwick⟩ := keepsWick_stored w l (s.readFor w b) (on_of_runnable hg.2.run)
  have hrun' : (wickOf (stored (s.readFor w b) w l) w).run = .running := by rw [wickOf, hwick]; exact hrun
  have htoks : actToks (storeActs l ++ p) = [] := by
    rw [actToks_append, actToks_storeActs, actToks_none p fun a h => (hp a h).2]; rfl
  rw [ha] at hacts
  rw [hexec, issueRead_plainC hg.2 (by rw [hc]; decide) (by rw [hacts]; exact heldStore_append _ _ hh hp), hacts, htoks, hc, cActs_zero,
    cNext_zero, List.append_nil, acts_append, acts_storeActs, List.foldl_nil, setRun_acts_regs hon hrun' hp]

/-! ### What the three store -/

theorem xSt_acts (s : State) (w : WickRef) (x : DWord) : (xSt (s.iss w) x).acts = storeActs (stBytes s w x) ++ xmPost (s.iss w) x := rfl

theorem xTst_acts (s : State) (w : WickRef) (x : DWord) : (xTst (s.iss w) x).acts = storeActs (tstBytes s w x) ++ xmPost (s.iss w) x := by
  simp only [xTst, storeActs, tstBytes, List.map_map]
  rfl

theorem xVst_acts {f : Fmt} {x : DWord} (hf : vecFmt x = some f) (s : State) (w : WickRef) :
    (xVst (s.iss w) x).acts = storeActs (vstBytes s w x f) ++ (xmPost (s.iss w) x ++ scalePost (s.iss w) f x) := by
  simp only [xVst, hf, tb_eq, storeActs, vstBytes, List.append_assoc]
  split
  · rfl
  · simp only [List.map_map]; rfl

/-- A VST that raises no fault has a format of a vector (R133). -/
theorem vecFmt_of_xVst {i : Iss} {x : DWord} (h : firstFlt (xVst i x).flts = none) : ∃ f, vecFmt x = some f := by
  cases hf : vecFmt x with
  | none => simp [xVst, hf, firstFlt] at h
  | some f => exact ⟨f, rfl⟩

theorem isXRow_st : IsXRow (fun w b => .st w b {}) 0x81 xSt :=
  ⟨fun _ _ => rfl, fun w b s => by rw [exec_st, scalarLine_clean], fun _ _ h => by simp only [slotX, h]⟩
theorem isXRow_vst : IsXRow .vst 0x83 xVst := ⟨fun _ _ => rfl, fun _ _ _ => rfl, fun _ _ h => by simp only [slotX, h]⟩
theorem isXRow_tst : IsXRow .tst 0x85 xTst := ⟨fun _ _ => rfl, fun _ _ _ => rfl, fun _ _ h => by simp only [slotX, h]⟩

/-! ### The statement -/

/-- Settles O6: the acts of a store are its bytes in order and then the advances of its address registers, and a write to memory leaves the
Wick's registers. -/
theorem storesWriteTheirBytes : Obligations.StoresWriteTheirBytes := by
  unfold Obligations.StoresWriteTheirBytes
  simp only [storeRows, List.forall_mem_cons]
  refine ⟨?st, ?tst, ?vst, List.forall_mem_nil _⟩
  case st =>
    intro s w b hwf hb hg hh
    have hop : opOf b.x ≠ 0x83 := by rw [opOf_eq (op := 0x81) hwf]; decide
    rw [if_neg hop, exec_store isXRow_st hb hg hwf _ _ (xSt_acts _ _ _) (regActs_xmPost _ _) hh, foldl_xmPost]
  case tst =>
    intro s w b hwf hb hg hh
    have hop : opOf b.x ≠ 0x83 := by rw [opOf_eq (op := 0x85) hwf]; decide
    rw [if_neg hop, exec_store isXRow_tst hb hg hwf _ _ (xTst_acts _ _ _) (regActs_xmPost _ _) hh, foldl_xmPost]
  case vst =>
    intro s w b hwf hb hg hh
    obtain ⟨-, -, hflts, -⟩ := hg.2.good
    rw [(exec_onlyX isXRow_vst hb hg hwf).2.1] at hflts
    obtain ⟨f, hf⟩ := vecFmt_of_xVst hflts
    simp only [hf] at hh ⊢
    rw [if_pos (opOf_eq (op := 0x83) hwf), exec_store isXRow_vst hb hg hwf _ _ (xVst_acts hf _ _)
      ((regActs_xmPost _ _).append (regActs_scalePost _ _ _)) hh, List.foldl_append, foldl_xmPost, foldl_scalePost]

end Sys2Proof.Machine
end

section
/-! TOKD (R136, R172, R271, R288): a packet that is sent and held under the next transfer tag, and the record of the token in its Wick. -/

namespace Sys2Proof.Machine

open Sys2Proof Sys2Proof.Claims

/-! ### The held packets and the transfer tags of the fabric -/

/-- The packets held until their ACK, and the next transfer tag (R271). -/
def FabSt.tags (f : FabSt) : List Held × BitVec 16 := (f.held, f.nextXtag)

theorem FabSt.freeIn_tags (f : FabSt) (p : Pkt) : (f.freeIn p).tags = f.tags := by
  unfold FabSt.freeIn
  split <;> rfl

theorem FabSt.pumpLink_tags (f : FabSt) (now n : Nat) : (f.pumpLink now n).tags = f.tags := by
  unfold FabSt.pumpLink
  simp only
  split
  · rfl
  · refine foldl_keeps FabSt.tags (fun g p => ?_) _ _
    exact g.freeIn_tags p

/-- What an egress sends changes no held packet (R281). -/
theorem FabSt.pump_tags (f : FabSt) (now : Nat) : (f.pump now).tags = f.tags :=
  foldl_keeps FabSt.tags (fun g n => g.pumpLink_tags now n) _ f

theorem FabSt.emit_tags (f : FabSt) (n : Nat) (p : Pkt) : (f.emit n p).tags = f.tags := by
  unfold FabSt.emit
  split <;> rfl

theorem FabSt.emitAll_tags (f : FabSt) (n : Nat) (p : Pkt) : (f.emitAll n p).tags = f.tags :=
  foldl_keeps FabSt.tags (fun g q => g.emit_tags n q) _ f

/-! ### What the way from source to egress does to a packet -/

/-- The mesh changes the detour bit of a packet alone (R279). -/
theorem FabSt.meshEgress_pkt {f : FabSt} {p q : Pkt} {m hops rest n : Nat} (h : f.meshEgress p m hops rest = .ok (n, q)) :
    ∃ dt, q = { p with detour := dt } := by
  unfold FabSt.meshEgress at h
  simp only at h
  split at h
  · cases h
  · split at h
    · cases h; exact ⟨_, rfl⟩
    · split at h
      · cases h
      · split at h
        · split at h <;> cases h; exact ⟨_, rfl⟩
        · split at h <;> cases h; exact ⟨_, rfl⟩
        · cases h

theorem FabSt.groupEgress_pkt {f : FabSt} {p q : Pkt} {g hops rest n : Nat} (h : f.groupEgress p g hops rest = .ok (n, q)) :
    ∃ dt, q = { p with detour := dt } := by
  unfold FabSt.groupEgress at h
  split at h
  · cases h
  · split at h
    · split at h <;> cases h; exact ⟨_, rfl⟩
    · exact FabSt.meshEgress_pkt h

/-- A router changes the phase and the detour bit of a packet alone (R273). -/
theorem FabSt.egress_pkt {f : FabSt} {p q : Pkt} {hops n : Nat} (h : f.egress p hops = .ok (n, q)) :
    ∃ ph dt, q = { p with phase := ph, detour := dt } := by
  unfold FabSt.egress at h
  simp only at h
  split at h
  · cases h; exact ⟨_, _, rfl⟩
  · split at h
    · cases h
    · split at h
      · obtain ⟨dt, rfl⟩ := FabSt.meshEgress_pkt h; exact ⟨_, dt, rfl⟩
      · split at h
        · obtain ⟨dt, rfl⟩ := FabSt.groupEgress_pkt h; exact ⟨_, dt, rfl⟩
        · obtain ⟨dt, rfl⟩ := FabSt.groupEgress_pkt h
          split <;> exact ⟨_, dt, rfl⟩

/-- `q` is `p` on some route: the header's route fields alone differ (R271). -/
def Pkt.Routed (p q : Pkt) : Prop :=
  ∃ rt ph dt ig hp, q = { p with rtype := rt, phase := ph, detour := dt, igroup := ig, hop := hp }

theorem FabSt.launch_routed {f : FabSt} {p q : Pkt} {n : Nat} (h : f.launch p = some (n, q)) : p.Routed q := by
  unfold FabSt.launch at h
  split at h
  · cases h; exact ⟨_, _, _, _, _, rfl⟩
  · split at h
    · cases h
    · split at h
      · cases h
      · simp only at h
        split at h
        · next hr =>
          cases h
          obtain ⟨ph, dt, rfl⟩ := FabSt.egress_pkt hr
          exact ⟨_, ph, dt, _, _, rfl⟩
        · cases h

/-! ### A packet held until its ACK -/

/-- `f` with packet `p` of owner `o` held, under the next transfer tag (R271). -/
def FabSt.Holds (f g : FabSt) (p : Pkt) (o : Owner) : Prop :=
  ∃ h : Held, g.tags = (f.held ++ [h], f.nextXtag + 1) ∧ h.owner = o ∧ Pkt.Routed { p with xtag := f.nextXtag } h.pkt

theorem FabSt.putHeld_holds (f : FabSt) (p : Pkt) (o : Owner) : f.Holds (f.putHeld p o) p o := by
  unfold FabSt.putHeld
  simp only
  split
  · next n q hq =>
    obtain ⟨hheld, hnext⟩ := Prod.mk.inj (FabSt.emitAll_tags { f with nextXtag := f.nextXtag + 1 } n q)
    exact ⟨_, Prod.ext rfl hnext, rfl, FabSt.launch_routed hq⟩
  · exact ⟨_, rfl, rfl, _, _, _, _, _, rfl⟩

/-- A packet that is no checkpoint image's is sent and held, or held unsent for a chip that is not confirmed (R271, R430). -/
theorem sendHeld_holds (s : State) {p : Pkt} (hp : p.img = false) (o : Owner) : s.fab.Holds (s.sendHeld p o).fab p o := by
  unfold State.sendHeld
  split
  · exact ⟨_, rfl, rfl, _, _, _, _, _, rfl⟩
  · obtain ⟨h, htags, howner, hpkt⟩ := s.fab.putHeld_holds p o
    refine ⟨h, ?_, howner, hpkt⟩
    rw [← htags]
    simp only [State.onFab, hp, Bool.false_eq_true, if_false]
    exact FabSt.pump_tags _ _

theorem sendHeld_doms (s : State) (p : Pkt) (o : Owner) : (s.sendHeld p o).doms = s.doms := by
  unfold State.sendHeld
  split
  · rfl
  · exact (State.onFab_fields _ _).2.2.2.2.2.2.2.1

/-! ### The dispatch of a token -/

theorem liveCtx_iff {s : State} {d c : Nat} : s.liveCtx d c = true ↔ ∃ x, s.ctx? d c = some x ∧ x.status = .live := by
  unfold State.liveCtx
  cases h : s.ctx? d c <;> simp

/-- The packet of a token (R271, log 45). -/
def tokPkt (s : State) (w : WickRef) (t : TokRec) (dest : Nat × Nat) : Pkt := { s.pktTo w.d dest.1 with
  tc := 0, ptype := 6, bytes := BitVec.ofNat 32 t.len.toNat, data := s.rdSpace w.d w.c w.key t.src t.len.toNat
  adr := BitVec.ofNat 64 (dest.2 + w.c * 2 ^ 16 + w.llant.toNat * 2 ^ 32 + w.lwick.toNat * 2 ^ 38)
  aux := BitVec.ofNat 64 (t.key.toNat + t.ring * 2 ^ 32) }

/-- The Wick with a token outstanding under a transfer tag (R172). -/
def Wick.outstanding (k : Wick) (t : TokRec) (x : BitVec 16) : Wick := { k with tokd := k.tokd ++ [{ t with xtag := x.toNat }] }

/-- A token that passes its checks is sent, and its Wick has it outstanding (R172). -/
theorem dispatchTok_sends {s : State} {w : WickRef} {t : TokRec} {dest : Nat × Nat} (hl : (s.tokReads w t).liveCtx w.d w.c = true)
    (hf : firstFlt ((s.tokReads w t).tokFlts w.d t) = none) (hd : (s.tokReads w t).tokDest w.d t = .ok dest) :
    s.dispatchTok w t = ((s.tokReads w t).sendHeld (tokPkt (s.tokReads w t) w t dest) (.tok w.d w.c w.key)).setWickAt w.d w.c w.key
      ((wickOf (s.tokReads w t) w).outstanding t (s.tokReads w t).fab.nextXtag) := by
  obtain ⟨x, hx, hlive⟩ := liveCtx_iff.1 hl
  have hgo : ¬ (((s.tokReads w t).ctx? w.d w.c).all fun x => x.status != .live) = true := by simp [hx, hlive]
  have hwick := wickAt_of_doms (sendHeld_doms (s.tokReads w t) (tokPkt (s.tokReads w t) w t dest) (.tok w.d w.c w.key)) w.d w.c w.key
  unfold State.dispatchTok
  simp only [if_neg hgo, hf, hd]
  rw [wickOf, ← hwick]
  rfl

/-- After it the token is outstanding under the next transfer tag, and its packet is held under that tag (R172, R271). -/
theorem dispatchTok_holds {s : State} {w : WickRef} {t : TokRec} {dest : Nat × Nat} (hl : (s.tokReads w t).liveCtx w.d w.c = true)
    (hf : firstFlt ((s.tokReads w t).tokFlts w.d t) = none) (hd : (s.tokReads w t).tokDest w.d t = .ok dest) :
    wickOf (s.dispatchTok w t) w = (wickOf (s.tokReads w t) w).outstanding t (s.tokReads w t).fab.nextXtag
    ∧ (s.dispatchTok w t).fab.nextXtag = (s.tokReads w t).fab.nextXtag + 1
    ∧ ∃ h : Held, (s.dispatchTok w t).fab.held = (s.tokReads w t).fab.held ++ [h] ∧ h.owner = .tok w.d w.c w.key
      ∧ h.pkt.xtag = (s.tokReads w t).fab.nextXtag ∧ h.pkt.ptype = 6 ∧ h.pkt.dst = BitVec.ofNat 13 dest.1
      ∧ h.pkt.data = (s.tokReads w t).rdSpace w.d w.c w.key t.src t.len.toNat := by
  rw [dispatchTok_sends hl hf hd]
  generalize s.tokReads w t = v at hl hf hd ⊢
  obtain ⟨x, hx, hlive⟩ := liveCtx_iff.1 hl
  have hctx := (ctx?_of_doms (sendHeld_doms v (tokPkt v w t dest) (.tok w.d w.c w.key)) w.d w.c).trans hx
  have hne : (wickOf v w).outstanding t v.fab.nextXtag ≠ {} := fun h => by
    simpa [Wick.outstanding] using congrArg Wick.tokd h
  obtain ⟨h, htags, howner, rt, ph, dt, ig, hp, hpkt⟩ := sendHeld_holds v (p := tokPkt v w t dest) rfl (.tok w.d w.c w.key)
  obtain ⟨hheld, hnext⟩ := Prod.mk.inj htags
  refine ⟨?_, ?_, h, ?_, howner, ?_⟩
  · rw [wickOf, setWickAt_of_live _ _ hctx hlive, wickAt_of_ctx? (ctx?_setCtx _ _ _ _)]
    exact FMap.get_set_of_ne _ _ hne
  · simpa only [State.setWickAt_fields] using hnext
  · simpa only [State.setWickAt_fields] using hheld
  · rw [hpkt]
    exact ⟨rfl, rfl, rfl, rfl⟩

/-! ### The issue of TOKD -/

theorem isXRow_tokd : IsXRow .tokd 0x8C xTokd := ⟨fun _ _ => rfl, fun _ _ _ => rfl, fun _ _ h => by simp only [slotX, h]⟩

/-- The record of a token at issue (R136). -/
def tokRecOf (k : Wick) (key : Nat) (x : DWord) : TokRec where
  pc := k.pc
  src := k.ra (fld x 8 4)
  se := k.rs (fld x 12 6)
  key := (k.rs (fld x 18 6)).extractLsb' 0 32
  len := k.rs (fld x 24 6)
  direct := x.getLsbD 41
  ring := fld x 42 4
  fence := if x.getLsbD 40 then none else some { wk := key, adr := k.ra (fld x 30 4), val := k.rs (fld x 34 6) }

theorem xTokd_acts (s : State) (w : WickRef) (x : DWord) : (xTokd (s.iss w) x).acts = [.tok (tokRecOf (wickOf s w) w.key x)] := by
  simp only [xTokd, fenceOf, tb_eq]
  rfl

/-- At issue a token is only noted; it is sent once the bundle's other acts are done (R172). -/
theorem acts_tok (s : State) (d c k : Nat) (t : TokRec) : s.acts d c k [.tok t] = s := rfl

theorem actToks_tok (t : TokRec) : actToks [.tok t] = [t] := rfl

/-- A TOKD sends its token after its Wick has gone on. -/
theorem exec_tokd {s : State} {w : WickRef} {b : Bundle} (hb : onlyX b) (hg : s.goes w b) (hwf : (Instr.tokd w b).wf = true) :
    exec (.tokd w b) s = .next ((advance (s.readFor w b) w (wickOf (s.readFor w b) w)).dispatchTok w
      (tokRecOf (wickOf (s.readFor w b) w) w.key b.x)) := by
  obtain ⟨hexec, -, hacts⟩ := exec_onlyX isXRow_tokd hb hg hwf
  rw [xTokd_acts] at hacts
  obtain ⟨-, -, hc⟩ := hb
  obtain ⟨-, -, -, hrun, -⟩ := runnable_live hg.2.run
  have hreg := heldStore_reg (s.readFor w b) w.d [.tok (tokRecOf (wickOf (s.readFor w b) w) w.key b.x)] (List.forall_mem_singleton.2 rfl)
  rw [hexec, issueRead_plainC hg.2 (by rw [hc]; decide) (by rw [hacts]; exact hreg), hacts, hc, cActs_zero, cNext_zero, List.append_nil,
    acts_tok, setRun_running _ _ (by exact hrun), actToks_tok, List.foldl_cons, List.foldl_nil]
  rfl

theorem State.quiet_doms {s t : State} (h : s.quiet t) : t.doms = s.doms := by
  rw [h.1]

/-- Where every line is sound, the token's reads leave the Wick that has gone on (R230). -/
theorem wickOf_tokReads_sound {s : State} {w : WickRef} (h : s.sound) (hrun : s.runnable w = true) (t : TokRec) :
    wickOf ((advance s w (wickOf s w)).tokReads w t) w = (wickOf s w).setPc ((wickOf s w).pc + 32) := by
  have hadv : (advance s w (wickOf s w)).sound := by
    intro p hp
    simp only [advance, State.setWickAt_fields] at hp
    exact h p hp
  have hquiet : (advance s w (wickOf s w)).quiet ((advance s w (wickOf s w)).tokReads w t) := by
    unfold State.tokReads
    split
    · exact (State.readAll_sound _ _ _ hadv).1
    · exact State.quiet_refl _
  obtain ⟨-, -, -, hr, -⟩ := runnable_live hrun
  rw [wickOf, wickAt_of_doms (State.quiet_doms hquiet)]
  exact wickAt_setWickAt_on (on_of_runnable hrun) (setPc_run_ne_idle hr _)

/-! ### The statement -/

/-- Settles O9: the dispatch is the packet sent and held, and then the token's record in its Wick; neither routing nor the links change what
the held packet is. -/
theorem tokenDispatchIsOutstandingUntilItsAck : Obligations.TokenDispatchIsOutstandingUntilItsAck := by
  intro s w b hb hg hwf u k t v dest hlive hflts hdest
  obtain ⟨hwick, hnext, hheld⟩ := dispatchTok_holds (s := advance u w k) (t := t) hlive hflts hdest
  have hexec : exec (.tokd w b) s = .next ((advance u w k).dispatchTok w t) := exec_tokd hb hg hwf
  exact ⟨_, hexec, hwick, fun hs => wickOf_tokReads_sound (State.readFor_sound hs w b).2 hg.2.run t, hnext, hheld⟩

end Sys2Proof.Machine
end

section
/-! The C slot alone in its bundle: where its Wick goes on, and what the word does to the registers of its Wick and beyond them (R79, R121,
R122, R138). -/

namespace Sys2Proof.Machine

open Sys2Proof Sys2Proof.Claims

/-! ### Rows of the C slot -/

/-- The command `r` issues a bundle whose C slot holds opcode `op`. -/
structure IsCRow (r : Row) (op : Nat) : Prop where
  wf_eq : ∀ w b, (r w b).wf = slotIs b.c op
  exec_eq : ∀ w b s, exec (r w b) s = .next (s.issue w (b.opC op))

theorem IsCRow.opOf_c {r : Row} {op : Nat} (hr : IsCRow r op) {w : WickRef} {b : Bundle} (hwf : (r w b).wf = true) : opOf b.c = op :=
  opOf_eq (hr.wf_eq w b ▸ hwf)

/-- A row of the C slot in a bundle that goes issues that bundle, with its lines read. -/
theorem exec_cRow {r : Row} {op : Nat} (hr : IsCRow r op) {s : State} {w : WickRef} {b : Bundle} (hg : s.goes w b)
    (hwf : (r w b).wf = true) : exec (r w b) s = .next ((s.readFor w b).issueRead w b) := by
  rw [hr.exec_eq, opC_self (hr.wf_eq w b ▸ hwf), issue_goes hg]

/-- A word that only writes registers and sets the program counter does both from the registers before the bundle (R79). -/
theorem exec_onlyC_plain {r : Row} {op : Nat} (hr : IsCRow r op) {s : State} {w : WickRef} {b : Bundle} (hb : onlyC b)
    (hg : s.goes w b) (hwf : (r w b).wf = true) (hc : plainC b.c = true) {l : List Act}
    (hl : cActs (wickOf (s.readFor w b) w) b.c = l) :
    exec (r w b) s = .next ((s.readFor w b).setWickAt w.d w.c w.key
      ((l.foldl Wick.regAct (wickOf (s.readFor w b) w)).setPc (cNext (wickOf (s.readFor w b) w) b.c))) := by
  obtain ⟨hm, hv, hx⟩ := hb
  rw [exec_cRow hr hg hwf, issue_C hg.2 hc hm hv hx, ← hl]
  rfl

/-! ### Where the Wick goes on -/

theorem cB_eq (k : Wick) (x : DWord) :
    cB k x = if x.getLsbD 26 then (x.extractLsb' 32 32).signExtend 64 else k.rs (fld x 20 6) := by
  rw [cB, tb_eq, imm32_eq]

theorem cNext_of_not_taken {k : Wick} {x : DWord} (h : cTaken k x = false) : cNext k x = k.pc + 32 := by
  rw [cNext, h]; rfl

/-- The target of a displacement, modulo 2^64 (R122). -/
theorem ofInt_cTarget {x : DWord} (h : opOf x ≠ 0xD8) (k : Wick) : BitVec.ofInt 64 (cTarget k x) = branchTo k x := by
  rw [cTarget, if_neg h, branchTo, sx_eq, BitVec.ofInt_add, BitVec.ofInt_mul, BitVec.ofInt_natCast, BitVec.ofNat_toNat,
    BitVec.setWidth_eq, BitVec.mul_comm]
  rfl

/-- Every control transfer but JR goes on at its displacement's target where it is taken. -/
theorem cNext_of_ne_jr {x : DWord} (h : opOf x ≠ 0xD8) (k : Wick) :
    cNext k x = if cTaken k x then branchTo k x else k.pc + 32 := by
  rw [cNext, ofInt_cTarget h, nextPc]

theorem cNext_of_taken {x : DWord} (h : opOf x ≠ 0xD8) {k : Wick} (ht : cTaken k x = true) : cNext k x = branchTo k x := by
  rw [cNext_of_ne_jr h, if_pos ht]

/-- JR goes on at the address in its register. -/
theorem cNext_jr {x : DWord} (h : opOf x = 0xD8) (k : Wick) : cNext k x = k.rs (fld x 8 6) := by
  simp [cNext, cTaken, cTarget, h, BitVec.ofInt_natCast]

/-! ### Words that act beyond the registers of their Wick -/

/-- Alone in a bundle that goes, a C slot that is neither held nor a wait, and writes no register of its own, acts on the Wick that has
moved to its next bundle (R121). -/
theorem issueRead_onlyC_doC {s : State} {w : WickRef} {b : Bundle} (h : Issues s w b) (hb : onlyC b) (hw : opOf b.c ≠ 0xE1)
    (ha : cActs (wickOf s w) b.c = []) (ht : cTaken (wickOf s w) b.c = false) (hh : s.cHeld (s.iss w) b.c = false) :
    s.issueRead w b = (advance s w (wickOf s w)).doC (s.iss w) b.c := by
  obtain ⟨hm, hv, hx⟩ := hb
  obtain ⟨hrun, hfetch, hlegal, ⟨stall1, stall2, stall3, stall4⟩, flts1, flts2, flts3, flts4⟩ := h
  obtain ⟨-, -, -, hr, -⟩ := runnable_live hrun
  have hacts := slotActs_C (s := s) (w := w) hm hv hx
  have hheld : s.heldStore w.d [] = none := rfl
  have hnext := setRun_running (s.iss w) (cNext (wickOf s w) b.c) hr
  have hl := liveCtx_of_on (on_setWickAt (on_of_runnable hrun) (setPc_run_ne_idle hr (cNext (wickOf s w) b.c)))
  have hgo : s.issueRead w b
      = (s.setWickAt w.d w.c w.key ((wickOf s w).setPc (cNext (wickOf s w) b.c))).doC (s.iss w) b.c := by
    simp only [State.slotActs, State.iss] at hacts flts3 flts4 stall3 hnext hh
    simp only [wickOf] at ha hl hnext ⊢
    simp [State.issueRead, State.perform, hrun, hfetch, hlegal, hw, stall1, stall2, stall3, stall4, flts1, flts2, flts3, flts4, fltIf,
      hacts, hheld, ha, hh, waitActs, actToks, State.acts, hnext, hl, State.iss]
  rw [hgo, cNext_of_not_taken ht]
  rfl

/-- The opcodes that act beyond the registers of their Wick, and neither wait nor stop it: FSIG, FOWN, ALLOC, FREE, COLL, UPD. -/
def actsBeyond (op : Nat) : Prop := op ∈ [0xE0, 0xE2, 0xE8, 0xE9, 0xEC, 0xED]

theorem cActs_actsBeyond {x : DWord} (h : actsBeyond (opOf x)) (k : Wick) :
    opOf x ≠ 0xE1 ∧ cActs k x = [] ∧ cTaken k x = false := by
  simp only [actsBeyond, List.mem_cons, List.not_mem_nil, or_false] at h
  rcases h with h | h | h | h | h | h <;> simp only [cActs, cTaken, h] <;> decide

/-- Such a row alone in a bundle that goes: its act, on the state in which its Wick has moved to its next bundle (R121). -/
theorem exec_onlyC_doC {r : Row} {op : Nat} (hr : IsCRow r op) (hop : actsBeyond op) {s : State} {w : WickRef} {b : Bundle}
    (hb : onlyC b) (hg : s.goes w b) (hwf : (r w b).wf = true)
    (hh : (s.readFor w b).cHeld ((s.readFor w b).iss w) b.c = false) :
    exec (r w b) s = .next ((advance (s.readFor w b) w (wickOf (s.readFor w b) w)).doC ((s.readFor w b).iss w) b.c) := by
  obtain ⟨hw, ha, ht⟩ := cActs_actsBeyond (hr.opOf_c hwf ▸ hop) (wickOf (s.readFor w b) w)
  rw [exec_cRow hr hg hwf, issueRead_onlyC_doC hg.2 hb hw ha ht hh]

end Sys2Proof.Machine
end

section
/-! Scalar arithmetic, branches, jumps and LOOP (R122, R137, R138, R173). -/

namespace Sys2Proof.Machine

open Sys2Proof Sys2Proof.Claims

/-! ### Scalar arithmetic -/

/-- The row is an instruction of the C slot whose one effect is `row.2` of sSA and source B, written to sSD (R137). -/
def IsScalarRow (row : Row × (DWord → DWord → DWord)) : Prop :=
  ∃ (op : Nat) (f : Wick → DWord → List Act), (∀ k x, f k x = cBin k x row.2) ∧ IsCRow row.1 op
    ∧ ∀ x, opOf x = op → plainC x = true ∧ ∀ k, cActs k x = f k x ∧ cTaken k x = false

theorem cSlt_eq (k : Wick) (x : DWord) : cSlt k x = cBin k x fun a b => if a.toInt < b.toInt then 1 else 0 := by
  simp [cSlt, BitVec.slt]

theorem cSltu_eq (k : Wick) (x : DWord) : cSltu k x = cBin k x fun a b => if a.toNat < b.toNat then 1 else 0 := by
  simp [cSltu, BitVec.ult]

/-- The opcode and the meaning of each row of scalar arithmetic. -/
theorem scalarRows_isScalarRow : ∀ row ∈ scalarRows, IsScalarRow row := by
  simp only [scalarRows, List.forall_mem_cons]
  refine ⟨⟨0xC0, cAdd, fun _ _ => rfl, ?_⟩, ⟨0xC1, cSub, fun _ _ => rfl, ?_⟩, ⟨0xC2, cMul, fun _ _ => rfl, ?_⟩,
    ⟨0xC3, cAnd, fun _ _ => rfl, ?_⟩, ⟨0xC4, cOr, fun _ _ => rfl, ?_⟩, ⟨0xC5, cXor, fun _ _ => rfl, ?_⟩,
    ⟨0xC6, cShl, fun _ _ => rfl, ?_⟩, ⟨0xC7, cShr, fun _ _ => rfl, ?_⟩, ⟨0xC8, cSra, fun _ _ => rfl, ?_⟩,
    ⟨0xC9, cSlt, cSlt_eq, ?_⟩, ⟨0xCA, cSltu, cSltu_eq, ?_⟩, List.forall_mem_nil _⟩
  all_goals exact ⟨⟨fun _ _ => rfl, fun _ _ _ => rfl⟩,
    fun _ h => ⟨by simp [plainC, h], fun _ => ⟨by simp only [cActs, h], by simp only [cTaken, h]⟩⟩⟩

theorem scalarArithmetic : Claims.scalarArithmetic := by
  intro row hrow s w b hwf hb hg
  obtain ⟨op, f, hf, hr, hword⟩ := scalarRows_isScalarRow row hrow
  obtain ⟨hplain, hk⟩ := hword b.c (hr.opOf_c hwf)
  obtain ⟨hacts, htaken⟩ := hk (wickOf (s.readFor w b) w)
  rw [exec_onlyC_plain hr hb hg hwf hplain hacts, cNext_of_not_taken htaken, hf, cBin, cB_eq]
  rfl

/-! ### Branches -/

/-- The row is a conditional branch, taken where `row.2` holds of its two registers, which writes no register (R138). -/
def IsBranchRow (row : Row × (DWord → DWord → Bool)) : Prop :=
  ∃ (op : Nat) (f : DWord → DWord → Bool), (∀ a b, f a b = row.2 a b) ∧ IsCRow row.1 op ∧ op ≠ 0xD8
    ∧ ∀ x, opOf x = op → plainC x = true ∧ ∀ k, cActs k x = [] ∧ cTaken k x = f (cmpA k x) (cmpB k x)

/-- The opcode and the condition of each branch. -/
theorem branchRows_isBranchRow : ∀ row ∈ branchRows, IsBranchRow row := by
  simp only [branchRows, List.forall_mem_cons]
  refine ⟨⟨0xD1, fun a b => a == b, fun _ _ => Bool.eq_iff_iff.2 (beq_iff_eq.trans decide_eq_true_iff.symm), ?_⟩,
    ⟨0xD2, fun a b => a != b, fun _ _ => Bool.eq_iff_iff.2 (bne_iff_ne.trans decide_eq_true_iff.symm), ?_⟩,
    ⟨0xD3, fun a b => a.slt b, fun _ _ => rfl, ?_⟩,
    ⟨0xD4, fun a b => !a.slt b, fun _ _ => decide_not.symm.trans (decide_eq_decide.2 Int.not_lt), ?_⟩,
    ⟨0xD5, fun a b => a.ult b, fun _ _ => rfl, ?_⟩,
    ⟨0xD6, fun a b => !a.ult b, fun _ _ => decide_not.symm.trans (decide_eq_decide.2 Nat.not_lt), ?_⟩,
    List.forall_mem_nil _⟩
  all_goals exact ⟨⟨fun _ _ => rfl, fun _ _ _ => rfl⟩, by decide,
    fun _ h => ⟨by simp [plainC, h], fun _ => ⟨by simp only [cActs, h], by simp only [cTaken, h]⟩⟩⟩

theorem conditionalBranches : Claims.conditionalBranches := by
  intro row hrow s w b hwf hb hg
  obtain ⟨op, f, hf, hr, hjr, hword⟩ := branchRows_isBranchRow row hrow
  have hop := hr.opOf_c hwf
  obtain ⟨hplain, hk⟩ := hword b.c hop
  obtain ⟨hacts, htaken⟩ := hk (wickOf (s.readFor w b) w)
  rw [exec_onlyC_plain hr hb hg hwf hplain hacts, cNext_of_ne_jr (hop ▸ hjr), htaken, hf]
  rfl

/-! ### Jumps and LOOP -/

theorem isCRow_br : IsCRow .br 0xD0 := ⟨fun _ _ => rfl, fun _ _ _ => rfl⟩
theorem isCRow_loop : IsCRow .loop 0xD7 := ⟨fun _ _ => rfl, fun _ _ _ => rfl⟩
theorem isCRow_jr : IsCRow .jr 0xD8 := ⟨fun _ _ => rfl, fun _ _ _ => rfl⟩
theorem isCRow_call : IsCRow .call 0xD9 := ⟨fun _ _ => rfl, fun _ _ _ => rfl⟩

/-- LOOP goes on at its target unless its register holds 1 (R173). -/
theorem cNext_loop {x : DWord} (h : opOf x = 0xD7) (k : Wick) :
    cNext k x = if k.rs (fld x 8 6) = 1 then k.pc + 32 else branchTo k x := by
  have htaken : cTaken k x = (k.rs (fld x 8 6) - 1 != 0) := by simp only [cTaken, h]
  have hz : k.rs (fld x 8 6) - 1 = 0 ↔ k.rs (fld x 8 6) = 1 := by bv_omega
  rw [cNext_of_ne_jr (by simp [h]), htaken]
  simp only [bne_iff_ne, ne_eq, hz, ite_not]

theorem cActs_loop {x : DWord} (h : opOf x = 0xD7) (k : Wick) : cActs k x = [.s (fld x 8 6) (k.rs (fld x 8 6) - 1)] := by
  simp only [cActs, h]

theorem cActs_call {x : DWord} (h : opOf x = 0xD9) (k : Wick) : cActs k x = [.s (fld x 8 6) (k.pc + 32)] := by
  simp only [cActs, h, nextPc]

theorem jumpsAndLoops : Claims.jumpsAndLoops := by
  intro s w b hb hg
  refine ⟨fun hwf => ?br, fun hwf => ?jr, fun hwf => ?call, fun hwf => ?loop⟩
  case br =>
    have hop := isCRow_br.opOf_c hwf
    rw [exec_onlyC_plain (l := []) isCRow_br hb hg hwf (by simp [plainC, hop]) (by simp only [cActs, hop]),
      cNext_of_taken (by simp [hop]) (by simp only [cTaken, hop])]
    rfl
  case jr =>
    have hop := isCRow_jr.opOf_c hwf
    rw [exec_onlyC_plain (l := []) isCRow_jr hb hg hwf (by simp [plainC, hop]) (by simp only [cActs, hop]), cNext_jr hop]
    rfl
  case call =>
    have hop := isCRow_call.opOf_c hwf
    rw [exec_onlyC_plain isCRow_call hb hg hwf (by simp [plainC, hop]) (cActs_call hop _),
      cNext_of_taken (by simp [hop]) (by simp only [cTaken, hop])]
    rfl
  case loop =>
    have hop := isCRow_loop.opOf_c hwf
    rw [exec_onlyC_plain isCRow_loop hb hg hwf (by simp [plainC, hop]) (cActs_loop hop _), cNext_loop hop]
    rfl

/-- Settles O1: every row is a word that only writes registers and sets the program counter, and goes on where its condition says. -/
theorem scalarInstructionsFollowTheirRule : Obligations.ScalarInstructionsFollowTheirRule :=
  ⟨scalarArithmetic, conditionalBranches, jumpsAndLoops⟩

end Sys2Proof.Machine
end

section
/-! The matrix queue's head executes, or its context faults with POISON (R80, R148, R152). -/

namespace Sys2Proof.Machine

open Sys2Proof Sys2Proof.Claims

theorem exec_matrixOpExecute {s : State} {w : WickRef} (h : s.canExec w = true) (ev : LineEv) :
    exec (.matrixOpExecute w ev) s = .next (s.matrixStep w.d w.c w.key (ev == .failed)) := by
  have e : exec (.matrixOpExecute w ev) s = .next (if s.canExec w then s.matrixStep w.d w.c w.key (ev == .failed) else s) := rfl
  rw [e, if_pos h]

/-- A sound operation at the head leaves the queue and executes; where no FSIG waited for it alone, that is all it does (R148, R174). -/
theorem matrixStep_sound {s : State} {w : WickRef} {op : MatOp} {rest : List MatOp} (hq : (wickOf s w).mq = op :: rest)
    (hsigs : (sigsAfter (wickOf s w).sigs).1 = []) :
    s.matrixStep w.d w.c w.key false = (s.setWickAt w.d w.c w.key (matExec (s.matRd w.d w.c w.key) op
      { wickOf s w with mq := rest, sigs := (sigsAfter (wickOf s w).sigs).2 })).updsRead w.d w.c w.key := by
  rw [wickOf] at hq hsigs ⊢
  simp only [State.matrixStep, hq, hsigs, Bool.false_eq_true, if_false, List.foldl_nil]

/-- A poisoned operation at the head faults its context, at the bundle that issued it (R80, R152). -/
theorem matrixStep_poisoned {s : State} {w : WickRef} {op : MatOp} {rest : List MatOp} (hq : (wickOf s w).mq = op :: rest) :
    s.matrixStep w.d w.c w.key true = s.ctxFault w.d w.c w.key .poison (op.pc ||| 1) (op.adr.getD 0 0) := by
  rw [wickOf] at hq
  simp only [State.matrixStep, hq, if_true, State.asyncFault]
  rfl

/-- Settles O10: the command is one step of the matrix queue, which tells only a failed operand from a sound one. -/
theorem matrixOperationsExecuteInOrder : Obligations.MatrixOperationsExecuteInOrder := by
  intro s w op rest hexec hq
  constructor
  · intro ev hev hsigs
    rw [exec_matrixOpExecute hexec, beq_false_of_ne hev, matrixStep_sound hq hsigs]
  · rw [exec_matrixOpExecute hexec, beq_self_eq_true, matrixStep_poisoned hq]

end Sys2Proof.Machine
end

section
/-! ALLOC and FREE (R177, R364 to R367): the allocator leaves the Wick, which then takes the status and the address. -/

namespace Sys2Proof.Machine

open Sys2Proof Sys2Proof.Claims

/-! ### The allocator leaves the Wicks -/

theorem takeFrame_doms (s : State) (d f : Nat) : (s.takeFrame d f).doms = s.doms := rfl

theorem takeFrames_doms (d : Nat) (rsv : Bool) (t n : Nat) :
    ∀ (s : State) (last : Option Nat), (s.takeFrames d rsv t n last).1.doms = s.doms := by
  induction n with
  | zero => intro s last; rfl
  | succ n ih =>
    intro s last
    unfold State.takeFrames
    split
    · rfl
    · next f _ =>
      simp only [ih]
      split <;> exact takeFrame_doms s d f

/-- A change of a domain that keeps its contexts keeps its Wicks. -/
theorem on_modDom {s : State} {d c k : Nat} {f : Dom → Dom} (hf : (f (s.dom d)).ctxs = (s.dom d).ctxs) (h : s.on d c k) :
    (s.modDom d f).on d c k := by
  obtain ⟨x, hx, hl, hr⟩ := h
  have hctx : (s.modDom d f).ctx? d c = some x := by rw [ctx?_eq, dom_modDom hx hf, hf]; exact hx
  exact on_of_ctx? hctx hl (wickAt_of_ctx? hx k ▸ hr)

theorem on_of_doms {s t : State} (h : t.doms = s.doms) {d c k : Nat} (hs : s.on d c k) : t.on d c k :=
  (keepsWick_of_doms h d c k hs).1

/-- An allocation takes frames, maps them and records the allocation: the Wick stays (R364 to R367). -/
theorem on_allocPages {s t : State} {d n tile entry off c k : Nat} {kind : RecKind} {rsv : Bool} {perm : Nat → Pte}
    (h : s.allocPages d kind rsv n tile perm entry = .ok (t, off)) (hs : s.on d c k) : t.on d c k := by
  unfold State.allocPages at h
  simp only at h
  split at h
  · cases h
  · split at h
    · cases h
    · split at h
      · cases h
      · cases h
        refine on_modDom ?_ (on_of_doms (takeFrames_doms _ _ _ _ _ _) hs)
        cases rsv <;> rfl

theorem on_allocate {s t : State} {d tile size hint off c k : Nat} {rsv x nok : Bool}
    (h : s.allocate d tile size hint rsv x nok = .ok (t, off)) (hs : s.on d c k) : t.on d c k := by
  unfold State.allocate at h
  extract_lets okHint tile' at h
  split at h
  · cases h
  · split at h
    · cases h
    · exact on_allocPages h hs

/-! ### ALLOC and FREE -/

theorem isCRow_allocMem : IsCRow .allocMem 0xE8 := ⟨fun _ _ => rfl, fun _ _ _ => rfl⟩
theorem isCRow_freeMem : IsCRow .freeMem 0xE9 := ⟨fun _ _ => rfl, fun _ _ _ => rfl⟩

/-- The request of an ALLOC: size and hint from its register, RSV, X and NOK from its word (R177). -/
def State.allocReq (s : State) (i : Iss) (x : DWord) : Except Nat (State × Nat) :=
  s.allocate i.d (s.tileOf i.d i.c i.k) (fld (i.wk.rs (fld x 22 6)) 0 60) (fld (i.wk.rs (fld x 22 6)) 60 4)
    (x.getLsbD 29) (x.getLsbD 30) (x.getLsbD 31)

theorem doC_alloc {x : DWord} (h : opOf x = 0xE8) (s : State) (i : Iss) : s.doC i x = s.doAlloc i x := by
  simp only [State.doC, h]

theorem doC_free {x : DWord} (h : opOf x = 0xE9) (s : State) (i : Iss) : s.doC i x = s.doFree i x := by
  simp only [State.doC, h]

theorem doAlloc_ok {s t : State} {i : Iss} {x : DWord} {off : Nat} (h : s.allocReq i x = .ok (t, off)) :
    s.doAlloc i x = t.acts i.d i.c i.k [.s (fld x 8 6) 0, .a (fld x 14 4) (domAdr off)] := by
  unfold State.allocReq at h
  simp only [State.doAlloc, tb_eq, h]

theorem doAlloc_error {s : State} {i : Iss} {x : DWord} {e : Nat} (h : s.allocReq i x = .error e) :
    s.doAlloc i x = s.acts i.d i.c i.k [.s (fld x 8 6) (BitVec.ofNat 64 e), .a (fld x 14 4) (domAdr 0)] := by
  unfold State.allocReq at h
  simp only [State.doAlloc, tb_eq, h]

/-- A status and an address written to a Wick that is there are one write of it. -/
theorem acts_status_adr {s : State} {d c k : Nat} (h : s.on d c k) (r q : Nat) (x y : DWord) :
    s.acts d c k [.s r x, .a q y] = s.setWickAt d c k (((s.wickAt d c k).setS r x).setA q y) :=
  acts_reg (.s r x) [.a q y] s h (RegActs.cons rfl rfl (.cons rfl rfl .nil))

/-- Settles O14: ALLOC and FREE call the allocator in the state in which their Wick has gone on, and then write its answer to the Wick,
which an allocation leaves. -/
theorem allocationWritesStatusAndAddress : Obligations.AllocationWritesStatusAndAddress := by
  intro s w b hb hg r k u _ _ _ _
  obtain ⟨-, -, -, hrun, -⟩ := runnable_live hg.2.run
  have hon := on_of_runnable hg.2.run
  have hidle := setPc_run_ne_idle hrun (k.pc + 32)
  have hu : u.on w.d w.c w.key := on_setWickAt hon hidle
  have halloc (hwf : (Instr.allocMem w b).wf = true) : exec (.allocMem w b) s = .next (u.doAlloc (r.iss w) b.c) := by
    have hop := isCRow_allocMem.opOf_c hwf
    rw [exec_onlyC_doC isCRow_allocMem (by simp [actsBeyond]) hb hg hwf (by simp only [State.cHeld, hop]), doC_alloc hop]
  refine ⟨fun hwf t off ht => ?ok, fun hwf e he => ?error, fun hwf => ?free⟩
  case ok =>
    rw [halloc hwf, doAlloc_ok (i := r.iss w) ht]
    exact congrArg _ (acts_status_adr (on_allocate ht hu) _ _ _ _)
  case error =>
    have hwick : u.wickAt w.d w.c w.key = k.setPc (k.pc + 32) := wickAt_setWickAt_on hon hidle
    rw [halloc hwf, doAlloc_error (i := r.iss w) he]
    refine congrArg _ ((acts_status_adr hu _ _ _ _).trans ?_)
    rw [hwick]
    exact setWickAt_setWickAt_on hon hidle hidle
  case free =>
    have hop := isCRow_freeMem.opOf_c hwf
    rw [exec_onlyC_doC isCRow_freeMem (by simp [actsBeyond]) hb hg hwf (by simp only [State.cHeld, hop]), doC_free hop]
    rfl

end Sys2Proof.Machine
end

section
/-! COLL and UPD (R140, R179, R194 to R197, R301 to R305, R322): what a launch reads, when it is held, and how it joins its engine. -/

namespace Sys2Proof.Machine

open Sys2Proof Sys2Proof.Claims

/-! ### What a launch reads -/

/-- Bytes read by space do not depend on a Wick's registers. -/
theorem rdSpace_setWickAt {s : State} {d c k : Nat} (h : s.on d c k) {v : Wick} (hv : v.run ≠ .idle)
    (hm : v.lmem = (s.wickAt d c k).lmem) (a : DWord) (n : Nat) : (s.setWickAt d c k v).rdSpace d c k a n = s.rdSpace d c k a n := by
  obtain ⟨x, hx, hl, -⟩ := h
  have hwick : (x.setWick k v).wick k = v := FMap.get_set_of_ne _ _ (Wick.ne_default hv)
  have hlmem (lant : Bool) : (s.setWickAt d c k v).lmemOf d c k lant = s.lmemOf d c k lant := by
    rw [wickAt_of_ctx? hx] at hm
    simp only [State.lmemOf, ctx?_setWickAt k v hx hl, hx, hwick, hm]
    rfl
  have hdpa (off : Nat) : ((s.setWickAt d c k v).dom d).dpa off = (s.dom d).dpa off := by
    rw [setWickAt_of_live k v hx hl, dom_setCtx]; rfl
  simp only [State.rdSpace, State.rdDom, hlmem, hdpa, State.setWickAt_fields]

theorem rdSpace_advance {s : State} {w : WickRef} (h : s.runnable w = true) (a : DWord) (n : Nat) :
    (advance s w (wickOf s w)).rdSpace w.d w.c w.key a n = s.rdSpace w.d w.c w.key a n := by
  obtain ⟨-, -, -, hr, -⟩ := runnable_live h
  exact rdSpace_setWickAt (v := (wickOf s w).setPc ((wickOf s w).pc + 32)) (on_of_runnable h) (setPc_run_ne_idle hr _) rfl a n

theorem launchFence_eq (s : State) (w : WickRef) (x : DWord) : launchFence (s.iss w) x
    = if x.getLsbD 28 then none else some { wk := w.key, adr := (wickOf s w).ra (fld x 18 4), val := (wickOf s w).rs (fld x 22 6) } :=
  fenceOf_eq s w x 28 (fld x 18 4) (fld x 22 6)

/-! ### Communicators -/

theorem comm?_of_eng {s t : State} (h : t.eng = s.eng) (d id : Nat) : t.comm? d id = s.comm? d id := by
  unfold State.comm?; rw [h]

theorem commFull_advance (s : State) (w : WickRef) (k : Wick) (d id : Nat) : (advance s w k).commFull d id = s.commFull d id := by
  have heng : (advance s w k).eng = s.eng := by simp only [advance, State.setWickAt_fields]
  unfold State.commFull
  rw [comm?_of_eng heng]

/-- A broken communicator takes every collective, any other up to 64 (R305, R322). -/
theorem commFull_eq_false {s : State} {d id : Nat} {x : Comm} (h : s.comm? d id = some x) (hx : x.st = .broken ∨ x.ops.length < 64) :
    s.commFull d id = false := by
  simp only [State.commFull, h, Bool.and_eq_false_imp, bne_iff_ne, decide_eq_false_iff_not, Nat.not_le]
  exact hx.resolve_left

theorem comm?_setComm (s : State) (d id : Nat) (x : Comm) : (s.setComm d id x).comm? d id = some x := by
  have hne : FMap.insert (FMap.get [] s.eng.comms d) id x ≠ [] := fun h => by
    have hself := FMap.find?_insert_self (FMap.get [] s.eng.comms d) id x
    rw [h] at hself
    cases hself
  simp only [State.comm?, State.setComm, FMap.get_set_of_ne _ _ hne, FMap.find?_insert_self]

/-! ### Joining a communicator -/

theorem gatherOwn_of_ne (s : State) (d id : Nat) (x : Comm) {o : CollOp} (h : o.op ≠ 3) : s.gatherOwn d id x o = s := by
  simp [State.gatherOwn, h]

/-- Until it is READY a communicator runs nothing (R299). -/
theorem collRun_of_not_ready {s : State} {d id : Nat} {x : Comm} (h : s.comm? d id = some x) (hx : x.st ≠ .ready) :
    s.collRun d id = s := by
  simp [State.collRun, h, hx]

theorem collArrive_of_not_ready {s : State} {d id seq : Nat} {x : Comm} {o : CollOp} (h : s.comm? d id = some x) (hx : x.st ≠ .ready)
    (ho : x.op? seq = some o) (hs : o.sums = []) : s.collArrive d id seq = s := by
  simp only [State.collArrive, h, ho, hs, List.map_nil, List.foldl_nil]
  exact collRun_of_not_ready h hx

/-- A collective launched while its communicator is created waits in its sequence (R305). -/
theorem joinComm_creating {s : State} {d id : Nat} {x : Comm} {o : CollOp} (hx : x.st = .creating) (hseq : ∀ p ∈ x.ops, p.seq ≠ o.seq)
    (hop : o.op ≠ 3) (hsums : o.sums = []) :
    s.joinComm d id x o = s.setComm d id { x with issued := x.issued + 1, ops := x.ops ++ [o] } := by
  have hbroken : x.st ≠ .broken := by rw [hx]; exact CommSt.noConfusion
  have hnew : ({ x with issued := x.issued + 1, ops := x.ops ++ [o] } : Comm).op? o.seq = some o := by
    have hold : x.ops.find? (fun p => p.seq == o.seq) = none := by simpa using hseq
    simp [Comm.op?, List.find?_append, hold]
  rw [State.joinComm, if_neg hbroken]
  simp only [gatherOwn_of_ne _ _ _ _ hop]
  exact collArrive_of_not_ready (comm?_setComm _ _ _ _) (by simp [hx]) hnew hsums

theorem joinComm_broken {s : State} {d id : Nat} {x : Comm} (o : CollOp) (hx : x.st = .broken) :
    s.joinComm d id x o = (s.setComm d id { x with issued := x.issued + 1, done := x.done + 1 }).abortFence d o.ctx o.fence := by
  rw [State.joinComm, if_pos hx]

/-! ### COLL -/

theorem isCRow_coll : IsCRow .coll 0xEC := ⟨fun _ _ => rfl, fun _ _ _ => rfl⟩

/-- A COLL that is not held launches the command that it reads once its Wick has gone on (R121, R305). -/
theorem exec_coll {s : State} {w : WickRef} {b : Bundle} (hb : onlyC b) (hg : s.goes w b) (hwf : (Instr.coll w b).wf = true) :
    let r := s.readFor w b
    let k := wickOf r w
    let u := advance r w k
    let cmd : BitVec 512 := launchWord 512 (u.rdSpace w.d w.c w.key (k.ra (fld b.c 14 4)) 64)
    u.commFull w.d (cmd.toNat / 2 ^ 16 % 2 ^ 16) = false →
      exec (.coll w b) s = .next (u.launchColl w.d w.c w.key k.pc cmd (launchFence (r.iss w) b.c)) := by
  intro r k u cmd hfull
  have hop := isCRow_coll.opOf_c hwf
  have hheld : r.cHeld (r.iss w) b.c = false := by
    have hcmd : launchWord 512 (r.rdSpace w.d w.c w.key (k.ra (fld b.c 14 4)) 64) = cmd := by rw [← rdSpace_advance hg.2.run]
    rw [commFull_advance, ← hcmd] at hfull
    simp only [State.cHeld, hop]
    exact hfull
  rw [exec_onlyC_doC isCRow_coll (by simp [actsBeyond]) hb hg hwf hheld]
  simp only [State.doC, hop]
  rfl

/-- A command that passes its checks, or names a broken communicator, joins the communicator (R303, R322). -/
theorem launchColl_joins {s : State} {d c k : Nat} {pc : DWord} {cmd : BitVec 512} {fence : Option FenceRef} {x : Comm}
    (h : s.comm? d (cmd.toNat / 2 ^ 16 % 2 ^ 16) = some x) (hx : x.st = .broken ∨ s.collFlts d cmd (some x) = []) :
    s.launchColl d c k pc cmd fence
      = s.joinComm d (cmd.toNat / 2 ^ 16 % 2 ^ 16) x (Claims.collOf cmd x.issued c k pc fence s.beacon) := by
  have hfmt : cmd.toNat / 2 ^ 8 % 2 ^ 8 % 16 = cmd.toNat / 2 ^ 8 % 2 ^ 4 := Nat.mod_mod_of_dvd _ ⟨2 ^ 4, rfl⟩
  simp only [State.launchColl, Nat.reduceMul, h, Claims.collOf, hfmt, Nat.pow_zero, Nat.div_one]
  rcases hx with hx | hx
  · rw [if_pos hx]
  · simp only [hx, firstListed, ite_self]

/-- A COLL that is not held and whose command passes its checks, or that names a broken communicator, joins it (R179, R303, R305, R322). -/
theorem collJoins {s : State} {w : WickRef} {b : Bundle} (hb : onlyC b) (hg : s.goes w b) (hwf : (Instr.coll w b).wf = true) {x : Comm} :
    let r := s.readFor w b
    let k := wickOf r w
    let u := advance r w k
    let cmd : BitVec 512 := launchWord 512 (u.rdSpace w.d w.c w.key (k.ra (fld b.c 14 4)) 64)
    let id := cmd.toNat / 2 ^ 16 % 2 ^ 16
    u.comm? w.d id = some x → x.st = .broken ∨ x.ops.length < 64 → x.st = .broken ∨ u.collFlts w.d cmd (some x) = [] →
      exec (.coll w b) s
        = .next (u.joinComm w.d id x (Claims.collOf cmd x.issued w.c w.key k.pc (launchFence (r.iss w) b.c) u.beacon)) := by
  intro r k u cmd id hx hroom hflts
  rw [exec_coll hb hg hwf (commFull_eq_false hx hroom), launchColl_joins hx hflts]

/-! ### UPD -/

theorem isCRow_upd : IsCRow .upd 0xED := ⟨fun _ _ => rfl, fun _ _ _ => rfl⟩

/-- The descriptor's bit 42 says that an update is fused, and its bits 48 to 63 with which communicator (R187, R305). -/
theorem updHeld_eq (s : State) (d : Nat) (u : Upd) : s.updHeld d u.desc = (u.gsrc && s.commFull d u.comm) := by
  have hgsrc : u.desc.getLsbD 42 = u.gsrc := by
    rw [Bool.eq_iff_iff, BitVec.getLsbD, Nat.testBit_eq_decide_div_mod_eq, decide_eq_true_iff, Upd.gsrc, beq_iff_eq, Upd.fld]
    omega
  rw [State.updHeld, hgsrc]
  rfl

/-- An UPD that is not held launches the descriptor that it reads once its Wick has gone on (R121, R305). -/
theorem exec_upd {s : State} {w : WickRef} {b : Bundle} (hb : onlyC b) (hg : s.goes w b) (hwf : (Instr.upd w b).wf = true) :
    let r := s.readFor w b
    let k := wickOf r w
    let u := advance r w k
    let desc : BitVec 1024 := launchWord 1024 (u.rdSpace w.d w.c w.key (k.ra (fld b.c 14 4)) 128)
    u.updHeld w.d desc = false →
      exec (.upd w b) s = .next (u.launchUpd w.d w.c w.key k.pc desc (launchFence (r.iss w) b.c)) := by
  intro r k u desc hfull
  have hop := isCRow_upd.opOf_c hwf
  have hheld : r.cHeld (r.iss w) b.c = false := by
    have hdesc : launchWord 1024 (r.rdSpace w.d w.c w.key (k.ra (fld b.c 14 4)) 128) = desc := by rw [← rdSpace_advance hg.2.run]
    rw [State.updHeld, commFull_advance, ← hdesc] at hfull
    simp only [State.cHeld, hop]
    exact hfull
  rw [exec_onlyC_doC isCRow_upd (by simp [actsBeyond]) hb hg hwf hheld]
  simp only [State.doC, hop]
  rfl

/-- The update that a Wick launches, before its engine and its place on a communicator are known (R187, R195, R197). -/
def updOf (s : State) (d c k : Nat) (pc : DWord) (desc : BitVec 1024) (fence : Option FenceRef) : Upd where
  num := s.eng.nextUpd
  dom := d
  ctx := c
  wk := k
  pc := pc
  desc := desc
  fence := fence
  step := match s.ctx? d c with | some x => x.step | none => 0
  engine := 0
  after := (s.wickAt d c k).mq.length

/-- A launch number is taken (R197, log 15). -/
def State.numberUpd (s : State) : State := { s with eng := { s.eng with nextUpd := s.eng.nextUpd + 1 } }

/-- An update is queued (R196). -/
def State.queueUpd (s : State) (u : Upd) : State := { s with eng := { s.eng with upds := s.eng.upds ++ [u] } }

/-- The collective of a fused update: its gradient and its token total (R318). -/
def fusedColl (u : Upd) (seq now : Nat) : CollOp where
  seq := seq
  op := if u.tokmode then 7 else 6
  fmt := 0
  count := u.nelem
  root := u.tensor
  src := u.gradA
  dst := 0
  sig := crc32c (leBytes 16 ((if u.tokmode then 7 else 6) + u.comm * 2 ^ 16 + u.tensor * 2 ^ 32 + u.nelem * 2 ^ 64))
  ctx := u.ctx
  wk := u.wk
  pc := u.pc
  fence := none
  issued := now
  upd := some u.num
  tokmode := u.tokmode
  tok := u.tokA

section
variable {s : State} {d c k : Nat} {pc : DWord} {desc : BitVec 1024} {fence : Option FenceRef}

/-- An update with its gradient in memory that passes its checks is queued on its engine (R196, R197). -/
theorem launchUpd_queues {v : Upd} (hv : v = { updOf s d c k pc desc fence with engine := s.updEngine (updOf s d c k pc desc fence) })
    (hgsrc : v.gsrc = false) (hflts : s.numberUpd.updFlts v = []) :
    s.launchUpd d c k pc desc fence = s.numberUpd.queueUpd v := by
  unfold State.launchUpd
  extract_lets _ u0 seq u _ t
  have hseq : seq = 0 := by
    have hu0 : u0.gsrc = false := by rw [← hgsrc, hv]; rfl
    simp only [seq, hu0, Bool.false_eq_true, if_false]
    split <;> rfl
  obtain rfl : v = u := by rw [hv]; simp only [u, hseq]; rfl
  have ht : t.updFlts u = [] := hflts
  simp only [ht, firstListed, hgsrc, Bool.not_false, if_true]
  rfl

/-- A fused one joins its communicator besides (R305, R318). -/
theorem launchUpd_fuses {v : Upd} {x : Comm}
    (hv : v = { updOf s d c k pc desc fence with engine := s.updEngine (updOf s d c k pc desc fence), seq := x.issued })
    (hgsrc : v.gsrc = true) (hx : s.comm? d v.comm = some x) (hst : x.st ≠ .broken) (hflts : s.numberUpd.updFlts v = []) :
    s.launchUpd d c k pc desc fence = (s.numberUpd.queueUpd v).joinComm d v.comm x (fusedColl v x.issued s.beacon) := by
  unfold State.launchUpd
  extract_lets _ u0 seq u _ t
  have hseq : seq = x.issued := by
    have hu0 : u0.gsrc = true := by rw [← hgsrc, hv]; rfl
    have hcomm : s.comm? d u0.comm = some x := by rw [← hx, hv]; rfl
    simp only [seq, hu0, hcomm, if_true]
  obtain rfl : v = u := by rw [hv]; simp only [u, hseq]; rfl
  have ht : t.updFlts u = [] := hflts
  have hcomm : t.comm? d u.comm = some x := hx
  simp only [ht, firstListed, hgsrc, hcomm, if_neg hst, Bool.not_true, Bool.false_eq_true, if_false]
  rfl

end

/-! ### The statement -/

/-- Settles O15: a launch reads its command once its Wick has gone on, which changes no byte; it is not held where its communicator has
room, and its checks find no fault. -/
theorem launchesJoinTheirEngine : Obligations.LaunchesJoinTheirEngine := by
  intro s w b hb hg r k u a fence
  have hfence : launchFence (r.iss w) b.c = fence := launchFence_eq r w b.c
  have hwick : u.wickAt w.d w.c w.key = k.setPc (k.pc + 32) := by
    obtain ⟨-, -, -, hrun, -⟩ := runnable_live hg.2.run
    exact wickAt_setWickAt_on (on_of_runnable hg.2.run) (setPc_run_ne_idle hrun _)
  refine ⟨?coll, ?upd⟩
  case coll =>
    intro hwf cmd id x hx
    refine ⟨fun hst hroom hflts => ⟨?joins, ?waits⟩, fun hst => ?broken⟩
    case joins => rw [collJoins hb hg hwf hx (.inr hroom) (.inr hflts), hfence]
    case waits => exact fun hcreating hseq hop => joinComm_creating hcreating hseq hop rfl
    case broken =>
      rw [collJoins hb hg hwf hx (.inl hst) (.inl hst), joinComm_broken _ hst, hfence]
      rfl
  case upd =>
    intro hwf desc step u0 u1 queued
    have hu0 : updOf u w.d w.c w.key k.pc desc fence = u0 := by
      unfold updOf
      rw [hwick]
      rfl
    have hexec (hheld : (u0.gsrc && u.commFull w.d u0.comm) = false) :
        exec (.upd w b) s = .next (u.launchUpd w.d w.c w.key k.pc desc fence) := by
      rw [exec_upd hb hg hwf ((updHeld_eq u w.d u0).trans hheld), hfence]
    refine ⟨?queues, ?fuses⟩
    case queues =>
      intro hgsrc v hflts
      rw [hexec (by rw [hgsrc]; rfl), launchUpd_queues (v := v) (by rw [hu0]) hgsrc hflts]
      rfl
    case fuses =>
      intro x hgsrc hx hst hroom v hflts
      rw [hexec (by rw [commFull_eq_false hx (.inr hroom), Bool.and_false]),
        launchUpd_fuses (v := v) (by rw [hu0]) hgsrc hx hst hflts]
      exact ⟨fusedColl v x.issued u.beacon, rfl, rfl, rfl, rfl, rfl, rfl, rfl, rfl⟩

end Sys2Proof.Machine
end

section
/-! The items of collectives (R306, R308, R310 to R313, R318): a packet that passes its checks is acknowledged, its item takes effect, and the
communicator runs on. -/

namespace Sys2Proof.Machine

open Sys2Proof

/-! ### The checks of an arrival -/

theorem FabSt.freeIn_chip (f : FabSt) (p : Pkt) : (f.freeIn p).chip = f.chip := by
  unfold FabSt.freeIn
  split <;> rfl

/-- Whether a packet is admitted does not depend on its link's buffer (R285, R430). -/
theorem admits_freeIn (s : State) (p : Pkt) : (s.freeIn p).admits p = s.admits p := by
  simp only [State.admits, State.unconfirmed, State.freeIn_fields, FabSt.freeIn_chip]

section
variable {s : State} {p : Pkt} {x : Comm} {o : CollOp} {kind : Nat}

/-- A packet that passes its checks is acknowledged, its sequence number Claims.noted, and its row goes on from there (R285, R305, R315). -/
theorem onReduce_of_reduceOk (h : Claims.reduceOk s p kind x) (h1 : 1 ≤ kind) (h8 : kind ≤ 8) (f : Nat → Comm → State → State) :
    s.onReduce p kind f = f p.ddom.toNat x (Claims.noted s p x) := by
  obtain ⟨⟨hrun, htype, hdst, hform, hadmit⟩, rfl, hlevel, hcomm, hlive, hrank⟩ := h
  have hadmits : (s.freeIn p).admits p = true := (admits_freeIn s p).trans hadmit
  have hcomm' : (s.freeIn p).comm? p.ddom.toNat p.redComm = some x := hcomm
  have harrive : ¬ (s.dev.st != .run || p.ptype != 7 || p.dst.toNat != s.fab.chip) = true := by simp [hrun, htype, hdst]
  have hfields : ¬ (p.malformed || p.redKind = 0 || decide (8 < p.redKind) || (p.redKind != 2 && p.redLevel != 0)) = true := by
    simp only [hform, Bool.false_or, Bool.or_eq_true, Bool.and_eq_true, bne_iff_ne, decide_eq_true_eq, not_or, not_and]
    exact ⟨⟨by omega, by omega⟩, fun hkind hne => hne (hlevel hkind)⟩
  have hmember : ¬ (x.st = .broken || x.ranks.getD p.redRank 0x2000 != p.src.toNat) = true := by rw [hrank]; simp [hlive]
  unfold State.onReduce
  simp only [if_neg harrive, if_neg hfields, bne_self_eq_false, Bool.false_eq_true, if_false, hadmits, Bool.not_true, hcomm',
    if_neg hmember]
  rfl

/-- An item that its collective awaits takes effect, and the communicator runs on. -/
theorem onItem_of_itemOk (h : Claims.reduceOk s p kind x) (hi : Claims.itemOk p x o) (h1 : 1 ≤ kind) (h8 : kind ≤ 8)
    (f : Nat → Comm → CollOp → State → State) :
    s.onItem p kind f = (f p.ddom.toNat x o (Claims.noted s p x)).collArrive p.ddom.toNat p.redComm o.seq := by
  obtain ⟨hop, hsig, hlen, hmem, hnew⟩ := hi
  rw [State.onItem, onReduce_of_reduceOk h h1 h8]
  simp only [hop, hsig, hlen, hmem, hnew, bne_self_eq_false, Bool.false_eq_true, if_false, Bool.not_false, Bool.and_self, if_true]

/-- Bytes that can be written land, and their item is Claims.noted. -/
theorem landItem_of_engWrite {t u : State} {d : Nat} {a : DWord} (h : u.engWrite d a p.data = .ok t) :
    u.landItem d p o a = t.modOp d p.redComm o.seq fun q =>
      { q with got := FMap.set false q.got (chunkKey p.redShard p.redChunk * 2) true } := by
  rw [State.landItem, h]

end

/-! ### Items -/

section
variable {s : State} {p : Pkt} {x : Comm} {o : CollOp}

theorem exec_collContrib {k nx : Nat} {acc : List Word} (h : Claims.reduceOk s p 1 x) (hi : Claims.itemOk p x o)
    (hsum : FMap.find? o.sums p.redChunk = some (k, nx, acc)) :
    (nx = p.redRank → exec (.collContrib p) s
      = .next ((((Claims.noted s p x).modColl (engOf p.redComm) fun e =>
        { e with adds := e.adds + (if nx = 0 then 0 else (o.promote p.data).length) }).modOp p.ddom.toNat p.redComm o.seq fun q =>
          { q with sums := FMap.insert q.sums p.redChunk (k, nx + 1, if nx = 0 then o.promote p.data else addWords acc (o.promote p.data)) }).collArrive
            p.ddom.toNat p.redComm o.seq))
    ∧ (nx ≠ p.redRank → ∀ t, (Claims.noted s p x).engWrite p.ddom.toNat (x.slotAdr p.redRank k) p.data = .ok t →
      exec (.collContrib p) s = .next (((t.modColl (engOf p.redComm) fun e => { e with rbuf := e.rbuf + p.data.length }).modOp
        p.ddom.toNat p.redComm o.seq fun q =>
          { q with stored := FMap.set false q.stored (p.redChunk * 8192 + p.redRank) true }).collArrive p.ddom.toNat p.redComm o.seq)) := by
  have e : exec (.collContrib p) s = execCollContrib p s := rfl
  rw [e, execCollContrib, onItem_of_itemOk h hi (by decide) (by decide)]
  simp only [hsum]
  constructor
  · intro hturn
    rw [if_pos hturn]
  · intro hearly t ht
    rw [if_neg hearly, ht]

theorem exec_collPartial (h : Claims.reduceOk s p 2 x) (hi : Claims.itemOk p x o) :
    exec (.collPartial p) s = .next ((((Claims.noted s p x).modOp p.ddom.toNat p.redComm o.seq fun q => { q with
      slots := FMap.insert q.slots (chunkKey p.redShard p.redChunk * 16 + p.redLevel) (toWords p.data) }).treeMerge
        16 p.ddom.toNat p.redComm o.seq p.redShard p.redChunk).collArrive p.ddom.toNat p.redComm o.seq) := by
  have e : exec (.collPartial p) s = execCollPartial p s := rfl
  rw [e, execCollPartial, onItem_of_itemOk h hi (by decide) (by decide)]

/-- A row that lands its item's bytes at an address (R306, R311, R312). -/
theorem onItem_lands {kind : Nat} {a : DWord} {t : State} {f : Nat → Comm → CollOp → State → State} (h : Claims.reduceOk s p kind x) (hi : Claims.itemOk p x o)
    (h1 : 1 ≤ kind) (h8 : kind ≤ 8) (hf : f p.ddom.toNat x o (Claims.noted s p x) = (Claims.noted s p x).landItem p.ddom.toNat p o a)
    (ht : (Claims.noted s p x).engWrite p.ddom.toNat a p.data = .ok t) :
    s.onItem p kind f = (t.modOp p.ddom.toNat p.redComm o.seq fun q =>
      { q with got := FMap.set false q.got (chunkKey p.redShard p.redChunk * 2) true }).collArrive p.ddom.toNat p.redComm o.seq := by
  rw [onItem_of_itemOk h hi h1 h8, hf, landItem_of_engWrite ht]

/-- A fused RESULT chunk enters its update's FIFO in its turn (R318). -/
theorem exec_reduceResult_fused {num : Nat} (h : Claims.reduceOk s p 3 x) (hi : Claims.itemOk p x o) (hupd : o.upd = some num)
    (hturn : o.resultIndex x.nranks p.redShard p.redChunk = o.fed) :
    exec (.reduceResult p) s = .next ((((Claims.noted s p x).feed num (toWords p.data)).modOp p.ddom.toNat p.redComm o.seq fun q => { q with
      fed := q.fed + 1, got := FMap.set false q.got (chunkKey p.redShard p.redChunk * 2) true }).collArrive p.ddom.toNat p.redComm o.seq) := by
  have e : exec (.reduceResult p) s = execReduceResult p s := rfl
  rw [e, execReduceResult, onItem_of_itemOk h hi (by decide) (by decide)]
  simp [hupd, hturn]

theorem exec_collToksum {t : State} (h : Claims.reduceOk s p 8 x) (hi : Claims.itemOk p x o)
    (ht : (Claims.noted s p x).engWrite p.ddom.toNat (x.tokAdr p.redRank (o.seq % 8)) (p.data.take 8) = .ok t) :
    exec (.collToksum p) s = .next ((t.modOp p.ddom.toNat p.redComm o.seq fun q => { q with
      toks := FMap.set none q.toks p.redRank (some (BitVec.ofNat 64 (leNat (p.data.take 8)))) }).collArrive
        p.ddom.toNat p.redComm o.seq) := by
  have e : exec (.collToksum p) s = execCollToksum p s := rfl
  rw [e, execCollToksum, onItem_of_itemOk h hi (by decide) (by decide)]
  simp only [ht]

/-! ### Barrier signals -/

theorem exec_barrierUp (h : Claims.reduceOk s p 6 x) (hseq : x.done ≤ fullSeq x.issued p.redSeq)
    (hchild : p.redRank ∈ (childPos x.nranks x.myrank).map (·.2)) :
    exec (.barrierUp p) s = .next (((Claims.noted s p x).modComm p.ddom.toNat p.redComm fun y => { y with
      ups := FMap.set none y.ups (fullSeq x.issued p.redSeq * 8192 + p.redRank) (some p.redSig) }).barrierRun
        p.ddom.toNat p.redComm (fullSeq x.issued p.redSeq)) := by
  have e : exec (.barrierUp p) s = execBarrierUp p s := rfl
  rw [e, execBarrierUp, onReduce_of_reduceOk h (by decide) (by decide)]
  have hchild' : ((childPos x.nranks x.myrank).map (·.2)).contains p.redRank = true := List.contains_iff_mem.2 hchild
  simp only [hchild', Nat.not_lt.2 hseq, decide_false, Bool.not_true, Bool.or_false, Bool.false_eq_true, if_false]

theorem exec_barrierDown (h : Claims.reduceOk s p 7 x) (hseq : x.done ≤ fullSeq x.issued p.redSeq) (hme : x.myrank ≠ 0)
    (hparent : p.redRank = parentPos x.myrank) :
    exec (.barrierDown p) s = .next (((Claims.noted s p x).modComm p.ddom.toNat p.redComm fun y => { y with
      downs := FMap.set none y.downs (fullSeq x.issued p.redSeq) (some p.redSig) }).barrierRun
        p.ddom.toNat p.redComm (fullSeq x.issued p.redSeq)) := by
  have e : exec (.barrierDown p) s = execBarrierDown p s := rfl
  rw [e, execBarrierDown, onReduce_of_reduceOk h (by decide) (by decide)]
  have hgo : ¬ (decide (fullSeq x.issued p.redSeq < x.done) || decide (x.myrank = 0) || p.redRank != parentPos x.myrank) = true := by
    simp [hseq, hme, hparent]
  simp only [if_neg hgo]

end

/-! ### The statement -/

/-- Settles O29: each row is its item's effect on the state in which the packet is acknowledged, and then the communicator's run. -/
theorem collectiveItemsAreTaken : Obligations.CollectiveItemsAreTaken := by
  intro s p x o d id u on lands
  refine ⟨?contrib, ?part, ?result, ?fused, ?gather, ?bcast, ?toksum, ?up, ?down⟩
  case contrib =>
    rintro k nx acc ⟨h, hi⟩ hsum
    obtain ⟨hturn, hearly⟩ := exec_collContrib h hi hsum
    refine ⟨fun hnx hpos => ?_, fun hnx hzero => ?_, hearly⟩
    · simpa only [if_neg (Nat.ne_of_gt hpos)] using hturn hnx
    · subst hzero
      exact hturn hnx
  case part => exact fun ⟨h, hi⟩ => exec_collPartial h hi
  case result =>
    intro ⟨h, hi⟩ hupd t ht
    exact congrArg _ (onItem_lands h hi (by decide) (by decide) (by simp only [hupd]) ht)
  case fused => exact fun num ⟨h, hi⟩ hupd hturn => exec_reduceResult_fused h hi hupd hturn
  case gather => exact fun ⟨h, hi⟩ t ht => congrArg _ (onItem_lands h hi (by decide) (by decide) rfl ht)
  case bcast => exact fun ⟨h, hi⟩ t ht => congrArg _ (onItem_lands h hi (by decide) (by decide) rfl ht)
  case toksum => exact fun ⟨h, hi⟩ t ht => exec_collToksum h hi ht
  case up => exact fun h hseq hchild => exec_barrierUp h hseq hchild
  case down => exact fun h hseq hme hparent => exec_barrierDown h hseq hme hparent

end Sys2Proof.Machine
end

section
/-! Communicators agree, grant, break, complete and report (R299, R300, R304, R314, R321, R322). -/

namespace Sys2Proof.Machine

open Sys2Proof

/-! ### Control messages -/

section
variable {s : State} {p : Pkt} {x : Comm} {d : Nat}

/-- A control message that passes its checks is acknowledged, and its row goes on from there (R299, R314, R322). -/
theorem onCollMsg_of_collMsgOk {ty : Nat} (h : Claims.collMsgOk s p ty d x) (hty : ty ≤ 0x102) (late : Bool) (f : Nat → Comm → State → State) :
    s.onCollMsg p ty late f = f d x ((s.freeIn p).ack p) := by
  obtain ⟨hrun, htype, hdst, hform, rfl, hrest, hdom, hcomm, hrank, hother⟩ := h
  have hdom' : (s.freeIn p).ctrlDom p = some d := hdom
  have hcomm' : (s.freeIn p).comm? d p.ctlComm = some x := hcomm
  have harrive : ¬ (s.dev.st != .run || p.ptype != 8 || p.dst.toNat != s.fab.chip) = true := by simp [hrun, htype, hdst]
  have hfields : ¬ (p.badCtrl || (decide (0x103 ≤ p.msgType) && decide (p.msgType ≤ 0x1FF)) || p.pspec.toNat / 2 ^ 160 != 0) = true := by
    rw [hform, hrest, decide_eq_false (show ¬ 0x103 ≤ p.msgType by omega)]
    exact Bool.false_ne_true
  have hmember : ¬ (x.ranks.getD p.ctlRank 0x2000 != p.src.toNat || p.ctlRank = x.myrank) = true := by rw [hrank]; simp [hother]
  unfold State.onCollMsg
  simp only [if_neg harrive, if_neg hfields, bne_self_eq_false, Bool.false_eq_true, if_false, hdom', hcomm', if_neg hmember]

/-- READY: a descriptor that differs breaks the communicator, one that agrees is Claims.noted while it is created, and answered once it is ready
(R299). -/
theorem exec_commReady (h : Claims.collMsgOk s p 0x100 d x) (hlive : x.st ≠ .broken) :
    exec (.commReady p) s = .next (
      if p.ctlValue % 2 ^ 32 ≠ x.check then ((s.freeIn p).ack p).breakComm d p.ctlComm 4 p.ctlRank
      else if x.st = .ready then ((s.freeIn p).ack p).sendReady d p.ctlComm x [p.ctlRank]
      else (((s.freeIn p).ack p).modComm d p.ctlComm fun y =>
        { y with ready := FMap.set false y.ready p.ctlRank true }).commReadyNow d p.ctlComm) := by
  have e : exec (.commReady p) s = execCommReady p s := rfl
  rw [e, execCommReady, onCollMsg_of_collMsgOk h (by decide)]
  simp only [if_neg hlive, bne_iff_ne]

theorem exec_commGrant (h : Claims.collMsgOk s p 0x101 d x) (hlive : x.st ≠ .broken) :
    exec (.commGrant p) s = .next ((((s.freeIn p).ack p).modComm d p.ctlComm fun y =>
      { y with limit := FMap.modify 0 y.limit p.ctlRank fun l => max l p.ctlValue }).collRun d p.ctlComm) := by
  have e : exec (.commGrant p) s = execCommGrant p s := rfl
  rw [e, execCommGrant, onCollMsg_of_collMsgOk h (by decide)]
  simp only [if_neg hlive]

theorem exec_commBreak (h : Claims.collMsgOk s p 0x102 d x) (hlow : 1 ≤ p.ctlCause) (hhigh : p.ctlCause ≤ 5) :
    exec (.commBreak p) s = .next (((s.freeIn p).ack p).breakComm d p.ctlComm p.ctlCause p.ctlRank) := by
  have e : exec (.commBreak p) s = execCommBreak p s := rfl
  rw [e, execCommBreak, onCollMsg_of_collMsgOk h (by decide)]
  simp only [hlow, hhigh, and_self, if_true]

end

/-! ### Timers -/

theorem modComm_eq {s : State} {d id : Nat} {x : Comm} (h : s.comm? d id = some x) (f : Comm → Comm) :
    s.modComm d id f = s.setComm d id (f x) := by
  rw [State.modComm, h]

section
variable {s : State} {d : BitVec 8} {id : BitVec 16} {x : Comm}

theorem exec_commReadyResend (h : s.comm? d.toNat id.toNat = some x) :
    exec (.commReadyResend d id) s = .next (
      if s.dev.st = .run ∧ x.st = .creating ∧ x.readyAt + 1000000 ≤ s.beacon then
        (s.setComm d.toNat id.toNat { x with readyAt := s.beacon }).sendReady d.toNat id.toNat x
          (x.others.filter fun r => !FMap.get false x.ready r)
      else s) := by
  have e : exec (.commReadyResend d id) s = execCommReadyResend d id s := rfl
  rw [e, execCommReadyResend, h]
  simp only [modComm_eq h, Bool.and_eq_true, beq_iff_eq, decide_eq_true_eq, and_assoc]

theorem exec_commStatusWrite (h : s.comm? d.toNat id.toNat = some x) :
    exec (.commStatusWrite d id) s = .next (
      if s.dev.st = .run ∧ x.ops ≠ [] ∧ x.statAt + 1000000 ≤ s.beacon then
        (s.setComm d.toNat id.toNat { x with statAt := s.beacon }).writeStatus d.toNat { x with statAt := s.beacon }
      else s) := by
  have e : exec (.commStatusWrite d id) s = execCommStatusWrite d id s := rfl
  rw [e, execCommStatusWrite, h]
  simp only [Bool.and_eq_true, beq_iff_eq, decide_eq_true_eq, and_assoc, Bool.not_eq_true', List.isEmpty_eq_false_iff]

end

/-! ### What a communicator does when nothing is outstanding -/

/-- From `s` to `t` no byte of memory changed, and communicator `x` has at most made grants (R314). -/
def OnlyGrants (s : State) (d id : Nat) (x : Comm) (t : State) : Prop :=
  t.mem = s.mem ∧ ∃ g, t.comm? d id = some { x with granted := g }

theorem sendColl_eng (s : State) (d id : Nat) (x : Comm) (rank ty value cause : Nat) : (s.sendColl d id x rank ty value cause).eng = s.eng := by
  simp only [State.sendColl, State.send_fields]

theorem sendColl_mem (s : State) (d id : Nat) (x : Comm) (rank ty value cause : Nat) : (s.sendColl d id x rank ty value cause).mem = s.mem := by
  simp only [State.sendColl, State.send_fields]

section
variable {s : State} {d id : Nat} {x : Comm}

/-- With nothing outstanding no RESULT chunk waits for room. -/
theorem promiseFor_of_ops_nil (s : State) (hops : x.ops = []) (r : Nat) : s.promiseFor x r = s := by
  simp [State.promiseFor, State.firstHeld, hops]

/-- A grant to one rank. -/
theorem OnlyGrants.grant {t : State} (h : OnlyGrants s d id x t) (r l : Nat) :
    OnlyGrants s d id x ((t.sendColl d id x r 0x0101 l 0).modComm d id fun y => { y with granted := FMap.set 0 y.granted r l }) := by
  obtain ⟨hmem, g, hg⟩ := h
  rw [modComm_eq ((comm?_of_eng (sendColl_eng t d id x r 0x0101 l 0) d id).trans hg)]
  refine ⟨?_, _, comm?_setComm _ _ _ _⟩
  simp only [State.setComm_fields, sendColl_mem, hmem]

theorem grantAll_onlyGrants (h : s.comm? d id = some x) (hops : x.ops = []) : OnlyGrants s d id x (s.grantAll d id) := by
  have hstart : OnlyGrants s d id x s := ⟨rfl, x.granted, h⟩
  unfold State.grantAll
  simp only [h, promiseFor_of_ops_nil _ hops]
  split
  · exact hstart
  · refine List.foldlRecOn _ _ hstart fun t ht r _ => ?_
    split
    · exact ht.grant r _
    · exact ht

theorem openChunks_of_ops_nil (h : s.comm? d id = some x) (hops : x.ops = []) (fuel : Nat) : State.openChunks fuel s d id = s := by
  cases fuel with
  | zero => rfl
  | succ fuel => simp [State.openChunks, h, hops]

theorem sumBy_zero {α : Type} (l : List α) : sumBy (fun _ => 0) l = 0 := by
  induction l with
  | nil => rfl
  | cons _ _ ih => exact ih

/-- With nothing outstanding a run makes grants alone. -/
theorem collRun_onlyGrants (h : s.comm? d id = some x) (hops : x.ops = []) : OnlyGrants s d id x (s.collRun d id) := by
  have hsends (l : List Nat) : sumBy (fun r => sumBy (fun o => (x.itemsOf o x.myrank r).length) []) l = 0 := sumBy_zero l
  unfold State.collRun
  simp only [h, hops, List.map_nil, List.foldl_nil, openChunks_of_ops_nil h hops, hsends, State.sendRounds]
  split
  · exact ⟨rfl, x.granted, h⟩
  · exact grantAll_onlyGrants h hops

/-! ### Completion -/

/-- The communicator once its only collective `o` has left it, counted (R304). -/
def Comm.completed (x : Comm) (o : CollOp) : Comm := { x with
  ops := [], done := x.done + 1
  base := x.others.foldl (fun b r => FMap.modify 0 b r (· + (x.itemsOf o r x.myrank).length)) x.base
  ups := x.ups.filter fun p => p.1 / 8192 != o.seq, downs := FMap.set none x.downs o.seq none }

/-- A collective without a fence that is complete leaves its communicator, which runs on. -/
theorem collComplete_of_opDone {o : CollOp} (h : s.comm? d id = some x) (hops : x.ops = [o]) (hdone : x.opDone o = true)
    (hfence : o.fence = none) (hfused : s.fusedBefore d id o.seq = false) :
    s.collComplete d id = (s.setComm d id (x.completed o)).collRun d id := by
  simp only [State.collComplete, h, hops, hdone, hfused, hfence, State.signalFence, Bool.not_true, Bool.or_self, Bool.false_eq_true, if_false]
  rfl

end

/-! ### The watchdog -/

theorem writeStatus_eng (s : State) (d : Nat) (x : Comm) : (s.writeStatus d x).eng = s.eng := by
  unfold State.writeStatus
  simp only
  split
  · exact State.memAlone_eng (s.wrDom_memAlone d _ _)
  · rfl

/-- The communicator and the domain's count of late collectives after a report of the watchdog (R321). -/
theorem collwait_counts {s : State} {d : BitVec 8} {id : BitVec 16} {seq : BitVec 64} {x : Comm} {o : CollOp}
    (h : s.comm? d.toNat id.toNat = some x) (hrun : s.dev.st = .run) (ho : x.op? seq.toNat = some o)
    (hlate : o.issued + (o.dog + 1) * x.wdog * 1000000 ≤ s.beacon) :
    ∃ t, exec (.collwait d id seq) s = .next t
      ∧ t.comm? d.toNat id.toNat
        = some { (x.modOp o.seq fun q => { q with dog := q.dog + 1 }) with waits := satAdd 32 x.waits 1 }
      ∧ t.eng.wait = FMap.modify 0 s.eng.wait d.toNat fun c => satAdd 32 c 1 := by
  have e : exec (.collwait d id seq) s = execCollwait d id seq s := rfl
  have hgo : ¬ (s.dev.st != .run || decide (s.beacon < o.issued + (o.dog + 1) * x.wdog * 1000000)) = true := by
    simp [hrun, hlate]
  rw [e, execCollwait, h]
  simp only [ho, if_neg hgo]
  refine ⟨_, rfl, ?_, ?_⟩
  · rw [comm?_of_eng (writeStatus_eng _ _ _)]
    exact comm?_setComm _ _ _ _
  · rw [writeStatus_eng]
    simp only [State.setComm, State.logErr_fields]

/-! ### The statement -/

/-- Settles O30: a message's row acts on the state in which it is acknowledged, a timer's row when it is due, and a communicator that is left
with nothing outstanding makes grants alone. -/
theorem communicatorsAgreeGrantAndComplete : Obligations.CommunicatorsAgreeGrantAndComplete := by
  refine ⟨fun s p d x => ⟨?agree, ?differ, ?again, ?grant, ?breaks⟩,
    fun s d id x hx hrun => ⟨?soon, ?soonStatus, ?resend, ?status, ?complete, ?wait⟩⟩
  case agree =>
    intro h hst heq
    have hlive : x.st ≠ .broken := by rw [hst]; exact CommSt.noConfusion
    rw [exec_commReady h hlive, if_neg fun hne => hne heq, if_neg (by rw [hst]; exact CommSt.noConfusion)]
  case differ =>
    intro h hst hne
    rw [exec_commReady h hst, if_pos hne]
  case again =>
    intro h hst heq
    have hlive : x.st ≠ .broken := by rw [hst]; exact CommSt.noConfusion
    rw [exec_commReady h hlive, if_neg fun hne => hne heq, if_pos hst]
  case grant => exact exec_commGrant
  case breaks => exact exec_commBreak
  case soon =>
    intro hsoon
    rw [exec_commReadyResend hx, if_neg (by omega)]
  case soonStatus =>
    intro hsoon
    rw [exec_commStatusWrite hx, if_neg (by omega)]
  case resend =>
    intro hst hdue
    rw [exec_commReadyResend hx, if_pos ⟨hrun, hst, hdue⟩]
  case status =>
    intro hops hdue
    rw [exec_commStatusWrite hx, if_pos ⟨hrun, hops, hdue⟩]
  case complete =>
    intro o hops hdone hfence hfused
    obtain ⟨hmem, g, hg⟩ := collRun_onlyGrants (comm?_setComm s d.toNat id.toNat (x.completed o)) rfl
    have e : exec (.collectiveComplete d id) s = execCollectiveComplete d id s := rfl
    refine ⟨_, _, ?_, hg, rfl, rfl, hmem⟩
    rw [e, execCollectiveComplete, if_pos hrun, collComplete_of_opDone hx hops hdone hfence hfused]
  case wait =>
    intro seq o ho hlate hwf
    obtain ⟨t, ht, hcomm, hwait⟩ := collwait_counts hx hrun ho hlate
    refine ⟨t, _, ht, hcomm, rfl, ?_⟩
    rw [hwait, FMap.modify]
    exact FMap.get_set_self hwf _ _

end Sys2Proof.Machine
end

section
/-! The SPDM responder (R407 to R412, R415): a request that its state admits is served at once, its response waits in its flow, and
RESPOND_IF_READY and CHUNK_GET bring it out. -/

namespace Sys2Proof.Machine

open Sys2Proof

/-! ### Requests that are admitted -/

section
variable {s : State}

/-- A flow that holds fewer than four responses takes the request (R415). -/
theorem secReq_of_room {fl : FlowId} (h : (FMap.get [] s.sec.spdm.ready fl).length < 4) (serve : State → State × SRsp) :
    s.secReq fl serve = Claims.answered (serve s).1 fl (serve s).2 := if_neg (Nat.not_le.2 h)

/-- A request outside a session is served in the flow of PF0, whether or not it needs a root (R409; the order of negotiation is log 46). -/
theorem spdmReq_of_bare {need : Nat} (h : Claims.bare s need) (rootless : Bool) (serve : State → State × SRsp) :
    s.spdmReq rootless need serve = Claims.answered (serve s).1 256 (serve s).2 := by
  obtain ⟨hup, hroot, hneg, hroom⟩ := h
  rw [State.spdmReq, State.spdmUp, hup, hroot, decide_eq_false (Nat.not_lt.2 hneg)]
  exact secReq_of_room hroom serve

/-- A message in an open session is acted on in that session (R413). -/
theorem inSession_of_inSes {ses : BitVec 32} {x : Session} (h : Claims.inSes s ses x) (f : Session → State) :
    s.inSession ses.toNat f = f x := by
  obtain ⟨hup, hroot, hses, hopen, -⟩ := h
  simp only [State.inSession, State.spdmUp, hup, hroot, hses, hopen, Bool.not_true, Bool.false_eq_true, if_false, if_true]

/-- A request in an open session is served in the session's flow (R415). -/
theorem inSession_secReq {ses : BitVec 32} {x : Session} (h : Claims.inSes s ses x) (serve : Session → State → State × SRsp) :
    (s.inSession ses.toNat fun y => s.secReq y.flow (serve y)) = Claims.answered (serve x s).1 x.flow (serve x s).2 := by
  rw [inSession_of_inSes h]
  obtain ⟨-, -, -, -, hroom⟩ := h
  exact secReq_of_room hroom _

end

/-! ### Certificates and measurements -/

section
variable {s : State}

theorem measBlocks_isEmpty (s : State) : s.measBlocks.isEmpty = false := rfl

theorem exec_getCertificate (h : Claims.bare s 3) {sl : BitVec 8} {c : List Byte} (hc : s.chain? sl.toNat = some c) (o n : BitVec 16) :
    exec (.getCertificate sl o n) s = .next (Claims.answered s 256 (.certificate ((c.drop o.toNat).take n.toNat))) := by
  have e : exec (.getCertificate sl o n) s = execGetCertificate sl o n s := rfl
  rw [e, execGetCertificate, spdmReq_of_bare h, hc]

theorem exec_spdmChallenge (h : Claims.bare s 3) {sl : BitVec 8} (hc : (s.chain? sl.toNat).isSome = true) :
    exec (.spdmChallenge sl) s = .next (Claims.answered s 256 .challengeAuth) := by
  have e : exec (.spdmChallenge sl) s = execSpdmChallenge sl s := rfl
  rw [e, execSpdmChallenge, spdmReq_of_bare h, if_pos hc]

/-- Index 0xFF asks for every block present, and some are present always (R412). -/
theorem exec_getMeasurements_all (h : Claims.bare s 3) (sg : Bool) :
    exec (.getMeasurements 0xFF sg) s = .next (Claims.answered s 256 (.measurements sg s.measBlocks)) := by
  have e : exec (.getMeasurements 0xFF sg) s = execGetMeasurements 0xFF sg s := rfl
  rw [e, execGetMeasurements, spdmReq_of_bare h]
  simp only [if_true, measBlocks_isEmpty, Bool.false_eq_true, if_false]

theorem exec_getCsr (h : Claims.bare s 3) {sl : BitVec 8} (hsl : sl.toNat < 2) (hlc : s.sec.lc = .prov) :
    exec (.getCsr sl) s = .next (Claims.answered (s.modSpdm fun x =>
      { x with csrs := if x.csrs.contains sl.toNat then x.csrs else x.csrs ++ [sl.toNat] }) 256 (.csr sl.toNat)) := by
  have e : exec (.getCsr sl) s = execGetCsr sl s := rfl
  rw [e, execGetCsr, spdmReq_of_bare h, if_neg (Nat.not_le.2 hsl)]
  obtain ⟨hup, hroot, -, -⟩ := h
  rw [State.spdmUp, hup, hroot, hlc]
  rfl

/-- An empty slot takes the chain of the device's own identity key once its CSR has been fetched (R408). -/
theorem exec_setCertificate (h : Claims.bare s 3) {sl : BitVec 8} {c : List Byte} (hsl : sl.toNat < 2) (hlc : s.sec.lc = .prov)
    (hempty : FMap.find? s.sec.spdm.chains sl.toNat = none)
    (hleaf : Config.certLeaf c = some (Config.idKey sl.toNat (s.sec.idSecret sl.toNat))) (hcsr : sl.toNat ∈ s.sec.spdm.csrs) :
    exec (.setCertificate sl c) s = .next (Claims.answered (s.modSpdm fun x =>
      { x with chains := FMap.insert x.chains sl.toNat c }) 256 .setCertificateRsp) := by
  have e : exec (.setCertificate sl c) s = execSetCertificate sl c s := rfl
  have hfetched : s.sec.spdm.csrs.contains sl.toNat = true := List.contains_iff_mem.2 hcsr
  rw [e, execSetCertificate, spdmReq_of_bare h, hempty, hleaf, hfetched, decide_eq_false (Nat.not_le.2 hsl), bne_self_eq_false]
  obtain ⟨hup, hroot, -, -⟩ := h
  rw [State.spdmUp, hup, hroot, hlc]
  rfl

end

/-! ### Large messages and the collection of responses -/

section
variable {s : State}

theorem exec_spdmUnsupported (hup : s.pf0Up = true) (hroot : s.noRoot = false) :
    exec .spdmUnsupported s = .next (s.refuse .unsupportedRequest) := by
  have e : exec .spdmUnsupported s = execSpdmUnsupported s := rfl
  rw [e, execSpdmUnsupported, State.spdmUp, hup, hroot]
  rfl

/-- A chunk of a message of at most 65,536 bytes is acknowledged; the last one ends the message (R409). -/
theorem exec_chunkSend (hup : s.pf0Up = true) (hroot : s.noRoot = false) {data : List Byte}
    (hlen : (s.sec.spdm.chunkIn ++ data).length ≤ 65536) (last : Bool) :
    exec (.chunkSend data last) s
      = .next ((s.modSpdm fun x => { x with chunkIn := if last then [] else s.sec.spdm.chunkIn ++ data }).reply .chunkSendAck) := by
  have e : exec (.chunkSend data last) s = execChunkSend data last s := rfl
  rw [e, execChunkSend, State.spdmUp, hup, hroot, if_neg (Nat.not_lt.2 hlen)]
  rfl

theorem exec_chunkGet (hup : s.pf0Up = true) (hroot : s.noRoot = false) {r : SRsp} {n : Nat} (hout : s.sec.spdm.chunkOut = some (r, n)) :
    exec .chunkGet s = .next (if n ≤ 1 then (s.modSpdm fun x => { x with chunkOut := none }).reply r
      else (s.modSpdm fun x => { x with chunkOut := some (r, n - 1) }).reply .chunkResponse) := by
  have e : exec .chunkGet s = execChunkGet s := rfl
  rw [e, execChunkGet, State.spdmUp, hup, hroot, hout]
  rfl

/-- The oldest response of a flow leaves it, in one piece or announced as large (R409, R415). -/
theorem exec_respondIfReady (hup : s.pf0Up = true) {fl : BitVec 9} {r : SRsp} {l : List SRsp}
    (hready : FMap.get [] s.sec.spdm.ready fl.toNat = r :: l) :
    exec (.respondIfReady fl) s = .next (if r.chunks ≤ 1 then (s.modSpdm fun x => { x with ready := FMap.set [] x.ready fl.toNat l }).reply r
      else ((s.modSpdm fun x => { x with ready := FMap.set [] x.ready fl.toNat l }).modSpdm fun x =>
        { x with chunkOut := some (r, r.chunks) }).refuse .largeResponse) := by
  have e : exec (.respondIfReady fl) s = execRespondIfReady fl s := rfl
  rw [e, execRespondIfReady, State.spdmUp, hup, hready]
  rfl

end

/-! ### The statement -/

/-- Settles O40: each request is one that `spdmReq` admits, served on the state it meets, and its response waits in the flow of PF0. -/
theorem theResponderServesItsConnection : Obligations.TheResponderServesItsConnection := by
  intro s ans
  refine ⟨?version, ?capabilities, ?algorithms, ?negotiated, ?unsupported, ?send, ?get, ?collect⟩
  case version => exact fun h => congrArg _ (spdmReq_of_bare h true _)
  case capabilities => exact fun m h => congrArg _ (spdmReq_of_bare h true _)
  case algorithms => exact fun h => congrArg _ (spdmReq_of_bare h true _)
  case negotiated =>
    intro h
    refine ⟨congrArg _ (spdmReq_of_bare h false _), fun sl o n c hc => ?_, exec_getMeasurements_all h, fun sl => exec_getCsr h,
      fun sl c => exec_setCertificate h⟩
    exact ⟨exec_getCertificate h hc o n, exec_spdmChallenge h (Option.isSome_of_eq_some hc)⟩
  case unsupported => exact exec_spdmUnsupported
  case send => exact fun data hup hroot hlen => ⟨exec_chunkSend hup hroot hlen false, exec_chunkSend hup hroot hlen true⟩
  case get => exact fun r n hup hroot hout => exec_chunkGet hup hroot hout
  case collect => exact fun fl r l hup hready => exec_respondIfReady hup hready

end Sys2Proof.Machine
end

section
/-! SPDM sessions (R409, R411, R413, R414): KEY_EXCHANGE makes one, FINISH opens it, heartbeats keep it. -/

namespace Sys2Proof.Machine

open Sys2Proof

section
variable {s : State}

/-! ### The table of sessions -/

theorem session?_setSession (s : State) (i : Nat) (x : Session) : (s.setSession i x).session? i = some x := FMap.find?_insert_self ..

/-! ### The handshake -/

/-- The opaque elements of a KEY_EXCHANGE pass when the requester's encapsulation key is among them and each is of a type of R411. -/
theorem keyExchange_elems_ok {el : List (BitVec 8)} (hkey : 1 ∈ el) (htypes : ∀ e ∈ el, 1 ≤ e.toNat ∧ e.toNat ≤ 3) :
    el.contains 1 = true ∧ (el.any fun e => e == 0 || decide (4 ≤ e.toNat)) = false := by
  refine ⟨List.contains_iff_mem.2 hkey, List.any_eq_false.2 fun e he => ?_⟩
  obtain ⟨hlow, hhigh⟩ := htypes e he
  have hne : e ≠ 0 := fun hzero => by simp [hzero] at hlow
  rw [beq_false_of_ne hne, decide_eq_false (show ¬ 4 ≤ e.toNat by omega)]
  exact Bool.false_ne_true

/-- A KEY_EXCHANGE that passes makes the next session (R411, R413). -/
theorem exec_keyExchange (h : Claims.bare s 3) (hrun : s.dev.st ≠ .hold) {sl : BitVec 8} {el : List (BitVec 8)} (hkey : 1 ∈ el)
    (htypes : ∀ e ∈ el, 1 ≤ e.toNat ∧ e.toNat ≤ 3) (hc : (s.chain? sl.toNat).isSome = true) (hroom : s.sec.spdm.sessions.length < 256) :
    exec (.keyExchange sl el) s = .next (Claims.answered
      ((s.setSession s.sec.spdm.nextSession { auth := s.sec.spdm.mutAuth, beat := s.beacon }).modSpdm fun x =>
        { x with nextSession := s.sec.spdm.nextSession + 1 })
      256 (.keyExchangeRsp s.sec.spdm.nextSession s.sec.spdm.mutAuth)) := by
  have e : exec (.keyExchange sl el) s = execKeyExchange sl el s := rfl
  obtain ⟨hone, hother⟩ := keyExchange_elems_ok hkey htypes
  have hnone : (s.chain? sl.toNat).isNone = false := Option.isNone_eq_false_iff.2 hc
  rw [e, execKeyExchange, spdmReq_of_bare h]
  simp only [if_neg hrun, hone, hother, hnone, if_neg (Nat.not_le.2 hroom), Bool.not_true, Bool.or_self, Bool.false_eq_true, if_false]

/-- FINISH of a session whose requester has authenticated itself where it was asked to: it opens the session, or ends it where what it
carries does not verify (R409, R413). After a failed health test it opens without a secret, as `newKey` answers none (log 69). -/
theorem exec_spdmFinish (h : Claims.bare s 0) {ses : BitVec 32} {x : Session} (hses : s.session? ses.toNat = some x)
    (hclosed : x.open_ = false) (hauth : x.auth = true → x.leaf ≠ none) (ok : Bool) :
    exec (.spdmFinish ses ok) s = .next (
      if ok then Claims.answered (((s.setSession ses.toNat { x with
        open_ := true, beat := s.beacon, th2 := s.rndBytes 48, secret := (s.drewBytes 48).newKey 48 }).drewBytes 48).drewKey 48) 256 .finishRsp
      else Claims.answered (s.dropSession ses.toNat) 256 (.error .decryptError)) := by
  have e : exec (.spdmFinish ses ok) s = execSpdmFinish ses ok s := rfl
  have hready : (x.open_ || (x.auth && x.leaf.isNone)) = false := by
    rw [hclosed, Bool.false_or, Bool.and_eq_false_imp]
    exact fun ha => Option.isNone_eq_false_iff.2 (Option.isSome_iff_ne_none.2 (hauth ha))
  obtain ⟨hup, hroot, -, hroom⟩ := h
  rw [e, execSpdmFinish]
  simp only [State.spdmUp, hup, hroot, hses, hready, Bool.not_true, Bool.false_eq_true, if_false]
  rw [secReq_of_room (fl := pf0Flow) hroom]
  cases ok <;> rfl

/-- In the handshake of a session that asks its requester to authenticate itself, a request is served in the flow of PF0 (R413). -/
theorem inHandshake_secReq (h : Claims.bare s 0) {i : Nat} {x : Session} (hses : s.session? i = some x) (hclosed : x.open_ = false)
    (hauth : x.auth = true) (serve : Session → State → State × SRsp) :
    (s.inHandshake i fun y => s.secReq pf0Flow (serve y)) = Claims.answered (serve x s).1 256 (serve x s).2 := by
  obtain ⟨hup, hroot, -, hroom⟩ := h
  simp only [State.inHandshake, State.spdmUp, hup, hroot, hses, hclosed, hauth, Bool.not_true, Bool.not_false, Bool.and_self,
    Bool.false_eq_true, if_false, if_true]
  exact secReq_of_room hroom _

/-- A requester's chain that verifies authenticates the session in its handshake (R413). -/
theorem exec_deliverEncapsulatedResponse (h : Claims.bare s 0) {ses : BitVec 32} {x : Session} (hses : s.session? ses.toNat = some x)
    (hclosed : x.open_ = false) (hauth : x.auth = true) {c k : List Byte} (hleaf : Config.certLeaf c = some k) :
    exec (.deliverEncapsulatedResponse ses c) s
      = .next (Claims.answered (s.setSession ses.toNat { x with leaf := some k }) 256 .encapsulatedAck) := by
  have e : exec (.deliverEncapsulatedResponse ses c) s = execDeliverEncapsulatedResponse ses c s := rfl
  rw [e, execDeliverEncapsulatedResponse, inHandshake_secReq h hses hclosed hauth, hleaf]

/-! ### Keeping a session -/

/-- An open session without a heartbeat for 120 s, twice the period of R409 (log 46), ends (R414). -/
theorem exec_heartbeatTimeout {ses : BitVec 32} {x : Session} (hses : s.session? ses.toNat = some x) (hopen : x.open_ = true)
    (hlate : x.beat + 120000000000 ≤ s.beacon) : exec (.heartbeatTimeout ses) s = .next (s.dropSession ses.toNat) := by
  have e : exec (.heartbeatTimeout ses) s = execHeartbeatTimeout ses s := rfl
  rw [e, execHeartbeatTimeout, hses]
  simp only [hopen, hlate, decide_true, Bool.and_self, if_true]

end

/-! ### The statement -/

/-- Settles O41: each row is its change of the one session, made in the handshake or in the open session, and the response in its flow. -/
theorem sessionsOpenAndEnd : Obligations.SessionsOpenAndEnd := by
  intro s ses x
  refine ⟨?exchange, ?finish, ?opened, ?timeout, ?encapsulated⟩
  case exchange =>
    intro sl el h hrun hkey htypes hc hroom
    exact ⟨_, exec_keyExchange h hrun hkey htypes hc hroom, session?_setSession .., rfl⟩
  case finish =>
    intro h hses hclosed hauth
    exact ⟨⟨_, _, exec_spdmFinish h hses hclosed hauth true, session?_setSession .., rfl, rfl, rfl, rfl, rfl, rfl⟩,
      exec_spdmFinish h hses hclosed hauth false⟩
  case opened =>
    intro h
    exact ⟨congrArg _ (inSession_secReq h _), congrArg _ (inSession_secReq h _), congrArg _ (inSession_secReq h _)⟩
  case timeout => exact exec_heartbeatTimeout
  case encapsulated =>
    intro h hses hclosed hauth
    exact ⟨congrArg _ (inHandshake_secReq h hses hclosed hauth _), fun c k => exec_deliverEncapsulatedResponse h hses hclosed hauth⟩

end Sys2Proof.Machine
end
